-- ==== Sys2Proof/Word.lean ====
section
/-! DEFINITION. The word types of the Irsum I4, the sparse tables of its state, and the operand
records that commands carry. Field widths are those of the encodings of 07_core_instruction_set.md
(R142 to R167) and of the mailbox entry of 18_host_interface_and_mailboxes.md (R405). -/

namespace Sys2Proof

abbrev Byte := BitVec 8
abbrev Half := BitVec 16
abbrev Word32 := BitVec 32
abbrev Word64 := BitVec 64

/-- A sparse table: keys strictly rising, a missing key stands for the table's default. -/
abbrev Tab (α : Type) := List (Nat × α)

/-- General register g0 to g31 or vector register v0 to v31 (R146). -/
abbrev Reg := BitVec 5
/-- Predicate p0 to p7. -/
abbrev PredNo := BitVec 3
/-- Tile t0 to t15. -/
abbrev TileNo := BitVec 4
/-- Accumulator bank a0 to a3. -/
abbrev BankNo := BitVec 2
/-- Semaphore s0 to s63. -/
abbrev SemNo := BitVec 6

/-- The fault causes of R80, and ABORTED (0x50) of R333. -/
inductive Cause where
  | translation | permission | memError | integrity | illegalInstr | tileConfig
  | align | bounds | watchdog | poison | semOverflow | taskStateDirty | aborted
  deriving DecidableEq, Repr

/-- An access that the hardware ended: its cause, and the virtual address it names (R215, R216). -/
abbrev BadAccess := Cause × Word64

/-- A read whose error went away: the virtual address it names, and whether ECC corrected it, or the re-read succeeded (R277). -/
abbrev SoftError := Word64 × Bool

/-- Who issues an instruction: logical core, hardware context, and the guard of R143. -/
structure Issue where
  core : Nat
  ctx : Nat
  pg : PredNo := 0
  pn : Bool := false
  deriving DecidableEq, Repr

/-- A row number of a row-move instruction: the ROW field, or the general register GR (R165). -/
inductive RowSel where
  | imm (row : BitVec 6)
  | reg (gr : Reg)
  deriving DecidableEq, Repr

/-- A shift count: the K field, or the lanes of a vector register (R164, I = 0 and I = 1). -/
inductive CountSel where
  | imm (k : BitVec 6)
  | lanes (vb : Reg)
  deriving DecidableEq, Repr

/-- What a memory port or the mesh makes of a request (R74, R277, R287): the outcome of the error
checks, which the spec leaves to the hardware's physical condition. -/
inductive PortOutcome where
  | clean        -- no error, or an error that lies in the state already
  | corrected    -- corrected by ECC and counted
  | transient    -- the one re-read succeeded
  | lasting      -- the re-read failed: MEM_ERROR
  | tagMismatch  -- the tag check failed: INTEGRITY
  | watchdog     -- ended by a grant watchdog
  deriving DecidableEq, Repr

/-- Why Uango declares a Near stack unusable (R282). -/
inductive StackEnd where
  | training     -- its port fails training at boot
  | link         -- its link to the compute die fails in service
  | errors       -- lasting errors in more than 8 frames of one channel within 24 h
  | retired      -- more than 256 of its frames are retired
  deriving DecidableEq, Repr

/-- A mailbox command entry (R405), as Uango reads it from the slot at CMD_CI, with the bytes of the
host buffer that HOST_PTR names (D commands), and whether Uango answers PENDING first (R408). -/
structure Entry where
  fn : Nat
  verMinor : Byte := 0
  verMajor : Byte := 1
  seq : Half := 0
  indirect : Bool := false
  ordered : Bool := false
  reset : Bool := false
  rsv13 : BitVec 13 := 0
  payloadLength : Word32 := 0
  tenantTag : Byte := 0xFF
  rsv24 : BitVec 24 := 0
  body : BitVec 384 := 0
  data : List Byte := []
  late : Bool := false
  readFails : Bool := false
  deriving DecidableEq, Repr

/-- What a configuration request asks of a function (R397, R399): its vendor, device and class; a new size of its BAR2, 2^log2 bytes;
or another register, which PCIe lays down. -/
inductive CfgReq where
  | identity
  | bar2Size (log2 : Nat)
  | other
  deriving DecidableEq, Repr

/-- Ports of a router (R284). An X port is named by what it attaches, since a router on an edge may carry several
attachments, each with an output arbiter of its own. -/
inductive Port where
  | north | south | east | west | locl | near | corner | die | drover
  deriving DecidableEq, Repr

/-- The router (x, y) has the port (R284). -/
def Port.at (i : Port) (x y : Nat) : Bool :=
  match i with
  | .north => decide (y < 23)
  | .south => decide (0 < y)
  | .east => decide (x < 15)
  | .west => decide (0 < x)
  | .locl => true
  | .near => x == 0 || x == 15
  | .corner => (x == 0 || x == 15) && (y == 0 || y == 23)
  | .die => y == 0 || y == 23
  | .drover => y == 0 && (x == 7 || x == 8)

/-- Where a packet of the mesh goes (R288). -/
inductive Dest where
  | core (x y : Nat)
  | near (p : Nat)
  | corner (k : Nat)
  | linkDie (b : Bool)
  | drover
  | group (g : Nat)       -- a multicast group of R292
  | tree (t : Nat)        -- a reduction tree of R293
  | foldUnit (f : Nat)    -- the Gleaner, walker or combining buffer of a Fold (R284)
  deriving DecidableEq, Repr

/-- What the code of a flit found (R287). -/
inductive FlitCheck where
  | good | headerCorrected | replayed | dataLasting | headerLasting
  deriving DecidableEq, Repr

/-- A packet on the mesh: header, virtual channel, data flits, error flag (R283). `unit` names the sender at an L port: 0 the
core, 1 to 3 the Gleaner, walker and combining buffer of the Fold (R284); `addr` is the physical address a request or DMA burst
goes to (R285). -/
structure Packet where
  id : Nat
  dest : Dest
  vc : BitVec 2
  dataFlits : Nat
  err : Bool := false
  req : Option Nat := none       -- the memory request it carries, if any
  seq : Word32 := 0              -- channel sequence number of a reduction block
  elems : List Int := []         -- the 32 elements of a reduction block
  poison : Bool := false
  unit : BitVec 2 := 0
  addr : Nat := 0
  deriving DecidableEq, Repr

/-- A packet the mesh carries: 0 to 8 data flits, at most one on VC0 (R283, R286); a reduction block has exactly one, and
trees and groups use VC0 or VC3 (R283, R292, R293). -/
def Packet.carried (k : Packet) : Bool :=
  decide (k.dataFlits ≤ 8) && (k.vc != 0 || decide (k.dataFlits ≤ 1)) &&
  match k.dest with
  | .tree _ => k.dataFlits == 1 && (k.vc == 0 || k.vc == 3)
  | .group _ => k.vc == 0 || k.vc == 3
  | _ => true

/-- A HELLO record (R357), with the key-agreement fragment kept apart. -/
structure HelloRec where
  serial : Word64
  link : BitVec 5
  peerSeen : Bool
  modid : Half := 0
  idv : Bool := false
  bmajor : Byte := 1
  bminor : Byte := 0
  gen : Byte := 4
  bwSerial : Word64 := 0
  bwHops : Byte := 0
  mapEpoch : Word64 := 0
  deriving DecidableEq, Repr

/-- The header of a Bilgor frame (R345) as the receiver sees it, with the results of its parity and
tag checks (R350), which depend on the lane and on keys. -/
structure FrameHdr where
  link : Nat
  fseq : BitVec 12 := 0
  vc : BitVec 2 := 0
  rv : Bool := false
  dest : BitVec 10 := 0
  chan : BitVec 12 := 0
  ack : BitVec 12 := 0
  cred : BitVec 3 := 0
  cseq : Word32 := 0
  parityOk : Bool := true
  tagOk : Bool := true
  deriving DecidableEq, Repr

/-- One entry of a fabric map or of a list of link groups (R360). -/
structure MapEntry where
  modid : Nat
  serial : Word64
  present : Bool
  deriving DecidableEq, Repr

/-- A link group as a list of link groups or a fabric map gives it (R355, R360): the serials of the two modules, the
plane, the link numbers within the owner's die, and the active lanes of each link, four bits a link. -/
structure LinkGroup where
  owner : Word64
  plane : Bool
  peer : Word64
  links : BitVec 16
  lanes : BitVec 64 := 0
  deriving DecidableEq, Repr

/-- A route-table entry (R363). -/
structure Route where
  next : BitVec 10 := 0
  valid : Bool := false
  locl : Bool := false
  links : BitVec 16 := 0
  hops : BitVec 6 := 0
  deriving DecidableEq, Repr

/-- The fields of a fabric channel entry that a setup fixes (R367). -/
structure ChanCfg where
  tenant : BitVec 6 := 0
  peer : BitVec 10 := 0
  peerChan : BitVec 12 := 0
  plane : Bool := false
  vc : BitVec 2 := 0
  sig : Bool := false
  dma : Bool := false
  gln : Bool := false
  red : Bool := false
  root : Bool := false
  mc : Bool := false
  mcback : Bool := false
  nfmt : BitVec 4 := 0
  wfmt : BitVec 4 := 0
  aexp : BitVec 10 := 0
  fanin : BitVec 24 := 0
  group : BitVec 6 := 0
  grpv : Bool := false
  deriving DecidableEq, Repr

/-- A port of the sideband: the two SMBus ports and PCIe DOE (R466, R511). -/
inductive SidePort where
  | smb0 | smb1 | doe
  deriving DecidableEq, Repr

end Sys2Proof
end

