-- ==== Sys2Proof/Config.lean ====
section
/-! DEFINITION. What one part fixes and what the spec leaves free. Every `opaque` constant has no body:
no proof can learn a value of it, so a claim about it holds for every value. -/

namespace Sys2Proof.Config

/-- The free values: draws of the module whose value the spec leaves open, read at `State.free`
(log entry 2). -/
opaque freeWord : Nat → BitVec 64

/-- The I32 element of a widening whose exact value lies outside int32: R58 states no result there
(log entry 15). -/
opaque widenOverflow : Int → BitVec 32

/-- SHA-384 (R441, R443, R465): an external standard, kept uninterpreted (log entry 5). -/
opaque sha384 : List Byte → BitVec 384

/-- The signature of the fused identity key, ECDSA P-384 (R454, R468): uninterpreted (log entry 5). -/
opaque identitySign : List Byte → BitVec 768

/-- The certificate chain in the serial flash (R465): per part. -/
opaque certChain : List Byte

/-- The module serial number, from the fuses (R357, R401). -/
opaque serialNo : BitVec 64

/-- The build number of the image in slot A and slot B as shipped (R401, R422). -/
opaque buildA : BitVec 32
opaque buildB : BitVec 32

/-- Kilsyn's manufacturer identity in IDCODE bits 11:1 (R512). -/
opaque jtagMaker : BitVec 11

/-- The largest SPDM message of a transport, in bytes; a response beyond it is fetched with CHUNK_GET (R466). -/
opaque spdmMessage : Nat

/-- The sensor that READ_TEMPERATURE_n reports, by sensor number of log entry 45 (R483 names none). -/
opaque pmbusTemp : Nat → Nat

/-- The fused VCORE set point in mV of a frequency in steps of 25 MHz (R494); R484 keeps it in 650 to 900. -/
opaque vcoreSet : Nat → Nat

/-- A segment of a program image (R72, R419): first virtual page and number of pages of 2 MiB, permission bits, tier as
MEM_MAP numbers them, first core for local stores, and its bytes. -/
structure ImageSeg where
  page : Nat
  pages : Nat
  perm : Nat
  tier : Nat
  core : Nat
  bytes : List Byte

/-- Loading of a program image (R419): its header names generation and segments. The image format is
Pyrler's and not in the spec, so what a whole image decodes to is uninterpreted: none where the
digest fails, else the generation and the segments. -/
opaque parseImage : List Byte → Option (Nat × List ImageSeg)

/-- Whether a firmware image carries a valid signature, whether it can read the handover record of
the running build, and its build number (R451). -/
opaque imageSigned : List Byte → Bool
opaque imageReadsHandover : List Byte → Bool
opaque imageBuild : List Byte → BitVec 32

/-- The 4 KiB blocks of Uango's Near frames that the page tables of a tenant stand in, by tenant, level and index (R260; log
entry 154). -/
opaque tableAt : Nat → Nat → Nat → Nat

/-- Where the step record, the scale-control records and the vote words stand in a job's step area, the number of vote
words, and where a tensor's OPT_HELD counter stands: the spec gives the area no layout (R198 to R201, R208; log entry 36). -/
opaque stepRecordOff : Nat
opaque scaleRecordsOff : Nat
opaque voteWordsOff : Nat
opaque voteWords : Nat
opaque optHeldOff : Nat → Nat

/-- The two buffers that a job's gathers are written into: virtual address and bytes, by JOB_UID and number (R391); the spec gives
them no place (log entry 171). -/
opaque gatherBuffer : BitVec 64 → Nat → Nat × Nat

/-- The cores and semaphores that the signal of R204 goes to, by JOB_UID: the spec names none (log entry 36). -/
opaque stepSignals : BitVec 64 → List (Nat × Nat)

/-- The regions that a program image marks persistent, those of R211 among them: address and bytes (R440, log entry 5). -/
opaque persistentRegions : BitVec 384 → List (Nat × Nat)

/-- What a buddy in another module holds for a rank: the manifest, none where it knows none, and the bytes of a segment
copy: by JOB_UID, epoch and rank, then region and segment (R442, R444, R446; log entry 37). -/
opaque buddyManifest : BitVec 64 → Nat → Nat → Option (List Byte)
opaque buddySegment : BitVec 64 → Nat → Nat → Nat → Nat → List Byte

/-- The payload of a request or an answer between two Gleaners: the spec gives the record no layout (R221, R246; log
entry 40). -/
opaque glnRecord : List Nat → List Byte

/-- A fabric-control record of Uango, kind first: the spec names its contents and gives them no layout (R360; log entry 188). -/
opaque fabRecord : List Nat → List Byte

/-- The 64 bytes that a key agreement gives a link: the key of the direction from the lower-serial end, then that of the reverse
direction (R463), as a function of the free value that stands for the secret (log entry 203). -/
opaque linkKeys : BitVec 64 → BitVec 512

/-- How the copy of fabric time in a clock domain stands to the count, by domain and count: modulo 41 its distance from 20 ns behind
(R317, log entry 204). -/
opaque copySkew : Nat → Nat → Nat

/-- AES-256-GCM of a frame under a link's key (R348): ciphertext and tag, from the key, the nonce, the associated data and the 240
bytes of the body (log entry 203). -/
opaque sealFrame : BitVec 256 → BitVec 96 → BitVec 41 → List Byte → List Byte

/-- Images as shipped: slot A and slot B of the serial flash, and the recovery ROM (R467). -/
opaque slotImage : Bool → List Byte
opaque romImage : List Byte

/-- Bytes of a record that Uango keeps in the Far tier, other than the fabric time: the spec gives none a size (log entry 158). -/
opaque farRecordBytes : Nat

/-- Where the optimizer descriptor of a tensor stands, from the start of the job's step area: the spec gives it no place (R206, log
entry 36). -/
opaque optDescOff : Nat → Nat

/-- How the configuration that measurement 0x04 covers is written down, and the DMTF measurement-block format: index,
raw or digest, value (R467, R468): external or unstated encodings, kept uninterpreted (log entry 5). -/
opaque droverConfig : List Nat → List Byte
opaque dmtfBlock : Nat → Bool → List Byte → List Byte

/-- The minor interface version this module speaks (R401: MINOR resets to 0). -/
def minor : Nat := 0

/-- Number of logical cores (R7). -/
def nCores : Nat := 352

/-- Bytes of one local store (R70). -/
def lsBytes : Nat := 655360

/-- First physical address of the Mid tier, the Far tier, the reserved hole, the local-store windows and
their end (R253). -/
def midBase : Nat := 0x08000000000
def farBase : Nat := 0x10000000000
def farEnd : Nat := 0x40000000000
def lsBase : Nat := 0xF0000000000
def lsEnd : Nat := 0xF0016000000

/-- Bytes of a 2 MiB page and of a 1 GiB page (R260). -/
def page2M : Nat := 0x200000
def page1G : Nat := 0x40000000

/-- The control space, and the first address past the local-store windows (R253). -/
def ctlBase : Nat := 0xFF000000000

end Sys2Proof.Config
end

