-- ==== Sys2Proof/Syntax.lean ====
section
/-! DEFINITION. The commands of the Irsum I4: one constructor per row of the table of operations and
events, in the table's order. An instruction of a core carries the issuing context (x); a mailbox command
carries its entry (e); an event carries what names its place and the outcome the spec leaves to the
surroundings. Each line cites the rule of the row. -/

namespace Sys2Proof

inductive Instr where
  | nop (x : Issue) -- R153
  | exit (x : Issue) -- R153
  | yield (x : Issue) -- R153
  | rsr (x : Issue) (d : Reg) (sys : BitVec 12) -- R154
  | add (x : Issue) (d a b : Reg) -- R156
  | addi (x : Issue) (d a : Reg) (imm : Word32) -- R156
  | sub (x : Issue) (d a b : Reg) -- R156
  | and (x : Issue) (d a b : Reg) -- R156
  | andi (x : Issue) (d a : Reg) (imm : Word32) -- R156
  | or (x : Issue) (d a b : Reg) -- R156
  | ori (x : Issue) (d a : Reg) (imm : Word32) -- R156
  | xor (x : Issue) (d a b : Reg) -- R156
  | xori (x : Issue) (d a : Reg) (imm : Word32) -- R156
  | shl (x : Issue) (d a b : Reg) -- R156
  | shli (x : Issue) (d a : Reg) (imm : Word32) -- R156
  | shr (x : Issue) (d a b : Reg) -- R156
  | shri (x : Issue) (d a : Reg) (imm : Word32) -- R156
  | shrl (x : Issue) (d a b : Reg) -- R156
  | shrli (x : Issue) (d a : Reg) (imm : Word32) -- R156
  | min (x : Issue) (d a b : Reg) -- R156
  | max (x : Issue) (d a b : Reg) -- R156
  | minu (x : Issue) (d a b : Reg) -- R156
  | maxu (x : Issue) (d a b : Reg) -- R156
  | mul (x : Issue) (d a b : Reg) -- R156
  | muli (x : Issue) (d a : Reg) (imm : Word32) -- R156
  | mulh (x : Issue) (d a b : Reg) -- R156
  | mulhu (x : Issue) (d a b : Reg) -- R156
  | div (x : Issue) (d a b : Reg) -- R155
  | divu (x : Issue) (d a b : Reg) -- R155
  | rem (x : Issue) (d a b : Reg) -- R155
  | remu (x : Issue) (d a b : Reg) -- R155
  | dividerResult (core : Nat) -- R148
  | sel (x : Issue) (d : Reg) (p : PredNo) (a b : Reg) -- R156
  | clz (x : Issue) (d a : Reg) -- R156
  | popc (x : Issue) (d a : Reg) -- R156
  | sext (x : Issue) (d a : Reg) (k : BitVec 6) -- R156
  | movk (x : Issue) (d a : Reg) (imm : Word32) -- R156
  | cmp (x : Issue) (pd : PredNo) (cond : BitVec 4) (a b : Reg) -- R158
  | cmpi (x : Issue) (pd : PredNo) (cond : BitVec 4) (a : Reg) (imm : Word32) -- R158
  | pand (x : Issue) (pd pa pb : PredNo) -- R158
  | por (x : Issue) (pd pa pb : PredNo) -- R158
  | pxor (x : Issue) (pd pa pb : PredNo) -- R158
  | pandn (x : Issue) (pd pa pb : PredNo) -- R158
  | pget (x : Issue) (d : Reg) (pa : PredNo) -- R158
  | pset (x : Issue) (pd : PredNo) (a : Reg) -- R158
  | br (x : Issue) (imm : Word32) -- R159
  | jal (x : Issue) (d : Reg) (imm : Word32) -- R159
  | jr (x : Issue) (a : Reg) -- R160
  | jalr (x : Issue) (d a : Reg) -- R159
  | dbnz (x : Issue) (a : Reg) (imm : Word32) -- R159
  | ld (x : Issue) (d a : Reg) (sz : BitVec 2) (imm : Word32) (out : PortOutcome) -- R161
  | ldu (x : Issue) (d a : Reg) (sz : BitVec 2) (imm : Word32) (out : PortOutcome) -- R161
  | st (x : Issue) (r a : Reg) (sz : BitVec 2) (imm : Word32) -- R161
  | lld (x : Issue) (d a : Reg) (sz : BitVec 2) (imm : Word32) (out : PortOutcome) -- R161
  | lldu (x : Issue) (d a : Reg) (sz : BitVec 2) (imm : Word32) (out : PortOutcome) -- R161
  | lst (x : Issue) (r a : Reg) (sz : BitVec 2) (imm : Word32) -- R161
  | pf (x : Issue) (a : Reg) (sz : BitVec 2) (imm : Word32) -- R162
  | tcfg (x : Issue) (td : TileNo) (gs : Reg) -- R89
  | trel (x : Issue) (td : TileNo) -- R106
  | tload (x : Issue) (td : TileNo) (ga : Reg) (r0 : BitVec 6) (c0 : BitVec 4) -- R99
  | tstore (x : Issue) (ts : TileNo) (ga : Reg) (r0 : BitVec 6) (c0 : BitVec 4) -- R99
  | tmma (x : Issue) (ts tw : TileNo) (ad : BankNo) (d0 : BitVec 6) (shape : BitVec 3) (t c ax : Bool) (gx : Reg) -- R109
  | vadd (x : Issue) (d a b : Reg) (w : Bool) -- R130
  | vsub (x : Issue) (d a b : Reg) (w : Bool) -- R130
  | vabs (x : Issue) (d a : Reg) -- R130
  | vneg (x : Issue) (d a : Reg) -- R130
  | vmin (x : Issue) (d a b : Reg) -- R130
  | vmax (x : Issue) (d a b : Reg) -- R130
  | vand (x : Issue) (d a b : Reg) -- R130
  | vor (x : Issue) (d a b : Reg) -- R130
  | vxor (x : Issue) (d a b : Reg) -- R130
  | vclz (x : Issue) (d a : Reg) -- R130
  | vshl (x : Issue) (d a : Reg) (cnt : CountSel) (w : Bool) -- R130
  | vshr (x : Issue) (d a : Reg) (cnt : CountSel) (rnd : BitVec 2) -- R130
  | vshrl (x : Issue) (d a : Reg) (cnt : CountSel) -- R130
  | vcmp (x : Issue) (d a b : Reg) (cond : BitVec 4) -- R130
  | vsel (x : Issue) (d m a b : Reg) -- R130
  | vmul (x : Issue) (d a b : Reg) (w : Bool) -- R130
  | vmulh (x : Issue) (d a b : Reg) -- R130
  | vmulsh (x : Issue) (d a b : Reg) (sh : BitVec 6) -- R130
  | vperm (x : Issue) (d a b : Reg) -- R130
  | vbcast (x : Issue) (d a : Reg) (lane : BitVec 6) -- R130
  | vmovv (x : Issue) (d gs : Reg) -- R130
  | vmovg (x : Issue) (d a : Reg) (lane : BitVec 6) -- R130
  | vredsum (x : Issue) (d a : Reg) -- R130
  | vredmax (x : Issue) (d a : Reg) -- R130
  | vredmin (x : Issue) (d a : Reg) -- R130
  | vtstp (x : Issue) (pd : PredNo) (a : Reg) -- R130
  | vtrd (x : Issue) (d : Reg) (ts : TileNo) (row : RowSel) (h : Bool) -- R131
  | vtsc (x : Issue) (d : Reg) (ts : TileNo) (row : RowSel) -- R131
  | vard (x : Issue) (d : Reg) (ad : BankNo) (row : RowSel) -- R131
  | vtwr (x : Issue) (td : TileNo) (row : RowSel) (vs : Reg) -- R131
  | vawr (x : Issue) (ad : BankNo) (row : RowSel) (vs : Reg) -- R131
  | vreq (x : Issue) (td : TileNo) (row : RowSel) (vs gq : Reg) (mode : BitVec 2) (gk gc gs : Reg) -- R132
  | areq (x : Issue) (td : TileNo) (r0t : BitVec 6) (ad : BankNo) (r0a : BitVec 6) (n : BitVec 7) (sq : Bool) (mode : BitVec 2) (gk gc gs : Reg) -- R133
  | vwid (x : Issue) (td : TileNo) (r0t : BitVec 6) (ts : TileNo) (r0s : BitVec 6) (n : BitVec 7) (gk : Reg) -- R134
  | vld (x : Issue) (d a : Reg) (imm : Word32) -- R130
  | vst (x : Issue) (r a : Reg) (imm : Word32) -- R130
  | vldL (x : Issue) (d a : Reg) (imm : Word32) -- R130
  | vstL (x : Issue) (r a : Reg) (imm : Word32) -- R130
  | vfn (x : Issue) (d a : Reg) (fn : BitVec 4) (fi : BitVec 6) (fo : BitVec 5) -- R137
  | vrng (x : Issue) (d gk gc gs : Reg) (h : BitVec 6) -- R136
  | sig (x : Issue) (ga : Reg) (sem : SemNo) (cnt : Byte) (rel : Bool) -- R167
  | wait (x : Issue) (sem : SemNo) -- R167
  | tryw (x : Issue) (pd : PredNo) (sem : SemNo) -- R167
  | fence (x : Issue) (mask : BitVec 4) -- R168
  | dsub (x : Issue) (gc gn : Reg) (se : Bool) (sem : SemNo) -- R169
  | gsub (x : Issue) (ga : Reg) (se : Bool) (sem : SemNo) -- R169
  | engineCommandAccept (core : Nat) -- R169
  | issueSwitch (core : Nat) -- R66
  | yieldTimerExpiry (core : Nat) -- R66
  | readResponseArrival (id : Nat) -- R67
  | writeResponseArrival (id : Nat) -- R309
  | tagFree (core : Nat) (write : Bool) -- R519
  | walkComplete (fold tenant : Nat) (va : Word64) (err : Option Cause) -- R76
  | translationInvalidate (id : Nat) (agent : Nat) -- R77
  | tloadRowArrival (id : Nat) -- R101
  | tstoreStart (core id : Nat) (out : PortOutcome) -- R101
  | vectorEntryStart (core : Nat) (out : PortOutcome) -- R127
  | vectorResultWrite (core id : Nat) -- R127
  | arrayPassStart (core : Nat) (out : PortOutcome) -- R116
  | stationaryLoadStart (core : Nat) (out : PortOutcome) -- R115
  | stationaryLoadEnd (core : Nat) -- R115
  | passCommitStart (core id : Nat) (out : PortOutcome) -- R121
  | passRetire (core id : Nat) -- R116
  | arrayRampDown (core : Nat) -- R124
  | signalArrival (core : Nat) (sem : SemNo) (picks : List Nat) -- R304
  | sigRelRelease (core id : Nat) -- R167
  | fenceRelease (core ctx : Nat) -- R168
  | taskStart (tenant handle ctx : Nat) -- R64
  | taskDoneCompare (core ctx : Nat) -- R319
  | faultCleanupComplete (core ctx : Nat) -- R83
  | pageResident (tenant : Nat) (va : Word64) -- R78
  | timeSliceBoundary (core : Nat) -- R395
  | contextSaveComplete (core ctx : Nat) -- R396
  | flitReceive (plane : Bool) (rx ry : Nat) (inp : Port) (pkt : Packet) (chk : FlitCheck) -- R287
  | arbitrationRound (plane : Bool) (rx ry : Nat) (outp : Port) -- R296
  | arbPreempt (plane : Bool) (rx ry : Nat) (outp : Port) -- R297
  | grantWatchdogBite (plane : Bool) (rx ry : Nat) (outp : Port) -- R298
  | outputResetEnd (plane : Bool) (rx ry : Nat) (outp : Port) -- R298
  | reductionBlockArrival (plane : Bool) (rx ry : Nat) (inp : Port) (pkt : Packet) -- R294
  | routerFailure (plane : Bool) (rx ry : Nat) -- R300
  | planeDrained (plane : Bool) -- R300
  | coreStatusProbe -- R431
  | coreProbeTimeout (core : Nat) -- R431
  | coreFailure (core : Nat) -- R433
  | fenceDrainComplete (core : Nat) -- R433
  | fallowSelfTestComplete (core : Nat) (pass : Bool) -- R433
  | memoryReadRequest (id : Nat) (out : PortOutcome) -- R277
  | memoryWriteRequest (id : Nat) (out : PortOutcome) -- R270
  | farWrite (id : Nat) (out : PortOutcome) -- R279
  | pageFault (tenant : Nat) (va : Word64) -- R266
  | pageInCopyComplete (tenant : Nat) (va : Word64) (err : Option Cause) -- R266
  | evictionStart (tenant : Nat) (mid : Bool) (stack : Nat) -- R267
  | evictionAcksReceived (tenant : Nat) (va : Word64) -- R267
  | evictionWritebackDone (tenant : Nat) (va : Word64) (err : Option Cause) -- R267
  | accClearTick -- R267
  | nearStackUnusable (stack : Nat) (why : StackEnd) -- R282
  | prefetchFill (id : Nat) -- R273
  | dmaDescriptorFetch (chan : Nat) (err : Option Cause) -- R324
  | dmaBurstIssue (engine : Nat) -- R320
  | dmaReadReturn (chan burst : Nat) (out : PortOutcome) -- R336
  | dmaWriteResponse (chan burst : Nat) (out : PortOutcome) -- R331
  | dmaFarCheckAnswer (chan : Nat) (cause : Option Cause) -- R330
  | dmaDescriptorComplete (chan : Nat) -- R331
  | dmaRecordWritten (chan : Nat) (err : Option Cause) -- R335
  | dmaLateWriteError (chan burst : Nat) (cause : Cause) -- R331
  | dmaPauseDrained (chan : Nat) -- R338
  | dmaAbortDrained (chan : Nat) -- R337
  | gleanerCommandStart (fold : Nat) (err : Option BadAccess) (soft : List SoftError) -- R213
  | blockFetchPredict (fold id : Nat) (err : Option BadAccess) (soft : List SoftError) -- R185
  | blockFetchResolve (fold id : Nat) (err : Option BadAccess) (soft : List SoftError) -- R186
  | lookup (fold id : Nat) (remote : List (Nat × List Byte)) (err : Option BadAccess) (soft : List SoftError) -- R220
  | scatter (fold id : Nat) (err : Option BadAccess) (soft : List SoftError) -- R229
  | sample (fold id : Nat) (remote : List (Nat × Nat × Nat × Bool × List Nat)) (err : Option BadAccess) (soft : List SoftError) -- R243
  | gleanerCompletion (fold id : Nat) (acked : Bool) -- R215
  | lookupRowRequest (fold tenant table version row chan : Nat) -- R221
  | sampleExpansionRequest (fold tenant : Nat) (key step : Word64) (stream hop : Nat) (weighted : Bool) (fan node first nlocal nnodes : Nat) (idw : Bool) (rowptrVa colVa cwVa : Word64) (chan : Nat) -- R246
  | scatterBlockAdd (fold tenant table row blk : Nat) (elems : List Int) (poison : Bool) -- R230
  | tableVersionFree (tenant table version : Nat) (others : Bool) -- R226
  | voteSumReceive (tenant job : Nat) (sum : List Int) (poison : BitVec 2) -- R200
  | stepClose (tenant job : Nat) -- R203
  | ploverRecompute (unread : BitVec 9) -- R25
  | epochIntervalExpiry (tenant job : Nat) (watch : Bool) -- R439
  | epochStart (tenant job : Nat) (boundary : Word64) -- R440
  | segmentReceive (jobUid epoch : Word64) (rank region seg : Nat) (bytes : List Byte) (digest : BitVec 384) -- R444
  | epochVerified (tenant job : Nat) (status : Byte) -- R444
  | moduleLossDetected (modid : Nat) -- R447
  | linkTrainComplete (link : Nat) (ok : Bool) (margins : List Nat) -- R353
  | linkAlignComplete (link : Nat) (lanes : BitVec 4) (inTime : Bool) -- R353
  | helloSendTick (link : Nat) -- R357
  | hello (link : Nat) (rcd : HelloRec) -- R357
  | linkRefusedRecheck (link : Nat) -- R358
  | keyxShare (link : Nat) (pointOk : Bool) -- R462
  | keyxCert (link : Nat) (chainOk : Bool) (serial : Word64) -- R462
  | keyxFinish (link : Nat) (sigOk : Bool) (switchPoint : Word64) -- R463
  | keyxTimeout (link : Nat) -- R353
  | fecLockLoss (link lane : Nat) -- R354
  | linkErrorWindowEnd (link : Nat) (uncorr : Nat) (serHigh : Bool) (corr : List Nat) -- R354, R382
  | retrainComplete (link : Nat) (ok : Bool) (margins : List Nat) -- R354
  | linkFailedRetry (link : Nat) -- R356
  | idleFrame (h : FrameHdr) -- R346
  | dataFrame (h : FrameHdr) (payload : List Byte) -- R350
  | xferWrite (h : FrameHdr) (bar : Bool) (len : Nat) (va : Word64) (first : Word32) -- R369
  | xferRead (h : FrameHdr) (bar : Bool) (len : Nat) (va : Word64) -- R369
  | xferDone (h : FrameHdr) (status : Byte) (doneb : Nat) -- R369
  | redFrame (h : FrameHdr) (elems : List Int) -- R371
  | redpFrame (h : FrameHdr) -- R371
  | sigFrame (h : FrameHdr) (core : Nat) (sem : SemNo) (cnt : Byte) -- R307
  | glnFrame (h : FrameHdr) (body : List Byte) -- R346
  | nak (h : FrameHdr) (e : BitVec 12) -- R350
  | fovReq (h : FrameHdr) (named : Nat) -- R355
  | fovAns (h : FrameHdr) (named : Nat) (e : BitVec 12) -- R355
  | nakResendTimer (link : Nat) -- R350
  | failoverLimit (link : Nat) -- R355
  | elect (h : FrameHdr) (serial : Word64) (hops : Nat) -- R359
  | map (h : FrameHdr) (epoch : Word64) (entries : List MapEntry) (groups : List LinkGroup) -- R360
  | join (h : FrameHdr) (serial : Word64) (stored : Option Nat) (groups : List LinkGroup) -- R361
  | routes (h : FrameHdr) (dieB : Bool) (version : Half) (table : List (Nat × Route)) -- R364
  | ready (h : FrameHdr) (src : Nat) (version : Half) -- R364
  | hold (h : FrameHdr) -- R364
  | drained (h : FrameHdr) (src : Nat) -- R364
  | commit (h : FrameHdr) (version : Half) -- R364
  | csetup (h : FrameHdr) (src : Nat) (srcChan : Nat) (tag : Word32) (cfg : ChanCfg) (faninLocal : Nat) (jobUid : Word64) -- R366
  | cinstall (h : FrameHdr) (chan : Nat) (cfg : ChanCfg) (rootMod rootChan : Nat) (inMask : BitVec 17) (outLinks : BitVec 17) -- R366
  | cend (h : FrameHdr) (chan : Nat) (reason : Byte) -- R375
  | lost (h : FrameHdr) (chan : Nat) -- R360
  | time (h : FrameHdr) (answer : Bool) (t1 t2 t3 t4 : Word64) -- R376
  | bellwetherSettle -- R359
  | routeTableFree (dieB : Bool) -- R364
  | frameAgeDiscard (dieB : Bool) (chan : Nat) -- R365
  | channelSetupWindowEnd (chan : Nat) -- R366
  | channelIdRelease (chan : Nat) -- R375
  | timeSyncTick (root : Nat) -- R376
  | ppsEdge -- R377
  | ppsLoss -- R377
  | rekeyTrigger (link : Nat) -- R464
  | governorSample (watts : Nat) (atRisk : Bool) -- R487
  | droopEvent (band : Nat) -- R491
  | clockStretchEnd (band : Nat) -- R491
  | thermalReading (temps : List Int) -- R495
  | cclkChange (band units : Nat) -- R494
  | pllRelockComplete (band : Nat) -- R494
  | vinGood (pwrSel : BitVec 2) (slotId : BitVec 3) -- R485
  | vinLow -- R489
  | vinUndervolt -- R489
  | vinOvervolt -- R489
  | vinRestored -- R489
  | aonWatchdogExpiry -- R498
  | moduleReset -- R498
  | farControllerReady -- R500
  | memoryTrainingComplete (stackFail : BitVec 8) (midOk farOk : Bool) (selfTestFail : List Nat) -- R500
  | bootComplete -- R500
  | perstAssert -- R498
  | perstDeassert -- R499
  | hotReset -- R498
  | pcieLinkDown -- R498
  | functionLevelReset (fn : Nat) -- R400
  | vfEnable (num : Nat) -- R499
  | vfDisable -- R426
  | configurationRequest (fn : Nat) (req : CfgReq) -- R399
  | crsTimeout -- R399
  | cmdPi (fn : Nat) (n : Half) -- R402
  | rspCi (fn : Nat) (n : Half) -- R402
  | evtCi (fn : Nat) (n : Half) -- R402
  | ringEnable (fn : Nat) -- R402
  | ringDisable (fn : Nat) -- R402
  | intMask (fn : Nat) (v : Word64) -- R403
  | restartUango (fn : Nat) (v : Word64) -- R401
  | switchSlot (fn : Nat) (v : Word64) -- R401
  | registerWrite (fn off : Nat) (v : Word64) -- R8
  | bar2Read (fn off len : Nat) (out : PortOutcome) -- R404
  | bar2Write (fn off : Nat) (bytes : List Byte) -- R404
  | responseRingSpace (fn : Nat) -- R402
  | helloCommand (e : Entry) -- R411
  | bye (e : Entry) -- R412
  | ping (e : Entry) -- R414
  | tenantConfig (e : Entry) -- R415
  | tenantQuery (e : Entry) -- R415
  | tenantEnd (e : Entry) -- R426
  | coreBind (e : Entry) -- R415
  | coreUnbind (e : Entry) -- R415
  | ctxOpen (e : Entry) -- R415
  | ctxResume (e : Entry) -- R427
  | ctxFlush (e : Entry) -- R415
  | ctxKill (e : Entry) -- R415
  | ctxClose (e : Entry) -- R415
  | ctxQuery (e : Entry) -- R415
  | ctxSignal (e : Entry) -- R415
  | jobCreate (e : Entry) -- R417
  | jobScale (e : Entry) -- R198
  | jobOpt (e : Entry) -- R206
  | jobMask (e : Entry) -- R209
  | jobStart (e : Entry) -- R384
  | jobStop (e : Entry) -- R417
  | jobQuery (e : Entry) -- R417
  | jobDestroy (e : Entry) -- R417
  | taskSubmit (e : Entry) -- R416
  | memMap (e : Entry) -- R418
  | memUnmap (e : Entry) -- R418
  | memPin (e : Entry) -- R264
  | memUnpin (e : Entry) -- R418
  | memWrite (e : Entry) -- R418
  | memRead (e : Entry) -- R418
  | apertureMap (e : Entry) -- R404
  | apertureUnmap (e : Entry) -- R418
  | memQuery (e : Entry) -- R418
  | distMap (e : Entry) -- R290
  | progLoad (e : Entry) -- R419
  | progUnload (e : Entry) -- R419
  | weightLoad (e : Entry) -- R419
  | tableCreate (e : Entry) -- R217
  | tableInstall (e : Entry) -- R227
  | tableCommit (e : Entry) -- R225
  | tableDestroy (e : Entry) -- R419
  | chanSetup (e : Entry) -- R366
  | chanJoin (e : Entry) -- R366
  | chanGroup (e : Entry) -- R366
  | chanTeardown (e : Entry) -- R375
  | chanQuery (e : Entry) -- R420
  | dmaAllot (e : Entry) -- R321
  | dmaRelease (e : Entry) -- R321
  | dmaPause (e : Entry) -- R338
  | dmaResume (e : Entry) -- R338
  | dmaAbort (e : Entry) -- R337
  | dmaReset (e : Entry) -- R336
  | dmaSubmit (e : Entry) -- R323
  | dmaStatus (e : Entry) -- R420
  | ckptConfig (e : Entry) -- R421
  | ckptSecure (e : Entry) -- R421
  | ckptList (e : Entry) -- R421
  | ckptRestore (e : Entry) -- R446
  | ckptDelete (e : Entry) -- R421
  | attestGet (e : Entry) -- R468
  | keyRotateMemory (e : Entry) -- R460
  | keyRotateLink (e : Entry) -- R464
  | keyRotationSector (frame : Nat) (out : PortOutcome) -- R460
  | telemRead (e : Entry) -- R478
  | telemRate (e : Entry) -- R482
  | coreMap (e : Entry) -- R422
  | ploverSet (e : Entry) -- R26
  | timeSet (e : Entry) -- R378
  | fwStage (e : Entry) -- R451
  | fwActivate (e : Entry) -- R451
  | fwQuery (e : Entry) -- R422
  | linkDisable (e : Entry) -- R353
  | linkEnable (e : Entry) -- R353
  | linkRetrain (e : Entry) -- R353
  | modEvacuate (e : Entry) -- R448
  | vendorDiagnostic (e : Entry) (opcode : Half) -- R423
  | lockstepMismatch -- R450
  | uangoRestartComplete (sigOk : Bool) -- R450
  | fwSwitchTimeout -- R451
  | drbgHealthFail -- R452
  | entropyRetest (pass : Bool) -- R452
  | scrubStart (tenant : Nat) -- R472
  | scrubHoldEnd (tenant : Nat) -- R473
  | telemetryWindowClose -- R479
  | powerWindowClose (energyJ watts : Nat) (sensors : List Int) -- R480
  | fabricTimeStore -- R500
  | getVersion (port : SidePort) -- R466
  | getCapabilities (port : SidePort) (ver : Byte) -- R466
  | negotiateAlgorithms (port : SidePort) (ecdsaP384 sha384 secp384r1 aes256gcm : Bool) -- R466
  | getDigests (port : SidePort) -- R466
  | getCertificate (port : SidePort) (slot offset length : Nat) -- R466
  | challenge (port : SidePort) (slot : Nat) (nonce : BitVec 256) -- R466
  | getMeasurements (port : SidePort) (index : Byte) (nonce : BitVec 256) -- R467
  | chunkGet (port : SidePort) (handle : Nat) (chunk : Nat) -- R466
  | keyExchange (port : SidePort) (pointOk : Bool) -- R466
  | finish (port : SidePort) (macOk : Bool) (authorised : Bool) -- R466
  | endSession (port : SidePort) -- R466
  | setEndpointId (portB : Bool) (eid : Byte) -- R511
  | pldmSensorRead (portB : Bool) (sensor : Nat) -- R483
  | readVin (portB : Bool) -- R483
  | readIin (portB : Bool) -- R483
  | readPout (portB : Bool) -- R483
  | readTemperature (portB : Bool) (n : Nat) -- R483
  | statusWord (portB : Bool) -- R483
  | bypass -- R512
  | idcode -- R512
  | samplePreload -- R512
  | extest -- R512
  | clamp -- R512
  | highz -- R512
  | reservedEncoding (x : Issue) (word : Word64) -- R145
  | undefinedOpcode (e : Entry) (opcode : Half) -- R407
  | reservedFrameType (h : FrameHdr) (type : BitVec 4) -- R346
  | finalResponse (fn : Nat) (seq : Half) -- R408
  | fwSwitched -- R451
  | railsInTolerance (group : Nat) -- R485
  | uangoStarted (pufOk sigA sigB : Bool) -- R502
  | farRelocation (bytes : Nat) (spareUsed : Bool) -- R280
  | pcieLinkUp (gen width : Nat) -- R499
  | pldmEventRead (portB : Bool) -- R511
  deriving DecidableEq, Repr

end Sys2Proof
end

