-- ==== Sys2Proof/Machine/State.lean ====
section
/-! DEFINITION. The state of the module as plain data, the reasons a command can stop, and the state
right after a power-on reset, before VIN good (R498, R500). Sparse tables leave out what stands at its
reset value. INVENTORY.md lists every element with its rule. -/

namespace Sys2Proof.Machine
open Sys2Proof

/-! ## One core (03 to 06) -/

/-- CTX_STATUS.STATE (R64). -/
inductive CtxState where
  | free | ready | running | waitMem | waitPage | waitTag | waitSem | waitTcfg | waitUnit | done | faulted
  deriving DecidableEq, Repr

/-- What a descheduled context waits for (R67, R105, R106, R148, R149, R168). -/
inductive Wait where
  | none
  | requests                      -- the outstanding read of a load at PC
  | fetch                         -- the read of an instruction-cache line
  | walk (va : Nat) (acc : Nat)   -- a Fold walk; acc 0 read, 1 write, 2 instruction fetch
  | walkTile (va : Nat) (acc : Nat)   -- a Fold walk for a tload or tstore, which issues again after it (R102)
  | page (va : Nat)               -- a page that is not resident
  | rows (va : Nat)               -- its page has come in, and its rows before SROW are still being moved (R102)
  | tag (write : Bool)
  | sem (s : Nat)
  | tileLoad (t : Nat)            -- a tload of t in flight, at a read of t
  | tileWrite (t : Nat)           -- a queued vector write of t, at a tmma that tests its squares (log entry 13)
  | tileAny (t : Nat)             -- any instruction in flight that names t, at tcfg or trel
  | arrayQueue | vectorQueue | engineQueue | moveUnit | divider
  | reg (r : Nat) | pred (p : Nat)
  | vreg (v : Nat)                -- the source of a vst whose address does not translate (log entry 147)
  | bankStatus (b : Nat)
  | fence (mask : Nat)
  | exit
  deriving DecidableEq, Repr

/-- A copied task descriptor (R416) with the arguments of TASK_SUBMIT. -/
structure TaskDesc where
  entry : Word64 := 0
  res0 : Word64 := 0
  res1 : Word64 := 0
  progId : Nat := 0
  job : Half := 0xFFFF
  tileCfg : Tab (BitVec 32) := []
  chans : List Nat := []
  args : List Word64 := []
  ticket : Nat := 0
  deriving DecidableEq, Repr

/-- What Uango records at task start (R318): semaphore counts and overflow, tile configurations and the
channels, each with the open state of its source. -/
structure TaskRecord where
  sems : Tab (Nat × Bool) := []
  tiles : Tab (BitVec 32) := []
  chans : Tab ChanCfg := []          -- the channels that the descriptor names, as they were set up
  deriving DecidableEq, Repr

/-- A task on a hardware context: tenant, handle, the copied descriptor and the start record. -/
structure TaskRun where
  tenant : Nat
  handle : Nat
  desc : TaskDesc
  record : TaskRecord := {}
  startedAt : Nat := 0       -- fabric time of the start or the last restore (R395)
  issuedAt : Nat := 0        -- CC_RUN at the start or the last restore (R395)
  pin : Option Nat := none   -- the gather buffer whose snapshot an evaluation task reads (R31, R391)
  killed : Option Nat := none   -- ended by KILL: no CTX_FAULT, but TASK_CANCELLED with this reason (R415)
  deriving DecidableEq, Repr

/-- Accumulator status word (R49). -/
structure BankStatus where
  aexp : BitVec 10 := 0
  aexpSet : Bool := false
  ovfl : Bool := false
  psni : Bool := false
  deriving DecidableEq, Repr

/-- One accumulator bank: elements by row × 64 + column, zero where absent (R48, R49). -/
structure Bank where
  elems : Tab Int := []
  status : BankStatus := {}
  deriving DecidableEq, Repr

/-- One tile (R86, R87, R92): configuration, row validity, data bytes and strip bytes. -/
structure Tile where
  cfg : BitVec 32 := 0
  rowv : Word64 := 0
  data : List Host.Cell := []
  strip : List Host.Cell := []
  deriving DecidableEq, Repr

/-- One vector register (R126): lanes by number, zero where absent, and VPSN. -/
structure VReg where
  lanes : Tab Word32 := []
  psn : BitVec 4 := 0
  deriving DecidableEq, Repr

/-- One semaphore (R303). -/
structure Sem where
  count : Nat := 0
  ovf : Bool := false
  deriving DecidableEq, Repr

/-- The operations of the vector queue (R130 to R137). -/
inductive VOp where
  | add | sub | abs | neg | min | max | and | or | xor | clz | shl | shr | shrl | cmp | sel
  | mul | mulh | mulsh | perm | bcast | movv | movg | redsum | redmax | redmin | tstp
  | trd | tsc | ard | twr | awr | req | areq | wid | ldl | stl | ld | st | fn | rng
  deriving DecidableEq, Repr

/-- An entry of the vector queue. The vector, tile and bank sources are named and read at the start; the
values of general registers are taken at issue (log entry 8). -/
structure VEntry where
  id : Nat
  ctx : Nat
  order : Nat
  pc : Word64
  op : VOp
  d : Nat := 0
  a : Nat := 0
  b : Nat := 0
  c : Nat := 0
  imm : Nat := 0        -- K, COND, rounding, mode or function code, per operation
  imm2 : Nat := 0
  imm3 : Nat := 0
  w : Bool := false
  useLanes : Bool := false
  sq : Bool := false
  own : Bool := false   -- a vld or vst that lands in the core's own window (R72)
  row : Nat := 0        -- row number after its bounds check
  n : Nat := 0
  s0 : Word64 := 0      -- gq, gk for S, gs or the address
  s1 : Word64 := 0      -- gk, or the address of a vld or vst that lands in the core's own window
  s2 : Word64 := 0      -- gc
  s3 : Word64 := 0      -- gs
  deriving DecidableEq, Repr

/-- rsr of a tile word that waits behind a vector write (R105, R149). -/
structure HeldRsr where
  ctx : Nat
  d : Nat
  sys : Nat
  order : Nat
  deriving DecidableEq, Repr

/-- What a started vector entry will write at its latency (R127). -/
inductive VResult where
  | nothing
  | vreg (d : Nat) (lanes : List Word32) (psn : BitVec 4)
  | greg (d : Nat) (v : Word64)
  | pred (p : Nat) (v : Bool)
  | tileRows (t : Nat) (rows : List (Nat × List Byte × List Byte))   -- row, data, scale bytes
  | bankRow (b row : Nat) (lanes : List Int) (psni : Bool)
  | localStore (off : Nat) (bytes : List Byte)
  deriving DecidableEq, Repr

structure VStarted where
  entry : VEntry
  result : VResult
  overflow : Bool := false
  deriving DecidableEq, Repr

/-- The life of a pass (R116, R120, R121). -/
inductive PassStage where
  | queued | started | committing
  deriving DecidableEq, Repr

/-- A pass of the array queue (R109, R110, R112). -/
structure Pass where
  id : Nat
  ctx : Nat
  order : Nat
  pc : Word64
  ts : Nat
  tw : Nat
  ad : Nat
  d0 : Nat
  shape : Nat
  t : Bool
  c : Bool
  ax : Bool
  q : BitVec 10
  rows : Nat
  stage : PassStage := .queued
  setB : Bool := false
  hit : Bool := false
  counted : Bool := false                -- hit or miss decided
  sums : Tab Int := []                   -- bank × 4096 + row × 64 + column: exact sum of contributions
  qs : Tab Int := []                     -- reference exponent per destination bank
  clears : List Nat := []                -- banks the pass clears
  ovfls : List Nat := []                 -- banks whose OVFL the commit set
  psnis : List Nat := []                 -- banks whose PSNI the pass sets
  deriving DecidableEq, Repr

/-- One hardware context (R64, R476). -/
structure Ctx where
  st : CtxState := .free
  wait : Wait := .none
  regs : Tab Word64 := []
  preds : Byte := 0
  pc : Word64 := 0
  srow : BitVec 6 := 0
  cause : Option Cause := none
  imprecise : Bool := false
  multi : Bool := false
  tenant : BitVec 6 := 0
  taskSeq : Half := 0
  res0 : Word64 := 0
  res1 : Word64 := 0
  faultPc : Word64 := 0
  faultAddr : Word64 := 0
  pageAt : Nat := 0             -- fabric time at which it entered WAIT_PAGE (PG_WAIT_NS)
  yieldTimer : Nat := 0
  counters : Tab Nat := []
  pendRegs : List Nat := []     -- general registers a queued instruction will write (R149)
  pendPreds : List Nat := []
  granted : List Bool := []     -- tags TAG_FREE has given the context (R519)
  absent : Option Nat := none   -- page that a walk of its tload or tstore found not resident (R102)
  resume : Bool := false        -- the tload or tstore at PC continues from SROW (R78, R102)
  backP : List Pass := []       -- passes of a restored task that have not entered the array queue again (R112, R120)
  backV : List VEntry := []     -- its vector entries that have not entered the vector queue again
  order : Nat := 0              -- instructions issued, for program order
  task : Option TaskRun := none
  deriving DecidableEq, Repr

/-- The tag of a stationary set (R113). -/
structure SetTag where
  ctx : Nat
  tw : Nat
  t : Bool
  shape : Nat
  deriving DecidableEq, Repr

/-- A stationary set (R108, R113): its tag, the contents as the tile bytes and scale bytes loaded, and
whether a load is writing it (R115). -/
structure StatSet where
  tag : Option SetTag := none
  data : List Host.Cell := []
  strip : List Host.Cell := []
  words : Nat := 0
  loading : Bool := false
  deriving DecidableEq, Repr

/-- One request of a tload or tstore: the physical runs, the tile rows it carries, or the scale bytes. -/
structure MovePart where
  segs : List (Nat × Nat)
  va : Word64 := 0
  first : Nat := 0
  count : Nat := 0
  scale : Bool := false
  data : List Byte := []         -- what a tstore has read for it
  deriving DecidableEq, Repr

/-- A tload or tstore in the tile-move unit (R100, R101): rows `first` to `upto − 1` of the tile. -/
structure Move where
  id : Nat
  ctx : Nat
  order : Nat
  pc : Word64
  load : Bool
  tile : Nat
  first : Nat            -- first tile row of this part (SROW at issue)
  upto : Nat             -- one past the last tile row of this part
  whole : Bool := true           -- the part ends the instruction
  plan : List MovePart := []     -- requests that have not left the unit (R519)
  read : Bool := false           -- a tstore that has read its rows
  open_ : List Nat := []         -- requests of a tload that have left and are not yet moved
  deriving DecidableEq, Repr

/-- A signal in flight to a core of the module (R304, R308): its target, and the core and context that sent it, none for
Uango and the engines. -/
structure Sig where
  core : Nat
  sem : Nat
  cnt : Nat
  src : Option (Nat × Nat) := none
  deriving DecidableEq, Repr

/-- An engine command in the core's queue (R169). -/
structure EngCmd where
  ctx : Nat
  order : Nat
  gleaner : Bool
  chan : Nat := 0
  pi : Half := 0
  va : Word64 := 0
  se : Bool := false
  sem : Nat := 0
  tenant : Nat := 0
  deriving DecidableEq, Repr

/-- A sig.rel that has not left (R167). -/
structure HeldSig where
  id : Nat
  ctx : Nat
  order : Nat
  target : Word64
  sem : Nat
  cnt : Nat
  rel : Bool := true     -- a plain sig that follows a held one on the same path (R308)
  deriving DecidableEq, Repr

/-- A divide in the divider (R148). -/
structure Divide where
  ctx : Nat
  d : Nat
  value : Word64
  deriving DecidableEq, Repr

/-- An entry of the translation cache (R75), in order of use, newest first. -/
structure TlbEntry where
  tenant : Nat
  big : Bool
  vpn : Nat
  addr : Nat
  r : Bool
  w : Bool
  x : Bool
  dirtyOk : Bool
  deriving DecidableEq, Repr

/-- A line of the prefetch buffer (R273), newest use first. -/
structure PfLine where
  blk : Nat
  tenant : Nat
  valid : Half := 0
  await : List (Nat × Half) := []   -- requests still to fill it, and the bytes each is the newest to fetch
  awaitMask : Half := 0
  data : List Host.Cell := []
  used : Bool := false
  deriving DecidableEq, Repr

/-- A line of the instruction cache (R151): the 64-byte block of virtual addresses it holds, and the bytes as they stood
when it was filled (log entry 148). -/
structure ILine where
  blk : Nat
  data : List Byte
  deriving DecidableEq, Repr

/-- A row of the operand cache or a reuse latch (R97): tile and row. -/
abbrev OpcRow := Nat × Nat

/-- A saved task (R65, R396). -/
structure Saved where
  task : TaskRun
  ctx : Ctx
  tiles : Tab Tile
  banks : Tab Bank
  vregs : Tab VReg
  sems : Tab (Nat × Bool) := []     -- counts and overflow flags at the save, for checkpoints (R65, R396)
  passes : List Pass
  entries : List VEntry := []       -- vector entries that waited behind them, to be queued again with them (R120)
  rsrs : List HeldRsr := []
  deriving DecidableEq, Repr

/-- The steps of R433. -/
inductive FillStage where
  | queued | draining | testing (x y : Nat)
  deriving DecidableEq, Repr

/-- One logical core. -/
structure Core where
  ctxs : Tab Ctx := []
  tenant : Option Nat := none       -- the tenant the core is bound to (R62)
  scrubbed : Bool := false          -- scrubbed since the bind
  running : Option Nat := none      -- the context that has the issue slot
  lastRun : Nat := 7                -- the context that ran last (R66)
  tiles : Tab Tile := []
  banks : Tab Bank := []
  vregs : Tab VReg := []
  sems : Tab Sem := []
  sets : Tab StatSet := []          -- 0 set A, 1 set B
  lastMap : Option (Bool × Nat) := none   -- set and shape of the preceding pass (R114, R117)
  arrIdle : Nat := 0                -- idle CCLK cycles of the array (R124)
  arrLeft : Nat := 0                -- CCLK cycles for which a streaming operand is still in some cell (R108, R116)
  colsOff : Nat := 0                -- columns disabled by the ramp-down (R124)
  aq : List Pass := []
  vq : List VEntry := []
  vrun : List VStarted := []
  moves : List Move := []
  eq : List EngCmd := []
  engOpen : List (Nat × Nat × Nat) := []   -- engine commands accepted and not complete: ctx, order, ref
  held : List HeldSig := []
  divide : Option Divide := none
  rsrq : List HeldRsr := []
  icache : List ILine := []         -- newest use first (R151)
  tlb : List TlbEntry := []
  opc : List OpcRow := []           -- 4 rows, newest first
  latches : Tab OpcRow := []        -- the last row of the streaming port (0) and of the vector port (1)
  pf : List PfLine := []
  counters : Tab Nat := []          -- core counters by SYS number (R477)
  readTags : Nat := 0               -- tags in use (R67)
  writeTags : Nat := 0
  tagQueue : List (Nat × Bool) := []   -- waiting requesters in order: ctx, or 8 for the move unit; write
  saved : List Saved := []
  saving : List (Nat × Nat) := []   -- context chosen for a save, position of its waiting task
  waiting : List (Nat × Nat × Nat) := []    -- tasks that wait to start: tenant, handle, arrival time
  resetAt : Nat := 0                -- eighths of a cycle of the band at the last core reset (CYCLES)
  lasting : List Nat := []          -- fabric times of lasting errors of the last hour (R431)
  probed : Bool := false            -- a status probe has no answer yet (R431)
  fenced : Bool := false
  fill : Option FillStage := none
  deriving DecidableEq, Repr

/-! ## Memory (12) -/

/-- Who made a memory request, and what the answer is for. -/
inductive Requester where
  | scalarLoad (d size : Nat) (signed : Bool)
  | vectorLoad (d entry : Nat)
  | fetch
  | tileRows (move first count : Nat)
  | tileScales (move first count : Nat)
  | prefetch (blk : Nat)
  | store
  | vectorStore (entry : Nat)
  | tileStore (move : Nat)
  | host                    -- Uango for the host, and BAR2
  deriving DecidableEq, Repr

inductive ReqState where
  | waiting                  -- sent to its port, not served
  | held                     -- waits for a tag in the tile-move unit
  | done (bytes : List Byte)
  | failed (c : Cause)
  deriving DecidableEq, Repr

/-- A memory request in flight. `segs` lists the physical runs it covers. -/
structure MemReq where
  id : Nat
  core : Nat
  ctx : Nat
  order : Nat
  who : Requester
  write : Bool
  segs : List (Nat × Nat)
  wdata : List Byte := []
  va : Word64 := 0
  tenant : Nat := 0
  tagged : Bool := true
  dead : Bool := false        -- its context faulted: the answer is discarded (R83)
  st : ReqState := .waiting
  deriving DecidableEq, Repr

/-- The key entry and the condition of a 2 MiB frame (R278, R458). -/
structure Frame where
  keyTag : Byte := 0xFF
  gen : Bool := false
  rot : Bool := false
  cursor : BitVec 12 := 0
  recorded : Bool := false
  retired : Bool := false
  deriving DecidableEq, Repr

/-- A leaf of a tenant's page tables: the entry word of R261, and what Uango keeps beside it. -/
structure Leaf where
  pte : Word64 := 0
  place : Nat := 0                    -- 0 SPREAD, 1 to 8 STACK 0 to 7 (R265)
  backing : Option Nat := none        -- Far frame of the backing copy
  backWritten : Bool := false         -- the backing copy has been written (R266)
  written : Bool := false             -- DIRTY was set since the last epoch's read, and a write-back cleared it (R440)
  inAge : Nat := 0                    -- order of its page-in (R267)
  dist : Bool := false                -- the distance table (R290)
  deriving DecidableEq, Repr

/-- A page-in or an eviction in progress (R266 to R268). -/
inductive PageWork where
  | queued                                 -- waits in order of first fault
  | copying (frame : Nat)
  | evicting (frame : Nat)                 -- step 1: waits for the acknowledgements
  | writing (frame : Nat)                  -- step 2: the write-back runs
  deriving DecidableEq, Repr

structure PageJob where
  tenant : Nat
  va : Nat
  work : PageWork
  invId : Nat := 0
  since : Nat := 0                         -- fabric time of the fault (PG_WAIT_NS)
  deriving DecidableEq, Repr

/-- An invalidation sent under R77: the agents that have not acknowledged. Agents: 0 to 351 cores,
1000 + f the Fold walkers, 2000 + e the DMA engines. -/
structure Inval where
  id : Nat
  tenant : Nat
  va : Nat
  len : Nat
  pa : Nat
  left : List Nat
  frames : List Nat := []                  -- frames that become free with the last acknowledgement
  cmd : Nat := 0                           -- the command that waits for it, 0 none
  deriving DecidableEq, Repr

/-- A walk in a Fold's page-table walker (R75): 2 MiB page and whether the first write waits (R262). -/
structure Walk where
  tenant : Nat
  page : Nat
  big : Bool := false              -- of a 1 GiB page: every access inside it takes the answer
  deriving DecidableEq, Repr

/-! ## Engines (08, 10, 11, 15) -/

/-- A Gleaner command (R212): the command bytes read at its start, and what it has found. -/
structure GCmd where
  id : Nat
  tenant : Nat
  core : Nat
  ctx : Nat
  order : Nat
  va : Word64
  se : Bool
  sem : Nat
  started : Bool := false
  bytes : List Byte := []
  status : Option (Option Cause) := none   -- none: running; some none: success
  faultAddr : Word64 := 0
  version : Half := 0
  counts : List Nat := []                  -- COUNT0 to COUNT4
  adds : List (Nat × Nat) := []            -- counter index and increment, applied at completion
  pin : Option (Nat × Nat) := none         -- table and version pinned by a LOOKUP
  aexp : Int := 0                          -- the exponent A a SCATTER took at its start (R229)
  asked : List (Nat × Nat) := []           -- remote requests sent: hop (0 for a row) and row or node
  blocks : List (Nat × Nat × Nat × List Int × Bool) := []  -- scattered blocks not yet acknowledged
  deriving DecidableEq, Repr

/-- One Fold: its walker and its Gleaner (R18, R75, R213). -/
structure Fold where
  walks : List Walk := []
  roots : Tab Nat := []            -- root address of each tenant's page tables (R260)
  cmds : List GCmd := []
  counters : Tab Nat := []         -- tenant × 64 + index
  deriving DecidableEq, Repr

/-- A version of an embedding table as its owner holds it (R225 to R227). -/
structure TableVersion where
  version : Nat
  nrows : Nat := 0
  bases : Tab Nat := []            -- shard -> base address
  deriving DecidableEq, Repr

/-- An embedding table (R217). -/
structure Table where
  fmt : Nat
  np : Nat                         -- panels per row
  train : Bool
  nrows : Nat
  schan : Nat
  shards : List (Nat × Nat × Nat × Nat)    -- first row, module, fold, base
  versions : List TableVersion := []
  current : Nat := 0
  grad : Tab Int := []                     -- owner's gradient region: row × 4096 + element
  poison : Tab Bool := []                  -- per-row poison bitmap: row × 128 + block
  touched : Tab (List Nat) := []           -- shard -> local indices, in order of first arrival
  doomed : Bool := false                   -- TABLE_DESTROY waits for the last pin
  served : Tab Nat := []                   -- rows served and blocks added per shard in this window (R233)
  closing : List (Tab Nat) := []           -- the same of windows that have ended and are not yet reported, oldest first
  busiest : List (Nat × Nat × Nat × Nat) := []   -- window, shard, count, mean
  deriving DecidableEq, Repr

/-- DMA_STATE.STATE (R322). -/
inductive DmaSt where
  | idle | run | starved | pausing | paused | stopped
  deriving DecidableEq, Repr

/-- A burst of a descriptor (R326, R336). -/
inductive BurstSt where
  | reading | writing | performed | failed (c : Cause)
  deriving DecidableEq, Repr

structure Burst where
  idx : Nat                         -- its number, unique in the module
  off : Nat                         -- source bytes before it, page gaps not counted
  len : Nat
  bytes : List Byte := []           -- source bytes once read
  st : BurstSt := .reading
  rport : Nat := 13                 -- the port its read stands at (R272)
  wport : Nat := 13                 -- the port its write stands at
  addr : Nat := 0                   -- the virtual address at which it failed (R333)
  deriving DecidableEq, Repr

/-- A descriptor being carried out, or complete and waiting for its record (R331, R335). -/
structure DmaCur where
  index : Half
  word : BitVec 512
  issued : Nat := 0                 -- source bytes whose bursts have been issued
  first : Word32 := 0               -- CSEQ of its first DATA frame (R369)
  sent : Nat := 0                   -- bytes of its stream that its fabric channel has taken, in order (R369, R371)
  bursts : List Burst := []
  checked : Bool := true            -- the far checks, if any, have been answered (R330)
  status : Option Byte := none      -- set when it has completed or failed
  residue : Nat := 0
  faultAddr : Word64 := 0
  stamp : Nat := 0                  -- fabric time of completion
  deriving DecidableEq, Repr

/-- One DMA channel (R322, R335, R341). -/
structure DmaChan where
  held : Bool := false
  ringVa : BitVec 48 := 0
  cmplVa : BitVec 48 := 0
  ringLog2 : BitVec 4 := 0
  tenant : BitVec 6 := 0
  ivec : BitVec 6 := 0
  hostirq : Bool := false
  pi : Half := 0
  ci : Half := 0
  st : DmaSt := .idle
  err : Byte := 0
  done : Nat := 0
  crc : Word32 := 0
  aborting : Bool := false
  resetAfter : Bool := false        -- a reset follows the abort (R336)
  releaseAfter : Bool := false      -- a release follows the abort (R321)
  waitFrom : Option Nat := none     -- fabric time since which it waits for a page-in
  work : List DmaCur := []          -- descriptors read and without their record, in ring order
  late : List (Half × BitVec 512 × Burst) := []  -- posted writes of completed BAR = 0 descriptors
  counts : List (Half × Nat × Nat) := []   -- pending dsub counts: ring index gn - 1, core, semaphore
  counters : Tab Nat := []
  deriving DecidableEq, Repr

/-! ## The mesh (13) -/

/-- An arbitrated output or reduction adder (R296 to R298). -/
structure Arbiter where
  prio : Tab Nat := []               -- by input port number
  waiting : List (Nat × Packet) := []   -- input and packet
  last : Nat := 4                    -- last input granted
  holder : Option (Nat × Nat) := none   -- input and grant priority G
  passed : Nat := 0                  -- flits of the holder's packet that have passed
  accepted : List Packet := []       -- accepted through the output, no response yet
  resetting : Bool := false
  since : Nat := 0                   -- fabric time of the current grant, or of the reset's start (R298)
  deriving DecidableEq, Repr

/-- A slot of a reduction adder (R294, R371): sequence number, inputs that have arrived, sum, poison. -/
structure RedSlot where
  tree : Nat
  seq : Word32
  arrived : List Nat
  sum : List Int
  poison : Bool
  deriving DecidableEq, Repr

/-- A tree entry (R293, R371). -/
structure TreeEntry where
  inMask : List Nat
  out : Nat
  reserve : Nat
  ended : Bool := false
  deriving DecidableEq, Repr

/-- One router of one plane (R283 to R300). -/
structure Router where
  failed : Bool := false
  down : List Nat := []              -- ports whose link is marked failed or down
  groups : Tab (List Nat) := []      -- multicast group -> output mask (R292)
  trees : Tab TreeEntry := []
  slots : List RedSlot := []
  fifo : List (Nat × Packet) := []   -- the crossing FIFOs from the units at its L and X ports: port and packet (R301)
  inbuf : List (Nat × Packet) := []  -- packets in its input buffers: port and packet (R286)
  out : List (Nat × Packet) := []    -- packets forwarded: on a link and in its replay buffer (R287), or in the FIFO to a unit (R301)
  arbs : Tab Arbiter := []           -- by output port number; 9 is the reduction adder (R296)
  turns : Tab (Nat × Nat) := []      -- by output port: virtual channel and input that went last (R286)
  unitTurn : Nat := 0                -- the sender at the L port that went last (R284)
  vc0At : Tab Nat := []              -- by injection point: fabric time of its last VC0 packet (R286)
  counters : Tab Nat := []
  deriving DecidableEq, Repr

/-- One plane (R300). -/
structure Plane where
  routers : Tab Router := []         -- by y × 16 + x
  rerouting : Bool := false
  newFailed : List Nat := []         -- routers whose failure the reroute covers
  tableFor : List Nat := []          -- failed routers its route tables were computed for (R289, R300)
  waiting : Bool := false            -- its reroute waits for the other plane
  deriving DecidableEq, Repr

/-! ## Links and fabric (16) -/

inductive LinkSt where
  | disabled | train | align | hello | keyx | up | retrain | failed
  deriving DecidableEq, Repr

/-- A frame in a buffer of a link die, or on its way out of a link (R345, R349). ACK, CRED and the sealed body are formed as it is
sent. -/
structure TxFrame where
  fseq : BitVec 12
  vc : BitVec 2
  chan : BitVec 12
  dest : BitVec 10
  kind : BitVec 4
  cseq : Word32 := 0
  body : List Byte := []
  rv : Bool := false                 -- bit 0 of the route-table version it goes by (R364)
  ack : BitVec 12 := 0
  cred : BitVec 3 := 0
  cipher : List Byte := []             -- ciphertext and tag (R348)
  src : Option Nat := none           -- the link in whose input buffer it stands (R351)
  core : Option Nat := none          -- the core whose task has sent it (R318)
  since : Nat := 0                   -- fabric time at which it came into a buffer (R365)
  deriving DecidableEq, Repr

/-- One fabric link (R345 to R358, R462 to R464). -/
structure Link where
  st : LinkSt := .disabled
  byUango : Bool := false            -- disabled by a maintenance command
  scanHeld : Bool := false           -- held DISABLED by a land-driving JTAG instruction
  lanes : BitVec 4 := 0
  margins : List Nat := []
  trainFails : Nat := 0
  retrainTimes : List Nat := []      -- fabric times of entries into RETRAIN in the last hour
  retryAt : Nat := 0
  retryGap : Nat := 60               -- seconds
  retrained : Bool := false          -- HELLO after a retrain with the same peer and keys
  peer : Option HelloRec := none
  refused : Option Byte := none      -- the cause of R358
  sawPeer : Bool := false            -- a HELLO with PEER_SEEN has come
  heard : Bool := false              -- a valid HELLO has come (PEER_SEEN of what is sent)
  helloSent : Nat := 0
  keyStage : Nat := 0                -- 0 none, 1 SHARE, 2 CERT, 3 FINISH received
  keyed : Bool := false              -- session keys are installed
  keyAt : Nat := 0
  upCount : Nat := 0
  frames : Nat := 0                  -- sequenced frames sent under the key
  keyFrom : Nat := 0                 -- when the key agreement began (R353)
  txKey : BitVec 256 := 0            -- the keys of the two directions (R463)
  rxKey : BitVec 256 := 0
  oldKey : Option (BitVec 256 × Nat) := none   -- of this direction before its switch point, and entries into UP under it (R464)
  ownSwitch : Nat := 0               -- number in this period from which this end uses the new key
  sent : Nat := 0                    -- sequenced frames sent since the last entry into UP
  upAt : Nat := 0
  rekeying : Bool := false
  switchPoint : Word64 := 0
  txSeq : BitVec 12 := 0             -- next FSEQ to send
  txBuf : List TxFrame := []         -- unacknowledged, in order
  out : List TxFrame := []           -- frames handed to the link that carry no sequence number, and resends
  rxE : BitVec 12 := 0
  nakOpen : Bool := false
  nakAt : Nat := 0                   -- when the last NAK went out, or frame E last came (R350)
  resent : Option (BitVec 12) := none   -- the frame whose first resend is under way (R352)
  tagFails : Nat := 0
  stopped : Bool := false            -- the peer asked to stop accepting on it (R355)
  downE : BitVec 12 := 0             -- E held when the link left UP
  leftUpAt : Option Nat := none
  failover : Bool := false           -- txBuf holds frames of the last period in UP, to be moved (R355)
  creds : List Nat := [16, 64, 64, 64]
  rxTaken : List Nat := [0, 0, 0, 0] -- by VC: frames accepted whose buffers have not been returned as credits (R351)
  lastVc : Nat := 3                  -- of VC1 to VC3 the one that went last (R351)
  bulk : Nat := 0                    -- frames of VC1 to VC3 that its group has put on it (R363)
  dropped : BitVec 4 := 0            -- lanes that have dropped (R354)
  fecCorr : List Nat := []           -- LNK_FEC_CORR by lane (R382)
  counters : Tab Nat := []
  deriving DecidableEq, Repr

/-- A reduction block that waits in its input buffer (R294, R371). -/
structure Parked where
  inp : Nat                          -- 0 to 15 a link, 16 LOCAL
  block : RedSlot
  vc : BitVec 2
  src : Option Nat
  since : Nat
  deriving DecidableEq, Repr

/-- One link die (R363, R371, R372). -/
structure LinkDie where
  version : Half := 0
  cur : Tab Route := []
  prev : Tab Route := []
  prevVersion : Half := 0
  hasPrev : Bool := false
  spare : Option (Half × Tab Route) := none
  trees : Tab TreeEntry := []        -- by root module × 4096 + root channel
  slots : List RedSlot := []
  parked : List Parked := []
  groups : Tab (List Nat) := []      -- by the same key: outputs, links of the die and 16 LOCAL
  mcWait : List (Nat × TxFrame) := []   -- multicast frames that wait for every output
  queue : List (List Nat × TxFrame) := []   -- frames that wait for one of the links of a group
  toLocal : List TxFrame := []       -- multicast copies at the LOCAL output
  oldAt : Nat := 0                   -- when it last held a frame of the previous version (R364)
  counters : Tab Nat := []
  deriving DecidableEq, Repr

/-- A transfer open on a channel at its receiver (R369): the frames that have arrived, and how many bytes have been
performed as a prefix. -/
structure Transfer where
  first : Word32
  len : Nat
  va : Word64
  read : Bool := false               -- a READ whose WRITE back has not been sent
  parts : List (Nat × List Byte) := []
  done : List Nat := []              -- frames, or widened tiles, written
  dma : Option (Nat × Half) := none  -- the READ it answers: DMA channel and ring index
  word : Option (BitVec 512) := none -- the descriptor of that READ
  deriving DecidableEq, Repr

/-- A channel endpoint (R316, R367). -/
structure Chan where
  valid : Bool := false
  ended : Bool := false
  endedAt : Nat := 0
  cfg : ChanCfg := {}
  txSeq : Word32 := 0
  rxH : Word32 := 0
  rxSeen : List Word32 := []         -- numbers delivered within [H - 65535, H]
  open_ : List Transfer := []
  early : List (Word32 × List Byte) := []   -- DATA frames that came before the record of their transfer (R369)
  sums : List (Word32 × List Int × Bool) := []   -- reduction sums delivered here (R371)
  inbox : List (List Byte) := []     -- Gleaner records delivered here (R346)
  later : List TxFrame := []         -- frames that wait for credit, numbered, with 65,536 numbers unfinished (R316)
  redLater : List RedSlot := []      -- the same of reduction blocks
  tree : Option Nat := none          -- the tree of the mesh that feeds it (R293)
  mcast : Option Nat := none         -- its multicast group on the mesh (R292)
  cores : List Nat := []             -- the cores of the module that contribute (R293)
  members : List Nat := []           -- at the root of a group: the modules that joined (R366)
  via : List (Nat × Nat) := []       -- at the root: modules of the channel and their channel IDs (R375)
  job : Half := 0xFFFF
  counters : Tab Nat := []
  deriving DecidableEq, Repr

/-- A channel setup that waits for its partners (R366). `far` names the module and channel of a record that came
before its own driver's setup; a root collects joins, then acknowledgements. -/
structure Setup where
  chan : Nat
  fn : Nat := 0
  op : Nat := 0
  far : Option (Nat × Nat) := none
  tag : Word32
  cfg : ChanCfg
  members : List Nat := []           -- members still to join, or to acknowledge
  joined : List (Nat × Nat) := []    -- members that have joined: module, channel
  fans : List (Nat × Nat) := []      -- their local fan-ins
  nodes : List (Nat × Nat) := []     -- at a root that installs: every module of the channel (R366)
  installing : Bool := false
  fanin : Nat := 0
  uid : Word64 := 0
  since : Nat := 0
  deriving DecidableEq, Repr

/-- The module's place in the fabric (R359 to R364, R376 to R378). -/
structure Fabric where
  modid : Nat := 0
  modv : Bool := false
  bwSerial : Option Word64 := none   -- none: its own serial
  bwHops : Nat := 0
  bwLink : Option Nat := none
  pairAt : Nat := 0                  -- when the pair last changed (R359)
  acting : Bool := false
  mapEpoch : Word64 := 0
  map : List MapEntry := []
  storedEpoch : Word64 := 0
  routeVersion : Half := 0
  readyFrom : List Nat := []
  drainedFrom : List Nat := []
  holding : Bool := false
  sentTo : Tab Nat := []             -- FAB records sent, by destination (R347)
  out : List (Nat × Nat × List Nat) := []   -- FAB records that have no way yet: kind, destination, contents
  ppsValid : Bool := false
  ppsLast : Option Nat := none
  ppsOffset : Int := 0
  holdover : Bool := false
  steer : Int := 0                   -- offset still to be removed, ns
  rate : Int := 0                    -- ns a second by which the time root was last steered (R377)
  rateTick : Nat := 0                -- ticks towards the next step of 10 ns (100 ppm)
  timeRoot : Option Nat := none      -- module ID of the time root, as last learnt (R376)
  groups : List LinkGroup := []      -- link groups of the fabric map (R360)
  held : List (Bool × TxFrame) := [] -- frames not injected during HOLD (R364)
  drainSent : Bool := false
  routeStage : Nat := 0              -- at the Bellwether: 1 waits for READY, 2 waits for DRAINED
  routeNext : Half := 0
  joined : Bool := false
  deriving DecidableEq, Repr

/-! ## Jobs, tenants and the host (09, 17, 18, 19) -/

/-- A scale-control record (R198). -/
structure ScaleRec where
  aCur : Int := 0
  aMin : Int := 0
  aMax : Int := 0
  backoff : Nat := 0
  growInterval : Nat := 0
  clean : Nat := 0
  skips : Nat := 0
  stall : Nat := 0
  deriving DecidableEq, Repr

inductive JState where
  | created | running | stopped
  deriving DecidableEq, Repr

/-- A manifest entry, or a segment of a region (R440, R442): region, segment, bytes, the epoch whose copy it names, and
that copy's digest. -/
structure SegRef where
  region : Nat
  seg : Nat
  len : Nat
  epoch : Nat
  digest : BitVec 384
  deriving DecidableEq, Repr

/-- A stored segment copy (R441): its data as bytes by offset. -/
structure SegCopy where
  uid : Word64
  epoch : Nat
  rank : Nat
  ref : SegRef
  data : List Host.Cell := []
  deriving DecidableEq, Repr

/-- A verified epoch of a rank (R442, R444) with the step records and scale records it holds (R211). -/
structure Epoch where
  epoch : Nat
  step : Word64
  ftime : Nat
  prev : Nat := 0                        -- previous verified epoch, 0 for a full one
  entries : List SegRef := []
  root : BitVec 384 := 0
  applied : Word64 := 0
  scales : Tab ScaleRec := []
  loc : Bool := true
  buddy : Bool := false
  bad : Option Cause := none             -- the cause with which a read of its segments ended (R277)
  deriving DecidableEq, Repr

/-- The checkpoints of a job's rank in the Far tier, by JOB_UID: they outlive the job (R447). -/
structure Ckpt where
  uid : Word64
  rank : Nat
  next : Nat := 1                        -- the number of the next epoch
  epochs : List Epoch := []              -- verified, oldest first
  copies : List SegCopy := []
  open_ : Option Epoch := none           -- started and not yet verified
  redo : List (Nat × Nat) := []          -- segments of a failed epoch, to be written again
  full : Bool := true                    -- the next epoch writes every segment
  deriving DecidableEq, Repr

/-- A job (R383, R417, R421). -/
structure Job where
  uid : Word64
  seed : Word64
  map : BitVec 512
  ranks : List Nat
  stepVa : Word64
  progId : Nat
  st : JState := .created
  started : Bool := false
  stopAtBoundary : Bool := false
  step : Word64 := 0
  poisonMask : Word64 := 0
  decided : Bool := false
  applied : Word64 := 0
  buf : Nat := 0                         -- the gather buffer, 0 or 1, that holds the working copy of the last boundary (R391)
  gather : Option Nat := none            -- the buffer that the step under way gathers into
  steps : Nat := 0                       -- TRN_STEPS
  appliedSteps : Nat := 0                -- TRN_APPLIED
  scales : Tab ScaleRec := []
  opened : Option (Tab ScaleRec) := none -- after the vote: the scale records at the boundary that opened the step (R30, R211)
  opts : Tab (BitVec 512) := []          -- optimizer descriptors by tensor
  masks : Tab (List Word64) := []
  ckpt : Option (Nat × Nat × Nat) := none   -- KEEP, BUDDY, INTERVAL_MS
  asked : Option (Nat × Bool) := none    -- epoch requested: its number, and whether it has started
  holdFrom : Option Nat := none          -- phase 8 waits for the epoch since this fabric time (R440)
  epochTime : Nat := 0                   -- fabric time of the previous epoch's boundary, or of the start
  lastBoundary : Nat := 0
  stopping : Bool := false               -- a JOB_STOP waits for the job's tasks to end
  broken : Bool := false                 -- a restore has failed: STOPPED until one succeeds (R446)
  evacuate : Bool := false
  holdNs : Nat := 0
  coreNs : Nat := 0
  energyNj : Nat := 0                    -- energy attributed, in nJ (R480, log entry 43)
  deriving DecidableEq, Repr

inductive HState where
  | open_ | halted | closing
  deriving DecidableEq, Repr

/-- A context handle (R415). -/
structure Handle where
  core : Nat
  kind : Nat
  st : HState := .open_
  queue : List TaskDesc := []
  nextTicket : Nat := 0
  ticketsDone : Nat := 0
  onCtx : Option Nat := none
  killing : Bool := false                -- KILL has been accepted, its flush is to come
  deriving DecidableEq, Repr

/-- A loaded program, or one that is arriving in parts (R419). -/
structure Prog where
  got : List Byte := []
  loaded : Bool := false
  segs : List (Nat × Nat) := []          -- virtual address and length
  digest : BitVec 384 := 0
  at_ : Nat := 0
  deriving DecidableEq, Repr

structure WeightSet where
  got : List Byte := []
  off : Nat := 0
  final : Bool := false
  digest : BitVec 384 := 0
  at_ : Nat := 0
  deriving DecidableEq, Repr

/-- The keys of a tenant (R454, R460): whether they exist, and the memory-key generation. -/
structure Keys where
  memory : Bool := false
  salt : Bool := false
  gen : Bool := false
  rotating : Bool := false
  left : List Nat := []                  -- frames still to rotate
  deriving DecidableEq, Repr

/-- The steps of R426 and R472. -/
structure Scrub where
  bytes : Nat := 0                       -- M: memory mapped at the entry into ENDING
  torn : Bool := false                   -- the tasks have ended, channels and objects are freed
  inScrub : Bool := false
  since : Nat := 0                       -- entry into SCRUB
  restarted : Bool := false              -- Uango restarted meanwhile (R473)
  gone : Bool := false                   -- the VF is disabled: it becomes absent
  deriving DecidableEq, Repr

/-- A tenant: allotments, objects and memory (R264, R413 to R421). -/
structure Tenant where
  nearFrames : Nat := 0
  midFrames : Nat := 0
  farUnits : Nat := 0
  maxCores : Nat := 0
  maxChan : Nat := 0
  maxDma : Nat := 0
  small : Tab Leaf := []                 -- 2 MiB leaves by va >> 21
  big : Tab Leaf := []                   -- 1 GiB leaves by va >> 30
  handles : Tab Handle := []
  progs : Tab Prog := []
  weights : Tab WeightSet := []
  jobs : Tab Job := []
  tables : Tab Table := []
  apertures : List (Nat × Nat × Nat) := []   -- offset, size, va
  keys : Keys := {}
  scrub : Option Scrub := none
  evicted : Bool := false                -- evicted in the last 10 ms window (R267)
  pg : Tab Nat := []                     -- paging counters (R276)
  ckpts : List Ckpt := []
  mirrored : List SegCopy := []              -- segments held as a buddy (R444)
  askAgain : List (Word64 × Nat × Nat × Nat × Nat) := []   -- segments asked for once more: uid, epoch, rank, region, segment
  deriving DecidableEq, Repr

/-- A host command on tenant memory that waits for its pages, or behind one of them on the same bytes (R408, R418): a read, a write,
or the removal of the range. -/
structure HostAcc where
  op : Nat
  obj : Nat
  tenant : Nat
  va : Nat
  len : Nat
  write : Bool
  bytes : List Byte := []
  blen : Nat := 0                        -- its response body, where it has one
  body : BitVec 384 := 0
  weight : Option (Nat × Nat × Bool) := none   -- WEIGHT_LOAD: its set, OFFSET and FINAL
  deriving DecidableEq, Repr

/-- FSTATE (R401). -/
inductive FState where
  | idle | ready | ending | scrub | booting | recovery | lost | updating
  deriving DecidableEq, Repr

/-- A response entry (R405) and the bytes written to the host buffer of a read command. -/
structure Resp where
  opcode : Half
  seq : Half
  phase : Bool := false
  indirect : Bool := false
  verMajor : Byte := 0
  verMinor : Byte := 0
  length : Nat := 0
  status : Half
  body : BitVec 384 := 0
  data : List Byte := []
  deriving DecidableEq, Repr

/-- An event entry (R405, R424, R425). -/
structure Ev where
  code : Half
  eseq : Half := 0
  phase : Bool := false
  verMajor : Byte := 0
  verMinor : Byte := 0
  stamp : Nat := 0
  body : BitVec 384 := 0
  deriving DecidableEq, Repr

/-- A command that has answered PENDING, or waits before its first answer (R408). -/
structure PendCmd where
  opcode : Half
  seq : Half
  status : Option Half := none           -- set when its work is whole
  length : Nat := 0
  body : BitVec 384 := 0
  data : Option (List Byte) := none
  obj : Nat := 0                         -- the object its end is tied to
  deriving DecidableEq, Repr

/-- One PCIe function: its BAR0 registers, rings and session (R401 to R403). -/
structure Func where
  fstate : FState := .booting
  prior : FState := .idle                -- the state an update returns to
  driverId : Word64 := 0                 -- DRIVER_ID of the last HELLO (R414)
  sMajor : Byte := 0
  sMinor : Byte := 0
  cmdBase : Word64 := 0
  rspBase : Word64 := 0
  evtBase : Word64 := 0
  evtLog2 : BitVec 4 := 0
  enable : Bool := false
  stopped : Bool := false                -- a read of a command entry failed (R402)
  rerr : Bool := false
  rerrCode : Byte := 0
  cmdPi : Half := 0
  cmdCi : Half := 0
  rspPi : Half := 0
  rspCi : Half := 0
  evtPi : Half := 0
  evtCi : Half := 0
  evtLost : Word32 := 0
  cause : BitVec 5 := 0
  mask : BitVec 5 := 0x1F
  rspVec : BitVec 6 := 0
  evtVec : BitVec 6 := 0
  errVec : BitVec 6 := 0
  dmaCause : Tab Word64 := []
  msixMask : Word64 := 0xFFFFFFFFFFFFFFFF   -- vectors masked in the MSI-X table
  msixTable : Tab Word64 := []
  pba : Word64 := 0
  messages : List Nat := []              -- MSI-X messages sent, newest first
  heldMsgs : List Nat := []              -- vectors held back during a scrub (R474)
  rspRing : Tab Resp := []
  evtRing : Tab Ev := []
  rspWait : List Resp := []
  owed : List PendCmd := []              -- commands without a final response
  eseq : Half := 0
  dropped : Nat := 0
  barLog2 : Nat := 30
  deriving DecidableEq, Repr

/-! ## Management (19 to 23) -/

/-- Fuse record of a physical core (R19). -/
inductive Fuse where
  | good | bad | fallow
  deriving DecidableEq, Repr

/-- Uango's records in the Far tier (R20, R360, R455, R472, R500): they survive every reset. -/
structure FarRecords where
  coreMap : Option (Tab (Nat × Nat)) := none
  fallow : List (Nat × Nat) := []
  badCores : List (Nat × Nat) := []
  retired : List Nat := []
  mapEpoch : Word64 := 0
  map : List MapEntry := []
  groups : List LinkGroup := []
  modid : Option Nat := none
  ftime : Nat := 0
  salts : List Nat := []                 -- tenants whose salt record stands
  endingMarks : List Nat := []
  media : Nat := 0                       -- FAR_MEDIA_BYTES
  host : Nat := 0                        -- FAR_HOST_BYTES
  spare : Nat := 10000                   -- FAR_SPARE
  recent : List (Nat × Nat) := []        -- media bytes of the last 24 h: fabric time, bytes (FAR_BUDGET)
  wearPosted : Nat := 0
  readOnly : Bool := false
  deriving DecidableEq, Repr

/-- The core grid (R18 to R22) and the distance table (R290). -/
structure Grid where
  map : Tab (Nat × Nat) := []            -- logical core -> (x, y)
  retired : List Nat := []
  fallow : List (Nat × Nat) := []
  bad : List (Nat × Nat) := []
  mapVersion : Half := 0
  distVersion : Half := 0
  distFrame : Option Nat := none         -- the Near frame of the distance table
  fillOrder : List Nat := []             -- failed cores that wait for a Fallow core, in order of failure (R433)
  deriving DecidableEq, Repr

/-- Plover (R25 to R27, R436 to R438). -/
structure Plover where
  watch : Byte := 96
  secure : Byte := 144
  evacuate : Byte := 208
  risk : Byte := 0
  level : BitVec 2 := 0
  subs : Tab Nat := []                   -- the nine sub-scores in the order of R437
  dieReplay : Nat := 0                   -- inputs counted in this window
  stackCe : Tab Nat := []
  linkReplay : Tab Nat := []
  droops : Nat := 0
  ended : List (List Nat) := []          -- sub-scores of 10 ms windows that have ended and are not yet recomputed (R12, R25)
  thermMargin : Int := 100
  history : List Byte := []              -- newest first
  tick : Nat := 0
  evacuating : Bool := false             -- JOB_START is refused (R448)
  deriving DecidableEq, Repr

/-- The parts of a boot and of Drover (R399, R450, R451, R498 to R502). -/
structure Drover where
  step : Nat := 0                        -- last step of R500 reached
  moduleReset : Bool := false            -- this boot follows a module reset
  romRunning : Bool := true              -- ROM
  mboxOn : Bool := false                 -- MBOX
  slotB : Bool := false
  otherNext : Bool := false              -- SWITCH_SLOT: the next restart uses the other slot
  restarting : Bool := false
  switching : Bool := false
  staged : List Byte := []
  stagedOk : Bool := false
  imgs : Tab (List Byte) := []           -- images by slot, where one has been staged
  imgBuild : Tab Word32 := []
  mismatches : List Nat := []
  mismatchCount : Nat := 0               -- DROVER_MISMATCH
  mismatched : Bool := false             -- the restart under way follows a mismatch
  identity : Bool := false
  drbgOk : Bool := true
  emResult : Half := 0
  emergencyAct : Bool := false           -- the restart under way is an emergency action (R401)
  emLog : List Ev := []
  outOfService : Bool := false           -- R32
  lostUntold : List Nat := []            -- functions to be told MODULE_LOST when a session opens (R502)
  fineRate : Bool := false
  diagUnlocked : List Nat := []          -- sideband ports with an unlocked session
  deriving DecidableEq, Repr

/-- Row band (R491, R494). -/
structure Band where
  units : Nat := 0                       -- CCLK in steps of 25 MHz
  eighths : Nat := 0                     -- eighths of a CCLK cycle since the clock first ran
  vcore : Nat := 0                       -- set point of VCORE, mV (R484, R494)
  stopped : Bool := true
  next : Nat := 0                        -- frequency of the change under way
  stretch : Bool := false
  gated : Bool := false                  -- level 7 of R495 applied to the band alone
  deriving DecidableEq, Repr

inductive VinSt where
  | absent | good | low | under | over
  deriving DecidableEq, Repr

/-- Power and temperature (R484 to R497). -/
structure Power where
  vin : VinSt := .absent
  pwrSel : BitVec 2 := 3
  slotId : BitVec 3 := 7
  groupsUp : Nat := 0
  level : Nat := 0
  since : Nat := 0                       -- samples with no limit at risk
  lowClass : Bool := false               -- the limits of class 0b01 apply (R489)
  temps : List Int := []
  tripCount : Tab Nat := []
  tripped : Bool := false
  coolFor : Nat := 0
  throttle : List Nat := []              -- sensors whose throttle action is applied
  coolMs : Tab Nat := []
  thermAlert : Bool := false
  fault : Bool := false
  watts : Nat := 0
  winW : Nat := 0                        -- published power reading, W
  sensors : List Int := []               -- published sensor readings
  farWait : Bool := false                -- Far writes wait in the controller (R495)
  scrubs : List (Nat × Nat) := []        -- scrubs that have ended since the last power window: entry and end (R474)
  deriving DecidableEq, Repr

/-- PCI Express (R397 to R400, R499). -/
structure Pcie where
  perst : Bool := true                   -- PERST# asserted
  up : Bool := false
  gen : Nat := 0
  width : Nat := 0
  numVfs : Nat := 0
  vfEnable : Bool := false
  crs : Bool := true
  since : Nat := 0                       -- fabric time at which PERST# was deasserted, or a module reset ended (R399)
  answers : List (Nat × Option Word64) := []   -- configuration requests answered: function, and the value, none for Retry Status
  deriving DecidableEq, Repr

/-- How far an SPDM connection has come (R466). -/
inductive SpdmStage where
  | none | versioned | capable | negotiated
  deriving DecidableEq, Repr

/-- An SPDM responder, one per transport port (R466, R511). -/
structure Spdm where
  stage : SpdmStage := .none
  version : Byte := 0
  exchanged : Bool := false              -- KEY_EXCHANGE is answered, FINISH is to come
  sessionUp : Bool := false
  large : List Byte := []                -- a response larger than the transport, for CHUNK_GET
  handle : Nat := 0                      -- the handle of that response
  answers : List (Nat × List Byte) := [] -- answers sent: response code and what it carries
  deriving DecidableEq, Repr

/-- One SMBus port (R483, R511). -/
structure Smb where
  eid : Byte := 0                        -- 0 is the null endpoint ID
  told : List Nat := [0, 4, 0]           -- state sensors as of the last event read: level, FSTATE, MODULE_LOST
  answers : List (Nat × Option Nat) := []   -- readings given by sensor; none where unavailable
  spdm : Spdm := {}
  deriving DecidableEq, Repr

/-- JTAG instructions (R512). -/
inductive Jtag where
  | bypass | idcode | sample | extest | clamp | highz
  deriving DecidableEq, Repr

/-- Sideband (R483, R510 to R512). -/
structure Side where
  a : Smb := {}
  b : Smb := {}
  doe : Spdm := {}
  jtag : Jtag := .idcode
  dr : Word32 := 0                       -- what the selected data register captures
  deriving DecidableEq, Repr

/-- Telemetry (R478 to R482): completed windows per set, and what the last capture held. -/
structure Telem where
  rings : Tab (List (Nat × List Nat)) := []   -- set and tenant or unit -> windows: start and increases, oldest first
  last : Tab (List Nat) := []            -- the same key -> counters at the last window
  snaps : List (Nat × List (Nat × List Nat)) := []   -- 1 ms windows that have ended and have no record yet: start, and the
                                         -- counters at their end by ring (R12, R479)
  idleNs : Nat := 0                      -- core-nanoseconds of the window that no job used (R480)
  spans : List (List (Nat × Nat × Nat) × Nat) := []   -- power windows that have ended and are not yet closed: tenant, job and
                                         -- core-nanoseconds, and those of no job (R12, R480)
  stackTransient : Tab Nat := []
  stackCorrected : Tab Nat := []
  stackLasting : Tab Nat := []
  errFrames : List (Nat × Nat × Nat) := []   -- stack channel, frame, fabric time (R282)
  internal : Nat := 0                    -- walker-integrity events (R262)
  failed : Nat := 0                      -- commands answered INTERNAL (R409)
  deriving DecidableEq, Repr

/-- The module. -/
structure State where
  pending : List Instr := []
  free : Nat := 0                        -- the model's own: counter of the free values
  nextId : Nat := 1                      -- the model's own: numbers requests and queue entries
  ftime : Nat := 0                       -- fabric time in ns (R317)
  cores : Tab Core := []
  folds : Tab Fold := []
  mem : List Host.Cell := []             -- bytes by physical address (R253)
  badWords : Tab Cause := []             -- local-store words in error (R74)
  badSectors : Tab Cause := []           -- 512-byte sectors in error (R277)
  badUnits : Tab Cause := []             -- 16 KiB Far units in error (R278)
  frames : Tab Frame := []               -- by physical address >> 21
  reqs : List MemReq := []
  jobsPg : List PageJob := []
  invals : List Inval := []
  hostWait : List HostAcc := []
  sigs : List Sig := []                  -- signals in flight, oldest first (R304, R308)
  dma : Tab DmaChan := []
  dmaLast : Tab Nat := []                -- engine -> channel served last
  planes : Tab Plane := []               -- 0 and 1
  links : Tab Link := []
  dies : Tab LinkDie := []               -- 0 die A, 1 die B
  chans : Tab Chan := []
  setups : List Setup := []
  fabric : Fabric := {}
  tenants : Tab Tenant := []
  funcs : Tab Func := []
  grid : Grid := {}
  far : FarRecords := {}
  fuses : Tab Fuse := []                 -- by y × 16 + x; good where absent
  plover : Plover := {}
  drover : Drover := {}
  bands : Tab Band := []
  power : Power := {}
  pcie : Pcie := {}
  side : Side := {}
  telem : Telem := {}
  hostReads : List (Nat × Nat × List Byte) := []   -- BAR2 reads completed: offset, 0 data / 1 UR / 2 CA, bytes
  deriving DecidableEq, Repr

/-- Faults end the run of the model. -/
inductive Fault where
  /-- Raised by no command of this version: every error of the module is an effect on its state. Safe. -/
  | none_
  deriving DecidableEq, Repr

/-- Refusals. -/
inductive Refusal where
  /-- Raised by Dispatch for a row that has no meaning yet. Safe: the run ends. -/
  | notModelled (mnemonic : String)
  /-- Raised by a VENDOR_DIAGNOSTIC command in an unlocked diagnostic session (R423): the spec says that
  its contents are not part of the manual. Safe: the run ends. -/
  | vendorDiagnostic
  deriving DecidableEq, Repr

/-- The module at power-on, before VIN good: every element at its reset value (R64, R87, R126, R303,
R322, R401, R500). The fuse record is the part's own: no bad core, and local index 7 of every Fold in an even
Fold column Fallow (log entry 6). -/
def State.reset : State :=
  { fuses := [(49, .fallow), (53, .fallow), (57, .fallow), (61, .fallow),
              (113, .fallow), (117, .fallow), (121, .fallow), (125, .fallow),
              (177, .fallow), (181, .fallow), (185, .fallow), (189, .fallow),
              (241, .fallow), (245, .fallow), (249, .fallow), (253, .fallow),
              (305, .fallow), (309, .fallow), (313, .fallow), (317, .fallow),
              (369, .fallow), (373, .fallow), (377, .fallow), (381, .fallow)] }

end Sys2Proof.Machine
end

