-- ==== Sys2Proof/Machine/Operands.lean ====
section
/-! DEFINITION. Reading and writing what a command names: sparse tables, bit fields, bytes, general
registers, predicates, resource masks, and which tiles, banks and vector registers a queued instruction
names. -/

namespace Sys2Proof.Machine
open Sys2Proof

/-! ## Sparse tables -/

/-- The value at key `k`, the table's default where it lists none. -/
def look {α : Type} (d : α) : Tab α → Nat → α
  | [], _ => d
  | (k', v) :: t, k => if k' = k then v else look d t k

/-- The value at key `k` if the table lists one. -/
def tabFind {α : Type} : Tab α → Nat → Option α
  | [], _ => none
  | (k', v) :: t, k => if k' = k then some v else tabFind t k

/-- Insert or replace at key `k`, keeping the keys rising. -/
def put {α : Type} : Tab α → Nat → α → Tab α
  | [], k, v => [(k, v)]
  | (k', v') :: t, k, v =>
    if k < k' then (k, v) :: (k', v') :: t
    else if k' = k then (k, v) :: t
    else (k', v') :: put t k v

/-- Remove key `k`. -/
def del {α : Type} : Tab α → Nat → Tab α
  | [], _ => []
  | (k', v') :: t, k => if k' = k then del t k else (k', v') :: del t k

/-- Counters are 64-bit, rise only and saturate at 2^64 − 1 (R13, R475). -/
def satAdd (a n : Nat) : Nat := min (a + n) (2 ^ 64 - 1)

def bump (t : Tab Nat) (k n : Nat) : Tab Nat := put t k (satAdd (look 0 t k) n)

/-! ## Bits and bytes -/

/-- Bits `lo + len − 1 : lo` of a word. -/
def field {w : Nat} (v : BitVec w) (lo len : Nat) : Nat := v.toNat / 2 ^ lo % 2 ^ len

/-- Replace bits `lo + len − 1 : lo` by `x`. -/
def setField {w : Nat} (v : BitVec w) (lo len x : Nat) : BitVec w :=
  BitVec.ofNat w (v.toNat - field v lo len * 2 ^ lo + x % 2 ^ len * 2 ^ lo)

/-- Two's complement reading of the low `w` bits of `n`. -/
def signed (w n : Nat) : Int :=
  let m := n % 2 ^ w
  if 2 * m < 2 ^ w then (m : Int) else (m : Int) - 2 ^ w

/-- The low `w` bits of an integer. -/
def lowBits (w : Nat) (x : Int) : Nat := (x % (2 ^ w : Int)).toNat

/-- Little-endian bytes of a number. -/
def toBytes : Nat → Nat → List Byte
  | 0, _ => []
  | n + 1, v => BitVec.ofNat 8 v :: toBytes n (v / 256)

/-- The number little-endian bytes spell. -/
def ofBytes : List Byte → Nat
  | [] => 0
  | b :: t => b.toNat + 256 * ofBytes t

def b2n (b : Bool) : Nat := if b then 1 else 0

/-- An immediate, sign-extended to 64 bits (R155). -/
def immWord (imm : Word32) : Word64 := imm.signExtend 64

/-- Number of leading zeros of the low `w` bits of `n`. -/
def leadingZeros : Nat → Nat → Nat
  | 0, _ => 0
  | w + 1, n => if n / 2 ^ w % 2 = 1 then 0 else 1 + leadingZeros w n

/-- Number of set bits of the low `w` bits of `n`. -/
def popCount : Nat → Nat → Nat
  | 0, _ => 0
  | w + 1, n => n % 2 + popCount w (n / 2)

/-- Number of bits of `n`: 0 for 0, else the position of its highest set bit plus 1. -/
def bitLen (n : Nat) : Nat := if n = 0 then 0 else Nat.log2 n + 1

/-! ## Byte stores in canonical form -/

/-- The byte at an address: 0 where none is listed (log entry 3). -/
def byteAt (m : List Host.Cell) (a : Nat) : Byte := look 0 m a

/-- Write one byte, keeping the canonical form: writing 0 removes the entry. -/
def setByte (m : List Host.Cell) (a : Nat) (b : Byte) : List Host.Cell :=
  if b = 0 then del m a else put m a b

def bytesAt (m : List Host.Cell) (a n : Nat) : List Byte := (List.range n).map fun i => byteAt m (a + i)

def setBytes : List Host.Cell → Nat → List Byte → List Host.Cell
  | m, _, [] => m
  | m, a, b :: t => setBytes (setByte m a b) (a + 1) t

/-- The canonical form of a byte store: addresses strictly rising, no entry equal to the byte an unlisted
address reads as. -/
def Memory.wf : List Host.Cell → Bool
  | [] => true
  | [(_, b)] => b != 0
  | (a, b) :: (a', b') :: t => b != 0 && decide (a < a') && Memory.wf ((a', b') :: t)

/-! ## Registers of a context (R64) -/

def coreOf (s : State) (c : Nat) : Core := look {} s.cores c
def setCore (s : State) (c : Nat) (k : Core) : State := { s with cores := put s.cores c k }
def ctxOf (k : Core) (n : Nat) : Ctx := look {} k.ctxs n
def setCtx (k : Core) (n : Nat) (x : Ctx) : Core := { k with ctxs := put k.ctxs n x }
def stCtx (s : State) (c n : Nat) : Ctx := ctxOf (coreOf s c) n
def setStCtx (s : State) (c n : Nat) (x : Ctx) : State := setCore s c (setCtx (coreOf s c) n x)

/-- g0 reads 0; a register nothing has written reads its task-start value 0 (R64). -/
def readG (x : Ctx) (r : Nat) : Word64 := if r = 0 then 0 else look 0 x.regs r

/-- A write to g0 is discarded (R64, R155). -/
def writeG (x : Ctx) (r : Nat) (v : Word64) : Ctx :=
  if r = 0 then x else { x with regs := put x.regs r v }

/-- p0 reads 1 (R64). -/
def readP (x : Ctx) (p : Nat) : Bool := if p = 0 then true else x.preds.getLsbD p

/-- A write to p0 is discarded (R64, R158). -/
def writeP (x : Ctx) (p : Nat) (v : Bool) : Ctx :=
  if p = 0 then x else { x with preds := setField x.preds p 1 (b2n v) }

/-! ## The resource mask (R63, R64) -/

def ownsTile (x : Ctx) (t : Nat) : Bool := x.res0.getLsbD (t % 16)
def ownsBank (x : Ctx) (b : Nat) : Bool := x.res0.getLsbD (16 + b % 4)
def ownsVreg (x : Ctx) (v : Nat) : Bool := x.res0.getLsbD (32 + v % 32)
def ownsSem (x : Ctx) (k : Nat) : Bool := x.res1.getLsbD (k % 64)

/-- A condition code of R157 over two values of width `w`; none for a reserved code. -/
def condition {w : Nat} (code : Nat) (a b : BitVec w) : Option Bool :=
  match code with
  | 0 => some (a == b)
  | 1 => some (a != b)
  | 2 => some (a.slt b)
  | 3 => some (a.sle b)
  | 4 => some (b.slt a)
  | 5 => some (b.sle a)
  | 6 => some (a.ult b)
  | 7 => some (a.ule b)
  | 8 => some (b.ult a)
  | 9 => some (b.ule a)
  | _ => none

/-! ## Tiles (R86 to R88) -/

def cfgRows (cfg : BitVec 32) : Nat := field cfg 0 7
def cfgWords (cfg : BitVec 32) : Nat := field cfg 8 5
def cfgFmt (cfg : BitVec 32) : Nat := field cfg 16 4

/-- Blocks per row B of a format at a row width (R88). -/
def blocksPerRow (fmt words : Nat) : Nat :=
  match fmt with
  | 1 => words / 8
  | 2 => words / 4
  | 3 => words / 8
  | _ => 0

/-- The row width holds whole blocks of the format (R88). -/
def wordsPermitted (fmt words : Nat) : Bool :=
  match fmt with
  | 0 => decide (1 ≤ words ∧ words ≤ 16)
  | 1 => words == 8 || words == 16
  | 2 => words == 4 || words == 8 || words == 12 || words == 16
  | 3 => words == 8 || words == 16
  | 4 => decide (1 ≤ words ∧ words ≤ 16)
  | _ => false

/-- A value tcfg accepts: 0, or no reserved bit, no reserved encoding and a combination of R88 (R89). ROWS = 0 beside a
combination of R88 is none of R89's grounds: the tile is then unconfigured (R87, log entry 10). TILE_CFG has 32 bits, and bits
63:32 of the general register count as reserved (DESIGN CHOICE, log entry 181). -/
def cfgValid (v : Word64) : Bool :=
  v == 0 || (field v 7 1 == 0 && field v 13 3 == 0 && field v 20 44 == 0 &&
    decide (field v 0 7 ≤ 64) && wordsPermitted (field v 16 4) (field v 8 5))

def tileOf (k : Core) (t : Nat) : Tile := look {} k.tiles (t % 16)
def setTile (k : Core) (t : Nat) (x : Tile) : Core := { k with tiles := put k.tiles (t % 16) x }
def bankOf (k : Core) (b : Nat) : Bank := look {} k.banks (b % 4)
def setBank (k : Core) (b : Nat) (x : Bank) : Core := { k with banks := put k.banks (b % 4) x }
def vregOf (k : Core) (v : Nat) : VReg := look {} k.vregs (v % 32)
def setVreg (k : Core) (v : Nat) (x : VReg) : Core := { k with vregs := put k.vregs (v % 32) x }
def semOf (k : Core) (n : Nat) : Sem := look {} k.sems (n % 64)
def setSem (k : Core) (n : Nat) (x : Sem) : Core := { k with sems := put k.sems (n % 64) x }
def setOf (k : Core) (b : Bool) : StatSet := look {} k.sets (b2n b)
def setStatSet (k : Core) (b : Bool) (x : StatSet) : Core := { k with sets := put k.sets (b2n b) x }

def laneAt (v : VReg) (i : Nat) : Word32 := look 0 v.lanes i
def lanesOf (v : VReg) : List Word32 := (List.range 64).map (laneAt v)
def mkLanes (l : List Word32) : Tab Word32 := (l.zipIdx.filter fun p => p.1 != 0).map fun p => (p.2, p.1)
def bankElem (b : Bank) (row col : Nat) : Int := look 0 b.elems (row * 64 + col)
def setBankElem (b : Bank) (row col : Nat) (v : Int) : Bank :=
  { b with elems := if v = 0 then del b.elems (row * 64 + col) else put b.elems (row * 64 + col) v }

/-- The 64 data bytes of a tile row; zero where its ROWV bit is clear (R93). -/
def tileRow (t : Tile) (r : Nat) : List Byte :=
  if t.rowv.getLsbD r then bytesAt t.data (64 * r) 64 else List.replicate 64 0

/-- The B scale bytes of a tile row; zero where its ROWV bit is clear (R86, R93). -/
def tileScales (t : Tile) (r : Nat) : List Byte :=
  let b := blocksPerRow (cfgFmt t.cfg) (cfgWords t.cfg)
  if t.rowv.getLsbD r then bytesAt t.strip (r * b) b else List.replicate b 0

/-- Write the data bytes of a row and set its ROWV bit (R93, R131); a first write of the row leaves no byte
of its earlier contents. -/
def setTileRow (t : Tile) (r : Nat) (bytes : List Byte) : Tile :=
  let base := if t.rowv.getLsbD r then t.data else setBytes t.data (64 * r) (List.replicate 64 0)
  { t with data := setBytes base (64 * r) bytes, rowv := setField t.rowv r 1 1 }

def setTileScales (t : Tile) (r : Nat) (bytes : List Byte) : Tile :=
  let b := blocksPerRow (cfgFmt t.cfg) (cfgWords t.cfg)
  { t with strip := setBytes t.strip (r * b) bytes }

/-! ## What a queued instruction names (R104, R110, R127) -/

/-- Streaming tiles of a shape code (R110). -/
def streamTiles (shape ts : Nat) : List Nat :=
  match shape with
  | 1 => [ts % 16, (ts + 1) % 16]
  | 2 => [ts % 16, (ts + 1) % 16]
  | 3 => [ts % 16, (ts + 1) % 16, (ts + 2) % 16, (ts + 3) % 16]
  | _ => [ts % 16]

/-- Destination banks of a shape code (R110). -/
def destBanks (shape ad : Nat) : List Nat :=
  match shape with
  | 1 => [ad % 4, (ad + 1) % 4]
  | 2 => [ad % 4, (ad + 1) % 4, (ad + 2) % 4, (ad + 3) % 4]
  | 3 => [ad % 4, (ad + 1) % 4, (ad + 2) % 4, (ad + 3) % 4]
  | _ => [ad % 4]

def passTiles (p : Pass) : List Nat := p.tw :: streamTiles p.shape p.ts
def passBanks (p : Pass) : List Nat := destBanks p.shape p.ad

/-- Vector registers a queued entry reads, implied ones included (R127). -/
def entryReadsV (e : VEntry) : List Nat :=
  match e.op with
  | .add | .sub | .min | .max | .and | .or | .xor | .cmp | .mul | .mulh | .mulsh | .perm => [e.a, e.b]
  | .abs | .neg | .clz | .bcast | .movg | .redsum | .redmax | .redmin | .tstp | .twr | .awr | .stl | .st | .fn =>
    [e.a]
  | .shl | .shr | .shrl => if e.useLanes then [e.a, e.b] else [e.a]
  | .sel => [e.a, e.b, e.c]
  | .req => if e.useLanes then [e.a, (e.a + 1) % 32] else [e.a]
  | .movv | .trd | .tsc | .ard | .areq | .wid | .ldl | .ld | .rng => []

/-- The vector register a queued entry writes. -/
def entryWritesV (e : VEntry) : List Nat :=
  match e.op with
  | .movg | .tstp | .twr | .awr | .req | .areq | .wid | .stl | .st => []
  | _ => [e.d]

def entryReadsT (e : VEntry) : List Nat :=
  match e.op with
  | .trd | .tsc => [e.c]
  | .wid => [e.a]
  | _ => []

def entryWritesT (e : VEntry) : List Nat :=
  match e.op with
  | .twr | .req | .areq | .wid => [e.c]
  | _ => []

def entryReadsB (e : VEntry) : List Nat :=
  match e.op with
  | .ard => [e.c % 4]
  | .areq => if e.useLanes then [e.b % 4, (e.b + 1) % 4] else [e.b % 4]
  | _ => []

def entryWritesB (e : VEntry) : List Nat :=
  match e.op with
  | .awr => [e.c % 4]
  | _ => []

/-- Entries of the vector unit that have not written their result. -/
def vecOpen (k : Core) : List VEntry := k.vq ++ k.vrun.map (·.entry)

/-- Some instruction in flight of context `n` with issue order below `o` names tile `t` as a read or as a
write (R104). -/
def tileReadBefore (k : Core) (n t o : Nat) : Bool :=
  k.aq.any (fun p => p.ctx == n && decide (p.order < o) && (passTiles p).contains t) ||
  (vecOpen k).any (fun e => e.ctx == n && decide (e.order < o) && (entryReadsT e).contains t) ||
  k.moves.any (fun m => m.ctx == n && decide (m.order < o) && m.tile == t && !m.load) ||
  k.rsrq.any fun q => q.ctx == n && decide (q.order < o) && q.sys % 16 == t

def tileLoadBefore (k : Core) (n t o : Nat) : Bool :=
  k.moves.any fun m => m.ctx == n && decide (m.order < o) && m.tile == t && m.load

def tileVecWriteBefore (k : Core) (n t o : Nat) : Bool :=
  (vecOpen k).any fun e => e.ctx == n && decide (e.order < o) && (entryWritesT e).contains t

/-- Some in-flight instruction of the context names the tile (R106). -/
def tileNamed (k : Core) (n t : Nat) : Bool :=
  let o := (ctxOf k n).order
  tileReadBefore k n t o || tileLoadBefore k n t o || tileVecWriteBefore k n t o

def bankPassBefore (k : Core) (n b o : Nat) : Bool :=
  k.aq.any fun p => p.ctx == n && decide (p.order < o) && (passBanks p).contains b

def bankVecWriteBefore (k : Core) (n b o : Nat) : Bool :=
  (vecOpen k).any fun e => e.ctx == n && decide (e.order < o) && (entryWritesB e).contains b

def bankVecUseBefore (k : Core) (n b o : Nat) : Bool :=
  (vecOpen k).any fun e => e.ctx == n && decide (e.order < o) &&
    ((entryWritesB e).contains b || (entryReadsB e).contains b)

end Sys2Proof.Machine
end

