-- ==== Sys2Proof/Machine/Flags.lean ====
section
/-! DEFINITION. Block-scaled integer arithmetic (02) and every flag it sets: rounding, the choice of a scale,
requantization, widening, alignment, the clamp of checked lanes with its poison bit, the status words, and the
headroom check of a reduction block. -/

namespace Sys2Proof.Machine
open Sys2Proof

/-! ## Formats (R35, R40) -/

/-- Fraction bits F of a format. -/
def fracBits (fmt : Nat) : Nat :=
  match fmt with
  | 1 => 6
  | 2 => 2
  | 3 => 14
  | _ => 0

/-- Largest produced magnitude qmax. -/
def qmax (fmt : Nat) : Nat :=
  match fmt with
  | 1 => 127
  | 2 => 7
  | 3 => 32767
  | _ => 2147483647

/-- Elements per block. -/
def blockSize (fmt : Nat) : Nat := if fmt = 3 then 16 else 32

/-- Bits per element. -/
def elemBits (fmt : Nat) : Nat :=
  match fmt with
  | 1 => 8
  | 2 => 4
  | 3 => 16
  | _ => 32

/-- The elements of row bytes in ascending order (R38). -/
def rowElems (fmt : Nat) (bytes : List Byte) : List Int :=
  let v := ofBytes bytes
  (List.range (8 * bytes.length / elemBits fmt)).map fun i =>
    signed (elemBits fmt) (v / 2 ^ (elemBits fmt * i))

/-- The bytes of elements in ascending order (R38), little-endian within an element. -/
def elemBytes (fmt n : Nat) (xs : List Int) : List Byte :=
  toBytes n (xs.foldr (fun x acc => lowBits (elemBits fmt) x + 2 ^ elemBits fmt * acc) 0)

/-! ## Rounding (R44, R51, R130) -/

/-- `a` divided by 2^n, rounded to the nearest integer, ties to even (R44, R51, R130). -/
def rsh (a : Int) (n : Nat) : Int :=
  let q := a / (2 ^ n : Int)
  let r := a - q * 2 ^ n
  if 2 * r > 2 ^ n ∨ (2 * r = 2 ^ n ∧ q % 2 = 1) then q + 1 else q

/-- The exact value D × 2^s for s ≥ 0, else nearest-even (R44). -/
def shiftRound (d s : Int) : Int := if 0 ≤ s then d * 2 ^ s.toNat else rsh d (-s).toNat

/-- Rounding of an element by 2^n (R51); mode 0 nearest-even, 1 stochastic, 2 truncation, `u` the draw. -/
def roundElem (mode : Nat) (u : Nat) (x n : Int) : Int :=
  if n ≤ 0 then x * 2 ^ (-n).toNat
  else
    let k := n.toNat
    let q := x / (2 ^ k : Int)
    let r := x - q * 2 ^ k
    if mode = 1 then (if ((u * 2 ^ k / 2 ^ 32 : Nat) : Int) < r then q + 1 else q)
    else if mode = 2 then (if r ≠ 0 ∧ x < 0 then q + 1 else q)
    else rsh x k

/-- The shift exponent n of scale byte e (R50). -/
def scaleShift (e f : Nat) (q : Int) : Int := (e : Int) - 127 - f - q

/-- M ≤ qmax × 2^n, by exact integer comparison (R50). -/
def scaleFits (m qm : Nat) (n : Int) : Bool :=
  if 0 ≤ n then decide (m ≤ qm * 2 ^ n.toNat) else decide (m * 2 ^ (-n).toNat ≤ qm)

/-- The smallest scale byte from `e` on, within `fuel` steps, that fits; 255 (OVF) if none does (R50). -/
def chooseScale (m qm f : Nat) (q : Int) : Nat → Nat → Nat
  | 0, _ => 255
  | fuel + 1, e => if scaleFits m qm (scaleShift e f q) then e else chooseScale m qm f q fuel (e + 1)

def largest (xs : List Int) : Nat := xs.foldl (fun m x => max m x.natAbs) 0

/-- The scale byte of a block of source values (R50). -/
def blockScale (fmt : Nat) (q : Int) (xs : List Int) : Nat :=
  chooseScale (largest xs) (qmax fmt) (fracBits fmt) q 255 0

/-- The elements of a block under its scale byte (R37, R51). `us` are the draws of its elements. -/
def blockElems (fmt mode e : Nat) (q : Int) (xs : List Int) (us : List Nat) : List Int :=
  if e = 255 then xs.map fun _ => 0
  else (xs.zip us).map fun p => roundElem mode p.2 p.1 (scaleShift e (fracBits fmt) q)

/-! ## Products (R43, R44) -/

/-- The product exponent P of two scale bytes (R43). -/
def productExp (fmt ea eb : Nat) : Int :=
  ((ea : Int) - 127) + ((eb : Int) - 127) - (2 * fracBits fmt : Nat)

def dot : List Int → List Int → Int
  | a :: as, b :: bs => a * b + dot as bs
  | _, _ => 0

/-- The aligned contribution of one block (R44); an OVF operand block contributes nothing (R47). -/
def contribution (fmt : Nat) (q : Int) (ea eb : Nat) (d : Int) : Int :=
  if ea = 255 ∨ eb = 255 then 0 else shiftRound d (productExp fmt ea eb - q)

/-- Limits of a produced int32 (R35, R46, R128). -/
def intMax : Int := 2147483647

/-- The nearer limit for a sum outside ±2,147,483,647 (R46, R128). -/
def clampInt (x : Int) : Int := max (-intMax) (min intMax x)

def outside (x : Int) : Bool := decide (x < -intMax) || decide (intMax < x)

/-! ## Lanes and poison (R128, R129) -/

/-- A checked lane result: the lane and whether it overflowed (R128). -/
def checkedLane (w : Bool) (x : Int) : Word32 × Bool :=
  if w then (BitVec.ofInt 32 x, false) else (BitVec.ofInt 32 (clampInt x), outside x)

/-- The poison bits of the quarters in which some lane of the list is marked (R126, R129). -/
def quarterPoison (marks : List Bool) : BitVec 4 :=
  BitVec.ofNat 4 ((List.range 4).foldl (fun acc q =>
    acc + if (List.range 16).any (fun i => marks.getD (16 * q + i) false) then 2 ^ q else 0) 0)

/-- All four bits set if any bit of any source is, or an overflow occurred (R129). -/
def anyPoison (b : Bool) : BitVec 4 := if b then 15 else 0

/-! ## Status words (R49, R64, R92, R154) -/

def bankWord (b : BankStatus) : Nat :=
  b.aexp.toNat + 2 ^ 10 * b2n b.aexpSet + 2 ^ 11 * b2n b.ovfl + 2 ^ 12 * b2n b.psni

def stateCode (c : CtxState) : Nat :=
  match c with
  | .free => 0 | .ready => 1 | .running => 2 | .waitMem => 3 | .waitPage => 4 | .waitTag => 5
  | .waitSem => 6 | .waitTcfg => 7 | .waitUnit => 8 | .done => 9 | .faulted => 10

def causeCode (c : Cause) : Nat :=
  match c with
  | .translation => 1 | .permission => 2 | .memError => 3 | .integrity => 4 | .illegalInstr => 5
  | .tileConfig => 6 | .align => 7 | .bounds => 8 | .watchdog => 9 | .poison => 10
  | .semOverflow => 11 | .taskStateDirty => 12 | .aborted => 0x50

/-- CTX_STATUS of context `n` (R64). -/
def ctxStatus (x : Ctx) (n : Nat) : Nat :=
  stateCode x.st + 2 ^ 4 * (n % 8) + 2 ^ 8 * (match x.cause with | some c => causeCode c | none => 0) +
  2 ^ 16 * b2n x.imprecise + 2 ^ 17 * b2n x.multi + 2 ^ 18 * x.tenant.toNat + 2 ^ 32 * x.taskSeq.toNat

/-- SEM_STATE (R154). -/
def semWord (v : Sem) : Nat := v.count % 2 ^ 16 + 2 ^ 16 * b2n v.ovf

/-- The owner of a tile: a bound context whose mask names it (R92). -/
def tileOwner (k : Core) (t : Nat) : Option Nat :=
  (List.range 8).find? fun n => (ctxOf k n).st != .free && ownsTile (ctxOf k n) t

/-- TILE_STATE (R92). -/
def tileStateWord (k : Core) (t : Nat) : Nat :=
  (match tileOwner k t with | some n => n + 8 | none => 0) + 16 * b2n ((tileOf k t).rowv != 0)

/-- The headroom exponent h = ceil(log2 N) (R55). -/
def headroom (n : Nat) : Nat := if n ≤ 1 then 0 else Nat.log2 (n - 1) + 1

/-- An element fails the headroom check of fan-in N (R55). -/
def headroomFails (n : Nat) (xs : List Int) : Bool :=
  xs.any fun x => decide ((x.natAbs : Int) ≥ 2 ^ (31 - headroom n))

/-- The int32 sum of two reduction blocks of 32 elements, a missing element 0; a poison result carries zeros (R57). -/
def addBlocks (xs ys : List Int) (p : Bool) : List Int :=
  if p then List.replicate 32 0
  else (List.range 32).map fun i => signed 32 (lowBits 32 (xs.getD i 0 + ys.getD i 0))

/-! ## Widening (R58) -/

/-- One block widened: its output blocks with their scale bytes. -/
def widenBlock (src dst e : Nat) (xs : List Int) : List (Nat × List Int) :=
  let ys := if e = 255 then xs.map (fun _ => (0 : Int))
            else xs.map fun x => x * 2 ^ (fracBits dst - fracBits src)
  if dst = 3 then [(e, ys.take 16), (e, ys.drop 16)] else [(e, ys)]

/-- The shift of a widening to I32 with exponent S; negative where R58 does not allow it. -/
def widenShift (src e : Nat) (sx : Int) : Int := (e : Int) - 127 - fracBits src - sx

/-! ## CRC-32C and Philox (R135, R334) -/

/-- Philox-4x32-10: ten rounds from key `k` and counter `x` (R135). -/
def philoxRounds : Nat → Word32 × Word32 → Word32 × Word32 × Word32 × Word32 →
    Word32 × Word32 × Word32 × Word32
  | 0, _, x => x
  | n + 1, (k0, k1), (x0, x1, x2, x3) =>
    let p0 : Word64 := (0xD2511F53 : Word64) * x0.setWidth 64
    let p1 : Word64 := (0xCD9E8D57 : Word64) * x2.setWidth 64
    philoxRounds n (k0 + 0x9E3779B9, k1 + 0xBB67AE85)
      ((p1 >>> 32).setWidth 32 ^^^ x1 ^^^ k0, p1.setWidth 32,
       (p0 >>> 32).setWidth 32 ^^^ x3 ^^^ k1, p0.setWidth 32)

/-- The draw D(key, c, s, j) (R135). -/
def draw (key c s : Word64) (j : Nat) : Word32 :=
  let n : Word64 := c * 32 + BitVec.ofNat 64 (j / 4)
  let r := philoxRounds 10 (key.setWidth 32, (key >>> 32).setWidth 32)
    (n.setWidth 32, (n >>> 32).setWidth 32, s.setWidth 32, (s >>> 32).setWidth 32)
  match j % 4 with
  | 0 => r.1
  | 1 => r.2.1
  | 2 => r.2.2.1
  | _ => r.2.2.2

end Sys2Proof.Machine
end

