-- ==== Sys2Proof/Machine/Ops.lean ====
section
/-! DEFINITION. The shared operations of a core: counters, the local store, translation, requests and tags,
faults, waking, and the issue of one instruction with its guard, hazards and faults. -/

namespace Sys2Proof.Machine
open Sys2Proof

/-! ## Numbers and counters -/

/-- A fresh number for a request or a queue entry. -/
def freshId (s : State) : Nat × State := (s.nextId, { s with nextId := s.nextId + 1 })

/-- A free value: what the spec leaves open, read at the counter of the state (log entry 2). -/
def freeValue (s : State) : Word64 × State := (Config.freeWord s.free, { s with free := s.free + 1 })

/-- `n` free bits, each of its own (log entry 2). -/
def freeBits (s : State) (n : Nat) : (Nat → Bool) × State :=
  (fun i => (Config.freeWord (s.free + i / 64)).getLsbD (i % 64), { s with free := s.free + n / 64 + 1 })

def ctxBump (k : Core) (n sys m : Nat) : Core :=
  let x := ctxOf k n
  setCtx k n { x with counters := bump x.counters sys m }

def coreBump (k : Core) (sys m : Nat) : Core := { k with counters := bump k.counters sys m }

def onCore (s : State) (c : Nat) (f : Core → Core) : State := setCore s c (f (coreOf s c))
def onCtx (s : State) (c n : Nat) (f : Ctx → Ctx) : State :=
  onCore s c fun k => setCtx k n (f (ctxOf k n))

/-! ## Place of a core (R18) -/

def placeOf (s : State) (c : Nat) : Nat × Nat := look (0, 0) s.grid.map c
def foldAt (x y : Nat) : Nat := y / 4 * 8 + x / 2
def foldOf (s : State) (c : Nat) : Nat := foldAt (placeOf s c).1 (placeOf s c).2
def bandOf (s : State) (c : Nat) : Nat := (placeOf s c).2 / 4

/-- The copy of fabric time in a clock domain, within 20 ns of the count (R317, log entry 204). Domains of R492: 0 to 5 the row bands,
6 NCLK, 7 DCLK, 8 and 9 those of the link dies. -/
def copyOf (s : State) (domain : Nat) : Nat := s.ftime + Config.copySkew domain s.ftime % 41 - 20

theorem copyOf_near (s : State) (d : Nat) : s.ftime ≤ copyOf s d + 20 ∧ copyOf s d ≤ s.ftime + 20 := by
  unfold copyOf; omega

/-- CCLK cycles since the last core reset (R154). -/
def cyclesOf (s : State) (c : Nat) : Nat :=
  ((look {} s.bands (bandOf s c)).eighths - (coreOf s c).resetAt) / 8

/-! ## The local store (R70 to R74) -/

def lsAddr (c off : Nat) : Nat := Config.lsBase + c * 0x100000 + off
def inLs (pa : Nat) : Bool := decide (Config.lsBase ≤ pa) && decide (pa < Config.lsEnd)
def inOwnLs (c pa : Nat) : Bool := inLs pa && (pa - Config.lsBase) / 0x100000 == c
/-- An access that leaves the 640 KiB of a window that are backed (R72). -/
def pastLs (pa n : Nat) : Bool := inLs pa && decide ((pa - Config.lsBase) % 0x100000 + n > Config.lsBytes)

/-- The 8-byte words that `n` bytes at `pa` cover. -/
def wordsOf (pa n : Nat) : List Nat := (List.range ((pa + n + 7) / 8 - pa / 8)).map (pa / 8 + ·)

/-- One lasting error of a core (R74, R431). -/
def countLasting (s : State) (c : Nat) : State :=
  onCore s c fun k => { k with lasting := s.ftime :: k.lasting }

/-- One transient error of a core's SRAM (R430, R477). -/
def countTransient (s : State) (c : Nat) : State :=
  { onCore s c (fun k => coreBump k 0x15E 1) with plover := { s.plover with dieReplay := s.plover.dieReplay + 1 } }

/-- A read of tile, strip, bank, vector-register or stationary-set words with its one retry (R430): whether it failed. -/
def sramRead (s : State) (c : Nat) (out : PortOutcome) : State × Bool :=
  match out with
  | .lasting => (countLasting s c, true)
  | .transient => (countTransient s c, false)
  | _ => (s, false)

/-- The words that a lasting error leaves unreadable: at least one of those the read covers; which ones is open (R74, log
entry 53). -/
def failedWords (s : State) (ws : List Nat) : List Nat :=
  let first := (Config.freeWord s.free).toNat % ws.length
  (ws.zipIdx.filter fun w => w.2 == first || (Config.freeWord (s.free + 1 + w.2)).getLsbD 0).map (·.1)

/-- A read of local-store bytes with its parity check and one re-read (R74). -/
def lsRead (s : State) (pa n : Nat) (out : PortOutcome) : State × Option (List Byte) :=
  let c := (pa - Config.lsBase) / 0x100000
  if (wordsOf pa n).any (fun w => (tabFind s.badWords w).isSome) then (countLasting s c, none)
  else match out with
    | .lasting =>
      ({ countLasting s c with
          badWords := (failedWords s (wordsOf pa n)).foldl (fun b w => put b w Cause.memError) s.badWords
          free := s.free + 1 + (wordsOf pa n).length }, none)
    | .transient => (countTransient s c, some (bytesAt s.mem pa n))
    | _ => (s, some (bytesAt s.mem pa n))

/-- Words wholly covered by a write become readable again (R74). -/
def clearWords (bad : Tab Cause) (pa n : Nat) : Tab Cause :=
  bad.filter fun p => !(decide (pa ≤ p.1 * 8) && decide (p.1 * 8 + 8 ≤ pa + n))

def lsWrite (s : State) (pa : Nat) (bytes : List Byte) : State :=
  { s with mem := setBytes s.mem pa bytes, badWords := clearWords s.badWords pa bytes.length }

/-! ## Translation (R75, R76, R260 to R262) -/

def pteV (p : Word64) : Bool := p.getLsbD 0
def pteRes (p : Word64) : Bool := p.getLsbD 5
def pteTier (p : Word64) : Nat := field p 6 2
def ptePin (p : Word64) : Bool := p.getLsbD 8
def pteAcc (p : Word64) : Bool := p.getLsbD 9
def pteDirty (p : Word64) : Bool := p.getLsbD 10
def ptePaged (p : Word64) : Bool := p.getLsbD 11
def pteAddr (p : Word64) : Nat := field p 12 40 * 4096
def pteBroken (p : Word64) : Nat := field p 52 2
def setPteAddr (p : Word64) (a : Nat) : Word64 := setField p 12 40 (a / 4096)

/-- The region of a physical address as a TIER code, none for a region R254 excludes. -/
def tierOf (a : Nat) : Option Nat :=
  if a < Config.midBase then some 0
  else if a < Config.farBase then some 1
  else if a < Config.farEnd then some 2
  else if inLs a then some 3
  else none

def pageBytes (big : Bool) : Nat := if big then Config.page1G else Config.page2M

/-- A malformed leaf of a page of this size (R261, R262 item 2). -/
def pteMalformed (p : Word64) (big : Bool) : Bool :=
  field p 54 10 != 0 || !p.getLsbD 4 || pteBroken p == 3 ||
  (pteRes p && (tierOf (pteAddr p) != some (pteTier p) || pteAddr p % pageBytes big != 0))

def tenantOf (s : State) (t : Nat) : Tenant := look {} s.tenants t
def setTenant (s : State) (t : Nat) (x : Tenant) : State := { s with tenants := put s.tenants t x }

/-- The leaf that maps a virtual address, and whether it is a 1 GiB leaf (R260). -/
def leafOf (s : State) (t va : Nat) : Option (Leaf × Bool) :=
  match tabFind (tenantOf s t).small (va / Config.page2M) with
  | some l => some (l, false)
  | none => match tabFind (tenantOf s t).big (va / Config.page1G) with
    | some l => some (l, true)
    | none => none

def setLeaf (s : State) (t va : Nat) (big : Bool) (l : Leaf) : State :=
  let x := tenantOf s t
  setTenant s t (if big then { x with big := put x.big (va / Config.page1G) l }
                 else { x with small := put x.small (va / Config.page2M) l })

/-! The tables of a tenant's tree (R260, R261): they hold nothing but its leaves and the pointers to them, so their entries
are read from the leaves. Where Uango lets a table stand is its own choice (log entry 154). -/

/-- The address of a table, 4 KiB aligned in Near and spread over its eight stacks (R260): the L0 table, the L1 table of a 512 GiB region, or the L2 table of a 1 GiB region. -/
def tableAddr (t level i : Nat) : Nat := i % 8 * 2 ^ 36 + Config.tableAt t level i % 2 ^ 24 * 4096

/-- A non-leaf entry: V, LEAF = 0 and ADDR (R261). -/
def pointerTo (addr : Nat) : Word64 := BitVec.ofNat 64 (1 + addr)

/-- Entry of the L0 table for a virtual address. -/
def l0Entry (s : State) (t va : Nat) : Word64 :=
  let x := tenantOf s t
  let i := va / 2 ^ 39
  if x.small.any (fun e => e.1 / 2 ^ 18 == i) || x.big.any (fun e => e.1 / 512 == i) then pointerTo (tableAddr t 1 i) else 0

/-- Entry of the L1 table: a pointer to an L2 table, or a leaf of 1 GiB. -/
def l1Entry (s : State) (t va : Nat) : Word64 :=
  let x := tenantOf s t
  let i := va / Config.page1G
  if x.small.any (fun e => e.1 / 512 == i) then pointerTo (tableAddr t 2 i)
  else match tabFind x.big i with | some l => l.pte | none => 0

/-- Entry of the L2 table: a leaf of 2 MiB. -/
def l2Entry (s : State) (t va : Nat) : Word64 :=
  match tabFind (tenantOf s t).small (va / Config.page2M) with | some l => l.pte | none => 0

inductive WalkOut where
  | fault (c : Cause) (malformed : Bool)
  | page                       -- mapped, not resident
  | ok (l : Leaf) (big : Bool)
  deriving DecidableEq, Repr

/-- A paging counter of a tenant (R276): 0 PG_FAULTS, 1 PG_PAGEINS, 2 PG_EVICT_DIRTY, 3 PG_EVICT_CLEAN,
4 PG_ABANDONED, 5 PG_WAIT_NS. -/
def pgBump (s : State) (t i m : Nat) : State :=
  let x := tenantOf s t
  setTenant s t { x with pg := bump x.pg i m }

/-- One context enters WAIT_PAGE (R276). -/
def countPageWait (s : State) (t : Nat) : State := pgBump s t 0 1

/-- The outcome of a walk, in the order of R262. Access 0 read, 1 write, 2 instruction fetch. -/
def walkOut (s : State) (t va acc : Nat) : WalkOut :=
  if 2 ^ 48 ≤ va then .fault .translation false
  else match leafOf s t va with
  | none => .fault .translation false
  | some (l, big) =>
    if !pteV l.pte then .fault .translation false
    else if pteMalformed l.pte big then .fault .translation true
    else if !l.pte.getLsbD (acc + 1) then .fault .permission false
    else if pteBroken l.pte = 1 then .fault .memError false
    else if pteBroken l.pte = 2 then .fault .integrity false
    else if !pteRes l.pte then .page
    else .ok l big

/-- The walker raises a walker-integrity event to Uango where it meets a malformed entry (R262). -/
def noteMalformed (s : State) (t va acc : Nat) : State :=
  match walkOut s t va acc with
  | .fault _ true => { s with telem := { s.telem with internal := s.telem.internal + 1 } }
  | _ => s

/-- Set ACC, and DIRTY at a write (R261, R262). -/
def touchLeaf (s : State) (t va acc : Nat) (l : Leaf) (big : Bool) : State :=
  let p := setField l.pte 9 1 1
  setLeaf s t va big { l with pte := if acc = 1 then setField p 10 1 1 else p }

def entryHits (e : TlbEntry) (t va : Nat) : Bool :=
  e.tenant == t && e.vpn == va / pageBytes e.big

inductive Xlate where
  | hit (pa : Nat)
  | miss
  | denied
  deriving DecidableEq, Repr

/-- The translation cache (R75): a write through an entry installed clean walks again (R262). -/
def xlate (k : Core) (t va acc : Nat) : Xlate :=
  match k.tlb.find? (entryHits · t va) with
  | none => .miss
  | some e =>
    if !(match acc with | 0 => e.r | 1 => e.w | _ => e.x) then .denied
    else if acc = 1 ∧ !e.dirtyOk then .miss
    else .hit (e.addr + va % pageBytes e.big)

/-- A hit makes the entry the most recently used of its part (R75). -/
def tlbTouch (k : Core) (t va : Nat) : Core :=
  { k with tlb := k.tlb.filter (entryHits · t va) ++ k.tlb.filter (fun e => !entryHits e t va) }

/-- Keep the `n` newest entries of one part (R75). -/
def tlbTrim (big : Bool) : Nat → List TlbEntry → List TlbEntry
  | _, [] => []
  | n, e :: t =>
    if e.big == big then (match n with | 0 => tlbTrim big 0 t | m + 1 => e :: tlbTrim big m t)
    else e :: tlbTrim big n t

def tlbInstall (k : Core) (t va acc : Nat) (l : Leaf) (big : Bool) : Core :=
  let e : TlbEntry := { tenant := t, big := big, vpn := va / pageBytes big, addr := pteAddr l.pte,
                        r := l.pte.getLsbD 1, w := l.pte.getLsbD 2, x := l.pte.getLsbD 3,
                        dirtyOk := pteDirty l.pte || acc == 1 }
  { k with tlb := tlbTrim true 16 (tlbTrim false 64 (e :: k.tlb.filter (fun o => !entryHits o t va))) }

/-- A walk answers the accesses to its page (R75). -/
def walkCovers (w : Walk) (t va : Nat) : Bool :=
  w.tenant == t && (if w.big then w.page * Config.page2M / Config.page1G == va / Config.page1G else w.page == va / Config.page2M)

/-- Ask the Fold's walker; misses of several contexts to one page share one walk (R75). -/
def addWalk (s : State) (c t va : Nat) : State :=
  let f := foldOf s c
  let fd := look {} s.folds f
  let w : Walk := { tenant := t, page := va / Config.page2M
                    big := match leafOf s t va with | some (_, big) => big | none => false }
  if fd.walks.any (walkCovers · t va) then s
  else { s with folds := put s.folds f { fd with walks := fd.walks ++ [w] } }

/-! ## What is outstanding (R67, R168) -/

def storesBefore (s : State) (c n o : Nat) : Bool :=
  s.reqs.any (fun r => r.core == c && r.ctx == n && r.write && decide (r.order < o)) ||
  (coreOf s c).moves.any (fun m => m.ctx == n && !m.load && decide (m.order < o)) ||
  (vecOpen (coreOf s c)).any (fun e => e.ctx == n && (e.op == .st || (e.op == .stl && e.own)) && decide (e.order < o))

def isPrefetch (w : Requester) : Bool := match w with | .prefetch _ => true | _ => false

/-- The data of a vld has reached its context, which went on; its entry has not started. -/
def delivered (s : State) (r : MemReq) : Bool :=
  match r.who with
  | .vectorLoad _ _ => decide (r.order < (stCtx s r.core r.ctx).order)
  | _ => false

/-- The data of a read has returned to the core (R168): a vld waits only for its place in the queue, a tload for its rows. -/
def returned (s : State) (r : MemReq) : Bool :=
  match r.who, r.st with
  | .tileRows _ _ _, .done _ => !r.tagged
  | .tileScales _ _ _, .done _ => !r.tagged
  | _, _ => delivered s r

def readsBefore (s : State) (c n o : Nat) : Bool :=
  s.reqs.any (fun r => r.core == c && r.ctx == n && !r.write && !isPrefetch r.who && decide (r.order < o) && !returned s r) ||
  (coreOf s c).moves.any (fun m => m.ctx == n && m.load && decide (m.order < o) && m.plan != []) ||
  (coreOf s c).vq.any (fun e => e.ctx == n && e.op == .ldl && e.own && decide (e.order < o))

def enginesBefore (s : State) (c n o : Nat) : Bool :=
  (coreOf s c).eq.any (fun e => e.ctx == n && decide (e.order < o)) ||
  (coreOf s c).engOpen.any (fun e => e.1 == n && decide (e.2.1 < o))

def unitsBefore (s : State) (c n o : Nat) : Bool :=
  let k := coreOf s c
  k.aq.any (fun p => p.ctx == n && decide (p.order < o)) ||
  (vecOpen k).any (fun e => e.ctx == n && decide (e.order < o)) ||
  k.moves.any (fun m => m.ctx == n && decide (m.order < o)) ||
  k.rsrq.any (fun q => q.ctx == n && decide (q.order < o))

/-- The condition a fence of these classes waits for (R168). -/
def fenceMet (s : State) (c n mask : Nat) : Bool :=
  let o := (stCtx s c n).order
  !(mask.testBit 0 && storesBefore s c n o) && !(mask.testBit 1 && readsBefore s c n o) &&
  !(mask.testBit 2 && enginesBefore s c n o) && !(mask.testBit 3 && unitsBefore s c n o)

/-! ## Waking (R67) -/

def regPending (k : Core) (n r : Nat) : Bool :=
  r != 0 && ((ctxOf k n).pendRegs.contains r ||
    (match k.divide with | some d => d.ctx == n && d.d == r | none => false))

def predPending (k : Core) (n p : Nat) : Bool := p != 0 && (ctxOf k n).pendPreds.contains p

/-- The condition under which a waiting context becomes READY without an event of its own. -/
def waitOver (k : Core) (n : Nat) (w : Wait) : Bool :=
  let o := (ctxOf k n).order
  match w with
  | .sem q => decide (0 < (semOf k q).count)
  | .tileLoad t => !tileLoadBefore k n t o
  | .tileWrite t => !tileVecWriteBefore k n t o
  | .tileAny t => !tileNamed k n t
  | .arrayQueue => decide (k.aq.length < 8)
  | .vectorQueue => decide (k.vq.length < 16)
  | .engineQueue => decide (k.eq.length < 8)
  | .moveUnit => decide (k.moves.length < 12)
  | .rows _ => !k.moves.any fun m => m.ctx == n && !m.whole
  | .vreg v => !(vecOpen k).any fun e => e.ctx == n && (entryWritesV e).contains v
  | .divider => k.divide.isNone
  | .reg r => !regPending k n r
  | .pred p => !predPending k n p
  | .bankStatus b => !bankPassBefore k n b o && !bankVecWriteBefore k n b o
  | _ => false

def isWaiting (c : CtxState) : Bool :=
  match c with
  | .waitMem | .waitPage | .waitTag | .waitSem | .waitTcfg | .waitUnit => true
  | _ => false

def readyCtx (x : Ctx) : Ctx := { x with st := .ready, wait := .none }

/-- Work of a restored task still has to enter its queues again: the context issues nothing before it has (R120). -/
def comingBack (x : Ctx) : Bool := !(x.backP.isEmpty && x.backV.isEmpty)

def rowsWait (w : Wait) : Bool := match w with | .rows _ => true | _ => false
def semWaits (w : Wait) : Bool := match w with | .sem _ => true | _ => false
def waitSem (w : Wait) : Nat := match w with | .sem q => q | _ => 0

/-- Wake one context: READY where its condition is met. An exit whose work is done enters DONE (R153). A wait
whose semaphore has a count consumes it as the context becomes READY (R69, and step 6 of the worked example of
14); a wait on a saturated semaphore issues again and faults (R80). The time in WAIT_PAGE is counted (R276). -/
def wakeCtx (s : State) (c n : Nat) : State :=
  let k := coreOf s c
  let x := ctxOf k n
  if !isWaiting x.st || comingBack x then s
  else if x.wait = .exit then
    (if fenceMet s c n 15 then setCore s c (setCtx k n { x with st := .done, wait := .none }) else s)
  else if semWaits x.wait && waitOver k n x.wait && !(semOf k (waitSem x.wait)).ovf then
    let v := semOf k (waitSem x.wait)
    setCore s c (setCtx (setSem k (waitSem x.wait) { v with count := v.count - 1 }) n
      { readyCtx x with pc := x.pc + 8, order := x.order + 1 })
  else if waitOver k n x.wait then
    let s1 := setCore s c (setCtx k n (readyCtx x))
    if rowsWait x.wait then pgBump s1 x.tenant.toNat 5 (s.ftime - x.pageAt) else s1
  else s

def tileRegister (k : Core) (sys : Nat) : Nat :=
  let t := sys % 16
  match sys / 16 with
  | 1 => (tileOf k t).cfg.toNat
  | 2 => tileStateWord k t
  | _ => (tileOf k t).rowv.toNat

/-- A restored vector entry of the context that has not entered the queue again precedes a read of tile `t` and writes it. -/
def comingWrite (x : Ctx) (t o : Nat) : Bool := x.backV.any fun e => decide (e.order < o) && (entryWritesT e).contains t

/-- rsr of a tile word held behind the vector writes that precede it delivers its result (R105, R149), those of a restored task
that have not entered their queue again among them (R120). -/
def settleRsr : List HeldRsr → Core → Core
  | [], k => k
  | q :: t, k =>
    let x := ctxOf k q.ctx
    if tileVecWriteBefore k q.ctx (q.sys % 16) q.order || comingWrite x (q.sys % 16) q.order then settleRsr t k
    else
      let v := BitVec.ofNat 64 (tileRegister k q.sys)
      let x' := writeG { x with pendRegs := x.pendRegs.erase q.d } q.d v
      settleRsr t (setCtx { k with rsrq := k.rsrq.erase q } q.ctx x')

/-- Passes and vector entries of a restored task enter their queues again in the order of issue, as there is room (R112,
R120, R127). -/
def requeue (n : Nat) : Nat → Core → Core
  | 0, k => k
  | fuel + 1, k =>
    let x := ctxOf k n
    match x.backP, x.backV with
    | [], [] => k
    | p :: ps, [] =>
      if 8 ≤ k.aq.length then k else requeue n fuel (setCtx { k with aq := k.aq ++ [p] } n { x with backP := ps })
    | [], e :: es =>
      if 16 ≤ k.vq.length then k else requeue n fuel (setCtx { k with vq := k.vq ++ [e] } n { x with backV := es })
    | p :: ps, e :: es =>
      if p.order < e.order then
        if 8 ≤ k.aq.length then k else requeue n fuel (setCtx { k with aq := k.aq ++ [p] } n { x with backP := ps })
      else if 16 ≤ k.vq.length then k else requeue n fuel (setCtx { k with vq := k.vq ++ [e] } n { x with backV := es })

def requeueAll (k : Core) : Core :=
  (List.range 8).foldl (fun k n => requeue n ((ctxOf k n).backP.length + (ctxOf k n).backV.length) k) k

/-! ## Requests and tags (R67, R519) -/

/-- A tag is free for a context: one TAG_FREE gave it, or one that no earlier requester waits for. -/
def tagFreeFor (k : Core) (x : Ctx) (write : Bool) : Bool :=
  x.granted.contains write ||
  (decide ((if write then k.writeTags else k.readTags) < 64) && !k.tagQueue.any (fun q => q.2 == write))

def takeTag (k : Core) (n : Nat) (write : Bool) : Core :=
  let x := ctxOf k n
  if x.granted.contains write then setCtx k n { x with granted := x.granted.erase write }
  else if write then { k with writeTags := k.writeTags + 1 } else { k with readTags := k.readTags + 1 }

/-- Add a request to the list; its number is the old counter. -/
def addReq (s : State) (r : MemReq) : State :=
  { s with reqs := s.reqs ++ [{ r with id := s.nextId }], nextId := s.nextId + 1 }

/-! ## The prefetch buffer (R273 to R275) -/

def pfMask (pa n : Nat) : Nat :=
  (List.range 16).foldl (fun m i =>
    if decide (pa % 1024 / 64 ≤ i) && decide (i ≤ (pa % 1024 + n - 1) / 64) then m + 2 ^ i else m) 0

def pfLine (k : Core) (t pa : Nat) : Option PfLine :=
  k.pf.find? fun l => l.blk == pa / 1024 && l.tenant == t

/-- The bytes lie within one line's valid bytes (some true), or within bytes still awaited (some false). -/
def pfServes (k : Core) (t pa n : Nat) : Option Bool :=
  match pfLine k t pa with
  | none => none
  | some l =>
    let m := BitVec.ofNat 16 (pfMask pa n)
    if (pa + n - 1) / 1024 ≠ pa / 1024 then none
    else if m &&& l.valid = m ∧ m &&& l.awaitMask = 0 then some true
    else if m &&& (l.valid ||| l.awaitMask) = m then some false
    else none

/-- The first read served from a line is counted (R276). -/
def pfUse (k : Core) (t pa : Nat) (timely : Bool) : Core :=
  match pfLine k t pa with
  | none => k
  | some l =>
    let rest := k.pf.filter fun o => !(o.blk == l.blk && o.tenant == l.tenant)
    let k1 := { k with pf := { l with used := true } :: rest }
    if l.used then k1
    else
      let k2 := coreBump k1 0x15B 1
      if timely then coreBump k2 0x15C 1 else k2

/-- Lines that hold any of these bytes are invalidated (R275); a line never read counts (R276). -/
def pfInvalidate (k : Core) (pa n : Nat) : Core :=
  let hit := fun (l : PfLine) => decide (l.blk * 1024 < pa + n) && decide (pa < l.blk * 1024 + 1024)
  let gone := k.pf.filter hit
  let k1 := { k with pf := k.pf.filter fun l => !hit l }
  coreBump k1 0x15D ((gone.filter fun l => !l.used).length)

/-! ## The tile-move unit's requests (R100, R274, R519) -/

/-- The move whose requests leave next: the unit works in the order of entry, and a tstore that has not read its rows holds
up what entered after it (R519). -/
def headMove (k : Core) : Option Move :=
  match k.moves.find? (·.plan != []) with
  | some m => if m.load || m.read then some m else none
  | none => none

/-- The requester of one part of a move. -/
def partWho (m : Move) (p : MovePart) : Requester :=
  if !m.load then .tileStore m.id
  else if p.scale then .tileScales m.id p.first p.count else .tileRows m.id p.first p.count

/-- A finished move leaves the unit; with the last part of a tload moved, SROW returns to 0 (R101). -/
def finishMove (k : Core) (m : Move) : Core :=
  let k1 := { k with moves := k.moves.filter fun o => o.id != m.id }
  let x := ctxOf k1 m.ctx
  if m.whole ∧ !x.resume then setCtx k1 m.ctx { x with srow := 0 } else k1

/-- The first part of a move has left the unit as request `id`; a tstore is complete with its last one (R101). -/
def popPart (k : Core) (m : Move) (id : Nat) : Core :=
  let m1 := { m with plan := m.plan.drop 1, open_ := if m.load then m.open_ ++ [id] else m.open_ }
  if !m.load && m1.plan == [] then finishMove k m1
  else { k with moves := k.moves.map fun o => if o.id == m.id then m1 else o }

/-- The request of one part. -/
def partReq (c : Nat) (k : Core) (m : Move) (p : MovePart) : MemReq :=
  { id := 0, core := c, ctx := m.ctx, order := m.order, who := partWho m p, write := !m.load, segs := p.segs, wdata := p.data
    va := p.va, tenant := (ctxOf k m.ctx).tenant.toNat }

/-- What the prefetch buffer answers to a part of a tload: nothing, bytes still awaited, or the bytes (R274). -/
def partBuffered (k : Core) (m : Move) (p : MovePart) : Option ReqState × Core :=
  let t := (ctxOf k m.ctx).tenant.toNat
  let lo := p.segs.foldl (fun a e => min a e.1) (p.segs.headD (0, 0)).1
  let len := p.segs.foldl (fun a e => max a (e.1 + e.2)) 0 - lo
  if !m.load then (none, k)
  else match pfServes k t lo len with
    | none => (none, k)
    | some false => (some .held, pfUse k t lo false)
    | some true =>
      (some (.done (match pfLine k t lo with
        | some l => p.segs.flatMap fun e => bytesAt l.data (e.1 % 1024) e.2
        | none => [])), pfUse k t lo true)

/-- The core with a tag of the kind taken. -/
def addTag (k : Core) (write : Bool) : Core :=
  if write then { k with writeTags := k.writeTags + 1 } else { k with readTags := k.readTags + 1 }

/-- A tag of the kind is free for the unit: none is waited for (R519). -/
def unitTag (k : Core) (write : Bool) : Bool :=
  decide ((if write then k.writeTags else k.readTags) < 64) && !k.tagQueue.any fun q => q.2 == write

/-- Send the first part of a move with a tag already taken. -/
def sendTagged (s : State) (c : Nat) (k : Core) (m : Move) (p : MovePart) : State :=
  addReq (setCore s c (popPart k m s.nextId)) (partReq c k m p)

/-- Send what can be sent, in order: from the prefetch buffer, with a free tag, or the unit waits for one. -/
def pumpMoves (c : Nat) : Nat → State → State
  | 0, s => s
  | fuel + 1, s =>
    let k := coreOf s c
    match headMove k with
    | none => s
    | some m => match m.plan with
      | [] => s
      | p :: _ => match partBuffered k m p with
        | (some st, k1) =>
          pumpMoves c fuel (addReq (setCore s c (popPart k1 m s.nextId)) { partReq c k m p with tagged := false, st := st })
        | (none, _) =>
          if unitTag k (!m.load) then pumpMoves c fuel (sendTagged s c (addTag k (!m.load)) m p)
          else if k.tagQueue.contains (8, !m.load) then s
          else setCore s c { k with tagQueue := k.tagQueue ++ [(8, !m.load)] }

/-- Everything the unit of a core can send. -/
def pumpUnit (s : State) (c : Nat) : State :=
  pumpMoves c (((coreOf s c).moves.map fun m => m.plan.length).foldl (· + ·) 0) s

/-- After an event on a core: held status reads are delivered, work of restored tasks enters its queues, the tile-move unit
sends what it can, and waiting contexts wake. -/
def settle (s : State) (c : Nat) : State :=
  let s1 := onCore s c fun k => settleRsr k.rsrq (requeueAll k)
  (List.range 8).foldl (fun s n => wakeCtx s c n) (pumpUnit s1 c)

/-! ## Faults (R80 to R83) -/

/-- Take the issue slot from a context that stops running. -/
def offSlot (k : Core) (n : Nat) : Core :=
  if k.running = some n then { k with running := none, lastRun := n } else k

/-- What R83 steps 1 to 3 do at once: reads are discarded on return, the sig.rel that have not left, the passes not
yet committing and the vector entries issued after the faulting instruction go; stores, started entries, and what an earlier
divide or rsr will still write, stay (R81). -/
def dropWork (k : Core) (n o : Nat) : Core :=
  { k with
    held := k.held.filter fun h => !(h.ctx == n && h.rel)
    aq := k.aq.filter fun p => p.ctx != n || p.stage == .committing
    vq := k.vq.filter fun e => e.ctx != n || e.op == .st || (e.op == .stl && e.own) || (if e.op == .ld then decide (e.order < o) else decide (e.order ≤ o))
    moves := k.moves.filter fun m => !(m.ctx == n && m.load)
    tagQueue := k.tagQueue.filter fun q => q.1 != n }

/-- The requests after a fault of a context at issue order `o` (R83): reads still out are discarded when they return,
and the data of a vld that issued after the faulting instruction goes with its entry. -/
def deadReads (s : State) (c n o : Nat) : List MemReq :=
  (s.reqs.filter fun r => !(r.core == c && r.ctx == n && delivered s r && decide (o ≤ r.order))).map fun r =>
    if r.core == c && r.ctx == n && !r.write && !delivered s r then { r with dead := true } else r

/-- Return tags that TAG_FREE gave the context and that it did not use. -/
def returnTags (k : Core) (n : Nat) : Core :=
  let x := ctxOf k n
  setCtx { k with readTags := k.readTags - x.granted.count false, writeTags := k.writeTags - x.granted.count true } n
    { x with granted := [] }

/-- A context faults (R81 to R83): only the first fault is recorded, a later one sets MULTI. The contexts of a fenced core
end with no fault (R85). -/
def faultCtx (s : State) (c n : Nat) (cause : Cause) (addr : Word64) (imprecise : Bool) (pc : Word64)
    (o : Nat) : State :=
  let k := coreOf s c
  let x := ctxOf k n
  if k.fenced then s
  else match x.st with
  | .free => s
  | .done => s
  | .faulted => setCore s c (setCtx k n { x with multi := true })
  | _ =>
    let k1 := dropWork (returnTags (offSlot k n) n) n o
    let x1 := ctxOf k1 n
    let x2 := { x1 with st := .faulted, wait := .none, cause := some cause, imprecise := imprecise,
                        faultPc := pc, faultAddr := addr, pendRegs := [], pendPreds := [], granted := [], backP := [] }
    let s1 := setCore s c (setCtx k1 n x2)
    settle { s1 with reqs := deadReads s c n o } c

/-- The first instruction of the context that has not issued: a load that waits for its data has. Every other instruction that
waits is executed again after a restore (R78, R153, R168), so that it counts as not issued, an exit among them (DEDUCED, log
entry 179). -/
def nextPc (x : Ctx) : Word64 := if x.wait = .requests then x.pc + 8 else x.pc

/-- A fault a unit raises after issue, for the instruction `pc` of issue order `o` (R81): precise if no later
instruction of the context has issued. -/
def unitFault (s : State) (c n : Nat) (cause : Cause) (addr : Word64) (pc : Word64) (o : Nat) : State :=
  let x := stCtx s c n
  if x.order ≤ o + 1 ∧ x.wait ≠ .requests then faultCtx s c n cause addr false pc o
  else faultCtx s c n cause addr true (nextPc x) o

/-- A fault of a posted store, of issue order `o` (R81): always imprecise. -/
def storeFault (s : State) (c n : Nat) (cause : Cause) (addr : Word64) (o : Nat) : State :=
  faultCtx s c n cause addr true (nextPc (stCtx s c n)) o

/-! ## Issue (R61, R66, R143, R147 to R150) -/

/-- What the body of an instruction makes of its issue. -/
inductive Act where
  | next (s : State)                           -- done; PC + 8
  | goto (pc : Word64) (s : State)             -- a taken branch
  | wait (st : CtxState) (w : Wait) (s : State)   -- descheduled; PC stays
  | fault (c : Cause) (addr : Word64) (s : State) -- precise fault
  | give (s : State)                           -- done; PC + 8, and the context gives up the issue slot
  | hold (s : State)                           -- holds the issue slot: it has not issued

/-! The instruction cache (R151): 64 sets of 8 ways, by virtual address (log entry 148). -/

/-- The 64-byte block of an address, and the line that holds it. -/
def icBlk (pc : Word64) : Nat := pc.toNat / 64
def icLine (k : Core) (pc : Word64) : Option ILine := k.icache.find? fun l => l.blk == icBlk pc
def icHits (k : Core) (pc : Word64) : Bool := (icLine k pc).isSome

/-- A hit makes the line the most recently used of its set. -/
def icTouch (k : Core) (pc : Word64) : Core :=
  { k with icache := k.icache.filter (fun l => l.blk == icBlk pc) ++ k.icache.filter (fun l => l.blk != icBlk pc) }

/-- Keep the 8 newest lines of a set. -/
def icTrim (set : Nat) : Nat → List ILine → List ILine
  | _, [] => []
  | n, l :: t =>
    if l.blk % 64 = set then (match n with | 0 => icTrim set 0 t | m + 1 => l :: icTrim set m t)
    else l :: icTrim set n t

/-- A miss fills its line, in place of the least recently used line of its set where the set is full. -/
def icFill (k : Core) (pc : Word64) (data : List Byte) : Core :=
  { k with icache := icTrim (icBlk pc % 64) 8 ({ blk := icBlk pc, data := data } :: k.icache.filter (fun l => l.blk != icBlk pc)) }

/-- The counters, the yield timer and the cache line of one issue (R66, R151, R476, R477). -/
def countIssue (k : Core) (n : Nat) : Core :=
  let other := (List.range 8).any fun m => m != n && (ctxOf k m).st == .ready
  let k1 := icTouch (coreBump (ctxBump k n 0x100 1) 0x140 1) (ctxOf k n).pc
  let x := ctxOf k1 n
  setCtx k1 n { x with yieldTimer := if other then min 4096 (x.yieldTimer + 1) else x.yieldTimer }

/-- Complete the issue of context `n` at `pc`. -/
def finishIssue (c n : Nat) (pc : Word64) (a : Act) : State :=
  match a with
  | .next s => onCore s c fun k =>
      let k1 := countIssue (returnTags k n) n
      setCtx k1 n { ctxOf k1 n with pc := pc + 8, order := (ctxOf k1 n).order + 1 }
  | .goto t s => onCore s c fun k =>
      let k1 := countIssue (returnTags k n) n
      setCtx k1 n { ctxOf k1 n with pc := t, order := (ctxOf k1 n).order + 1 }
  | .give s => onCore s c fun k =>
      let k1 := offSlot (countIssue (returnTags k n) n) n
      setCtx k1 n { ctxOf k1 n with st := .ready, wait := .none, pc := pc + 8, order := (ctxOf k1 n).order + 1 }
  | .wait st w s => onCore s c fun k =>
      let k1 := offSlot (countIssue (returnTags k n) n) n
      setCtx k1 n { ctxOf k1 n with st := st, wait := w }
  | .fault cause addr s =>
      faultCtx (onCore s c fun k => countIssue (returnTags k n) n) c n cause addr false pc
        (stCtx s c n).order
  | .hold s => s

/-- An instruction-cache miss (R67, R72, R151, R160): the fetch translates for execution, then reads 64 bytes. -/
def fetchMiss (s : State) (c n : Nat) : State :=
  let k := coreOf s c
  let x := ctxOf k n
  let va := x.pc.toNat
  let off := fun (s : State) (w : Wait) => onCore s c fun k =>
    let k1 := offSlot k n
    setCtx k1 n { ctxOf k1 n with st := .waitMem, wait := w }
  match xlate k x.tenant.toNat va 2 with
  | .miss => off (addWalk s c x.tenant.toNat va) (.walk va 2)
  | .denied => faultCtx s c n .permission x.pc false x.pc x.order
  | .hit pa =>
    if pastLs (pa / 64 * 64) 64 then faultCtx s c n .bounds x.pc false x.pc x.order
    else off (addReq (setCore s c (tlbTouch k x.tenant.toNat va))
      { id := 0, core := c, ctx := n, order := x.order, who := .fetch, write := false,
        segs := [(pa / 64 * 64, 64)], va := x.pc, tenant := x.tenant.toNat, tagged := false }) .fetch

/-- A context that holds the issue slot. -/
def issues (s : State) (x : Issue) : Bool :=
  decide (x.core < Config.nCores) && decide (x.ctx < 8) &&
  (coreOf s x.core).running == some x.ctx && (stCtx s x.core x.ctx).st == .running

/-- The first register or predicate of the instruction that is pending (R148, R149). -/
def firstPending (k : Core) (n : Nat) (rs ps : List Nat) : Option Wait :=
  match rs.find? (regPending k n ·) with
  | some r => some (.reg r)
  | none => match ps.find? (predPending k n ·) with
    | some p => some (.pred p)
    | none => none

/-- Issue one instruction. `legal` is decode's verdict on its fields (R145), `rs` and `ps` the general
registers and predicates it reads or writes, `body` its effect. A command whose context does not hold the
issue slot changes nothing (log entry 11). -/
def issueStep (x : Issue) (legal : Bool) (rs ps : List Nat) (body : State → Act) (s : State) : State :=
  if !issues s x then s
  else
    let c := x.core
    let n := x.ctx
    let k := coreOf s c
    let cx := ctxOf k n
    if field cx.pc 48 16 ≠ 0 then faultCtx s c n .translation cx.pc false cx.pc cx.order
    else if !icHits k cx.pc then fetchMiss s c n
    else if (x.pg = 0 ∧ x.pn) ∨ !legal then finishIssue c n cx.pc (.fault .illegalInstr 0 s)
    else if predPending k n x.pg.toNat then finishIssue c n cx.pc (.wait .waitUnit (.pred x.pg.toNat) s)
    else if readP cx x.pg.toNat = x.pn then finishIssue c n cx.pc (.next s)
    else match firstPending k n rs ps with
      | some w => finishIssue c n cx.pc (.wait .waitUnit w s)
      | none => finishIssue c n cx.pc (body s)

def issue (x : Issue) (legal : Bool) (rs ps : List Nat) (body : State → Act) (s : State) :
    Host.Outcome State Fault Refusal :=
  .next (issueStep x legal rs ps body s)

/-- A body that only writes one general register. -/
def writeReg (x : Issue) (d : Nat) (f : Ctx → Word64) (s : State) : Act :=
  .next (onCtx s x.core x.ctx fun cx => writeG cx d (f cx))

/-- A body that only writes one predicate. -/
def writePred (x : Issue) (d : Nat) (f : Ctx → Bool) (s : State) : Act :=
  .next (onCtx s x.core x.ctx fun cx => writeP cx d (f cx))

end Sys2Proof.Machine
end

