-- ==== Sys2Proof/Machine/Scalar.lean ====
section
/-! DEFINITION. System, scalar arithmetic, compare, predicate and branch instructions (R153 to R160) and the
result of the divider (R148). -/

namespace Sys2Proof.Machine
open Sys2Proof

/-! ## System (R153, R154) -/

/-- nop (R153). -/
def execNop (x : Issue) (s : State) : Host.Outcome State Fault Refusal :=
  issue x true [] [] (fun s => .next s) s

/-- exit (R153): the context issues nothing further; DONE once its queued work, stores and engine commands
have completed, WAIT_MEM until then. PC stays at the exit. -/
def execExit (x : Issue) (s : State) : Host.Outcome State Fault Refusal :=
  issue x true [] [] (fun s =>
    if fenceMet s x.core x.ctx 15 then .wait .done .none s else .wait .waitMem .exit s) s

/-- yield (R153): the context becomes READY at the next instruction. -/
def execYield (x : Issue) (s : State) : Host.Outcome State Fault Refusal :=
  issue x true [] [] .give s

/-- The register numbers that R154, R476 and R477 assign. -/
def sysListed (n : Nat) : Bool :=
  [0, 1, 2, 3, 4, 8, 9, 10].contains n || (decide (0x10 ≤ n) && decide (n < 0x44)) ||
  (decide (0x80 ≤ n) && decide (n < 0xC0)) || (decide (0x100 ≤ n) && decide (n ≤ 0x10C)) ||
  [0x140, 0x141, 0x142, 0x148, 0x149, 0x14A, 0x14B, 0x14C, 0x14D, 0x14E, 0x14F, 0x150, 0x152, 0x154, 0x155,
   0x156, 0x158, 0x159, 0x15A, 0x15B, 0x15C, 0x15D, 0x15E].contains n

/-- The value rsr reads of a register outside the tile and bank words (R154). -/
def sysValue (s : State) (c n sys : Nat) : Nat :=
  let k := coreOf s c
  let x := ctxOf k n
  match sys with
  | 0 => ctxStatus x n
  | 1 => x.res0.toNat
  | 2 => x.res1.toNat
  | 3 => x.faultPc.toNat
  | 4 => x.faultAddr.toNat
  | 8 => c % 512 + 2 ^ 16 * (s.fabric.modid % 1024)
  | 9 => cyclesOf s c % 2 ^ 64
  | 10 => copyOf s (bandOf s c) % 2 ^ 64
  | _ =>
    if 0x80 ≤ sys ∧ sys < 0xC0 then semWord (semOf k (sys - 0x80))
    else if 0x100 ≤ sys ∧ sys ≤ 0x10C then look 0 x.counters sys
    else look 0 k.counters sys

/-- rsr (R149, R153, R154). -/
def rsrBody (x : Issue) (d sys : Nat) (s : State) : Act :=
  let c := x.core
  let n := x.ctx
  let k := coreOf s c
  let cx := ctxOf k n
  if 0x10 ≤ sys ∧ sys < 0x40 then
    let t := sys % 16
    if !ownsTile cx t then .fault .permission 0 s
    else if tileLoadBefore k n t cx.order then .wait .waitMem (.tileLoad t) s
    else if tileVecWriteBefore k n t cx.order then
      .next (onCore s c fun k =>
        setCtx { k with rsrq := k.rsrq ++ [{ ctx := n, d := d, sys := sys, order := cx.order }] } n { cx with pendRegs := d :: cx.pendRegs })
    else writeReg x d (fun _ => BitVec.ofNat 64 (tileRegister k sys)) s
  else if 0x40 ≤ sys ∧ sys < 0x44 then
    let b := sys % 4
    if !ownsBank cx b then .fault .permission 0 s
    else if bankPassBefore k n b cx.order || bankVecWriteBefore k n b cx.order then
      .wait .waitUnit (.bankStatus b) s
    else writeReg x d (fun _ => BitVec.ofNat 64 (bankWord (bankOf k b).status)) s
  else if 0x80 ≤ sys ∧ sys < 0xC0 ∧ !ownsSem cx (sys - 0x80) then .fault .permission 0 s
  else writeReg x d (fun _ => BitVec.ofNat 64 (sysValue s c n sys)) s

def execRsr (x : Issue) (d : Reg) (sys : BitVec 12) (s : State) : Host.Outcome State Fault Refusal :=
  issue x (sysListed sys.toNat) [d.toNat] [] (rsrBody x d.toNat sys.toNat) s

/-! ## Scalar arithmetic (R155, R156) -/

/-- A register form: gd = f ga gb. -/
def regOp (x : Issue) (d a b : Reg) (f : Word64 → Word64 → Word64) (s : State) :
    Host.Outcome State Fault Refusal :=
  issue x true [d.toNat, a.toNat, b.toNat] []
    (writeReg x d.toNat fun cx => f (readG cx a.toNat) (readG cx b.toNat)) s

/-- An immediate form: gd = f ga (sign-extended immediate). -/
def immOp (x : Issue) (legal : Bool) (d a : Reg) (imm : Word32) (f : Word64 → Word64 → Word64) (s : State) :
    Host.Outcome State Fault Refusal :=
  issue x legal [d.toNat, a.toNat] [] (writeReg x d.toNat fun cx => f (readG cx a.toNat) (immWord imm)) s

/-- Shift counts use bits 5:0 (R155). -/
def shlWord (a b : Word64) : Word64 := a <<< (b.toNat % 64)
def shrWord (a b : Word64) : Word64 := a.sshiftRight (b.toNat % 64)
def shrlWord (a b : Word64) : Word64 := a >>> (b.toNat % 64)

/-- Immediate-form shifts reserve IMM bits 31:6 (R155). -/
def shiftImmLegal (imm : Word32) : Bool := imm.toNat < 64

def mulhWord (a b : Word64) : Word64 := BitVec.ofInt 64 (a.toInt * b.toInt / 2 ^ 64)
def mulhuWord (a b : Word64) : Word64 := BitVec.ofNat 64 (a.toNat * b.toNat / 2 ^ 64)

/-- Truncating division; a divisor of 0 gives quotient 0 and the dividend as remainder (R155). -/
def divWord (a b : Word64) : Word64 := BitVec.ofInt 64 (a.toInt.tdiv b.toInt)
def remWord (a b : Word64) : Word64 := BitVec.ofInt 64 (a.toInt.tmod b.toInt)
def divuWord (a b : Word64) : Word64 := BitVec.ofNat 64 (a.toNat / b.toNat)
def remuWord (a b : Word64) : Word64 := BitVec.ofNat 64 (a.toNat % b.toNat)

def execAdd (x : Issue) (d a b : Reg) (s : State) : Host.Outcome State Fault Refusal :=
  regOp x d a b (· + ·) s
def execAddi (x : Issue) (d a : Reg) (imm : Word32) (s : State) : Host.Outcome State Fault Refusal :=
  immOp x true d a imm (· + ·) s
def execSub (x : Issue) (d a b : Reg) (s : State) : Host.Outcome State Fault Refusal :=
  regOp x d a b (· - ·) s
def execAnd (x : Issue) (d a b : Reg) (s : State) : Host.Outcome State Fault Refusal :=
  regOp x d a b (· &&& ·) s
def execAndi (x : Issue) (d a : Reg) (imm : Word32) (s : State) : Host.Outcome State Fault Refusal :=
  immOp x true d a imm (· &&& ·) s
def execOr (x : Issue) (d a b : Reg) (s : State) : Host.Outcome State Fault Refusal :=
  regOp x d a b (· ||| ·) s
def execOri (x : Issue) (d a : Reg) (imm : Word32) (s : State) : Host.Outcome State Fault Refusal :=
  immOp x true d a imm (· ||| ·) s
def execXor (x : Issue) (d a b : Reg) (s : State) : Host.Outcome State Fault Refusal :=
  regOp x d a b (· ^^^ ·) s
def execXori (x : Issue) (d a : Reg) (imm : Word32) (s : State) : Host.Outcome State Fault Refusal :=
  immOp x true d a imm (· ^^^ ·) s
def execShl (x : Issue) (d a b : Reg) (s : State) : Host.Outcome State Fault Refusal :=
  regOp x d a b shlWord s
def execShli (x : Issue) (d a : Reg) (imm : Word32) (s : State) : Host.Outcome State Fault Refusal :=
  immOp x (shiftImmLegal imm) d a imm shlWord s
def execShr (x : Issue) (d a b : Reg) (s : State) : Host.Outcome State Fault Refusal :=
  regOp x d a b shrWord s
def execShri (x : Issue) (d a : Reg) (imm : Word32) (s : State) : Host.Outcome State Fault Refusal :=
  immOp x (shiftImmLegal imm) d a imm shrWord s
def execShrl (x : Issue) (d a b : Reg) (s : State) : Host.Outcome State Fault Refusal :=
  regOp x d a b shrlWord s
def execShrli (x : Issue) (d a : Reg) (imm : Word32) (s : State) : Host.Outcome State Fault Refusal :=
  immOp x (shiftImmLegal imm) d a imm shrlWord s
def execMin (x : Issue) (d a b : Reg) (s : State) : Host.Outcome State Fault Refusal :=
  regOp x d a b (fun p q => if q.slt p then q else p) s
def execMax (x : Issue) (d a b : Reg) (s : State) : Host.Outcome State Fault Refusal :=
  regOp x d a b (fun p q => if p.slt q then q else p) s
def execMinu (x : Issue) (d a b : Reg) (s : State) : Host.Outcome State Fault Refusal :=
  regOp x d a b (fun p q => if q.ult p then q else p) s
def execMaxu (x : Issue) (d a b : Reg) (s : State) : Host.Outcome State Fault Refusal :=
  regOp x d a b (fun p q => if p.ult q then q else p) s
def execMul (x : Issue) (d a b : Reg) (s : State) : Host.Outcome State Fault Refusal :=
  regOp x d a b (· * ·) s
def execMuli (x : Issue) (d a : Reg) (imm : Word32) (s : State) : Host.Outcome State Fault Refusal :=
  immOp x true d a imm (· * ·) s
def execMulh (x : Issue) (d a b : Reg) (s : State) : Host.Outcome State Fault Refusal :=
  regOp x d a b mulhWord s
def execMulhu (x : Issue) (d a b : Reg) (s : State) : Host.Outcome State Fault Refusal :=
  regOp x d a b mulhuWord s

/-- A divide (R148): it waits for the divider, then holds it until the result is delivered. -/
def divideOp (x : Issue) (d a b : Reg) (f : Word64 → Word64 → Word64) (s : State) :
    Host.Outcome State Fault Refusal :=
  issue x true [d.toNat, a.toNat, b.toNat] [] (fun s =>
    let k := coreOf s x.core
    let cx := ctxOf k x.ctx
    match k.divide with
    | some _ => .wait .waitUnit .divider s
    | none => .next (onCore s x.core fun k =>
        { k with divide := some { ctx := x.ctx, d := d.toNat,
                                  value := f (readG cx a.toNat) (readG cx b.toNat) } })) s

def execDiv (x : Issue) (d a b : Reg) (s : State) : Host.Outcome State Fault Refusal :=
  divideOp x d a b divWord s
def execDivu (x : Issue) (d a b : Reg) (s : State) : Host.Outcome State Fault Refusal :=
  divideOp x d a b divuWord s
def execRem (x : Issue) (d a b : Reg) (s : State) : Host.Outcome State Fault Refusal :=
  divideOp x d a b remWord s
def execRemu (x : Issue) (d a b : Reg) (s : State) : Host.Outcome State Fault Refusal :=
  divideOp x d a b remuWord s

/-- The divider delivers its result and is free (R148). -/
def execDividerResult (core : Nat) (s : State) : Host.Outcome State Fault Refusal :=
  match (coreOf s core).divide with
  | none => .next s
  | some dv =>
    .next (settle (onCore s core fun k =>
      setCtx { k with divide := none } dv.ctx (writeG (ctxOf k dv.ctx) dv.d dv.value)) core)

def execSel (x : Issue) (d : Reg) (p : PredNo) (a b : Reg) (s : State) : Host.Outcome State Fault Refusal :=
  issue x true [d.toNat, a.toNat, b.toNat] [p.toNat]
    (writeReg x d.toNat fun cx => if readP cx p.toNat then readG cx a.toNat else readG cx b.toNat) s

/-- A form with one source: gd = f ga. -/
def unaryOp (x : Issue) (d a : Reg) (f : Word64 → Word64) (s : State) : Host.Outcome State Fault Refusal :=
  issue x true [d.toNat, a.toNat] [] (writeReg x d.toNat fun cx => f (readG cx a.toNat)) s

def execClz (x : Issue) (d a : Reg) (s : State) : Host.Outcome State Fault Refusal :=
  unaryOp x d a (fun v => BitVec.ofNat 64 (leadingZeros 64 v.toNat)) s
def execPopc (x : Issue) (d a : Reg) (s : State) : Host.Outcome State Fault Refusal :=
  unaryOp x d a (fun v => BitVec.ofNat 64 (popCount 64 v.toNat)) s
def execSext (x : Issue) (d a : Reg) (k : BitVec 6) (s : State) : Host.Outcome State Fault Refusal :=
  unaryOp x d a (fun v => BitVec.ofInt 64 (signed (k.toNat + 1) v.toNat)) s
/-- movk: IMM in bits 63:32, bits 31:0 of ga below (R156). -/
def execMovk (x : Issue) (d a : Reg) (imm : Word32) (s : State) : Host.Outcome State Fault Refusal :=
  unaryOp x d a (fun v => BitVec.ofNat 64 (imm.toNat * 2 ^ 32 + v.toNat % 2 ^ 32)) s

/-! ## Conditions and predicates (R157, R158) -/

def execCmp (x : Issue) (pd : PredNo) (cond : BitVec 4) (a b : Reg) (s : State) :
    Host.Outcome State Fault Refusal :=
  issue x (decide (cond.toNat ≤ 9)) [a.toNat, b.toNat] [pd.toNat]
    (writePred x pd.toNat fun cx =>
      (condition cond.toNat (readG cx a.toNat) (readG cx b.toNat)).getD false) s

def execCmpi (x : Issue) (pd : PredNo) (cond : BitVec 4) (a : Reg) (imm : Word32) (s : State) :
    Host.Outcome State Fault Refusal :=
  issue x (decide (cond.toNat ≤ 9)) [a.toNat] [pd.toNat]
    (writePred x pd.toNat fun cx => (condition cond.toNat (readG cx a.toNat) (immWord imm)).getD false) s

def predOp (x : Issue) (pd pa pb : PredNo) (f : Bool → Bool → Bool) (s : State) :
    Host.Outcome State Fault Refusal :=
  issue x true [] [pd.toNat, pa.toNat, pb.toNat]
    (writePred x pd.toNat fun cx => f (readP cx pa.toNat) (readP cx pb.toNat)) s

def execPand (x : Issue) (pd pa pb : PredNo) (s : State) : Host.Outcome State Fault Refusal :=
  predOp x pd pa pb (· && ·) s
def execPor (x : Issue) (pd pa pb : PredNo) (s : State) : Host.Outcome State Fault Refusal :=
  predOp x pd pa pb (· || ·) s
def execPxor (x : Issue) (pd pa pb : PredNo) (s : State) : Host.Outcome State Fault Refusal :=
  predOp x pd pa pb (· != ·) s
def execPandn (x : Issue) (pd pa pb : PredNo) (s : State) : Host.Outcome State Fault Refusal :=
  predOp x pd pa pb (fun p q => p && !q) s

def execPget (x : Issue) (d : Reg) (pa : PredNo) (s : State) : Host.Outcome State Fault Refusal :=
  issue x true [d.toNat] [pa.toNat]
    (writeReg x d.toNat fun cx => BitVec.ofNat 64 (b2n (readP cx pa.toNat))) s

def execPset (x : Issue) (pd : PredNo) (a : Reg) (s : State) : Host.Outcome State Fault Refusal :=
  issue x true [a.toNat] [pd.toNat] (writePred x pd.toNat fun cx => readG cx a.toNat != 0) s

/-! ## Branches (R159, R160) -/

/-- The relative target PC + 8 × IMM modulo 2^64. -/
def target (pc : Word64) (imm : Word32) : Word64 := pc + 8 * immWord imm

def execBr (x : Issue) (imm : Word32) (s : State) : Host.Outcome State Fault Refusal :=
  issue x true [] [] (fun s => .goto (target (stCtx s x.core x.ctx).pc imm) s) s

def execJal (x : Issue) (d : Reg) (imm : Word32) (s : State) : Host.Outcome State Fault Refusal :=
  issue x true [d.toNat] [] (fun s =>
    let pc := (stCtx s x.core x.ctx).pc
    .goto (target pc imm) (onCtx s x.core x.ctx fun cx => writeG cx d.toNat (pc + 8))) s

/-- Where an indirect branch goes, or its fault at the branch (R160). -/
def indirect (t : Word64) (s : State) : Act :=
  if t.toNat % 8 ≠ 0 then .fault .align t s
  else if field t 48 16 ≠ 0 then .fault .translation t s
  else .goto t s

def execJr (x : Issue) (a : Reg) (s : State) : Host.Outcome State Fault Refusal :=
  issue x true [a.toNat] [] (fun s => indirect (readG (stCtx s x.core x.ctx) a.toNat) s) s

/-- jalr: the target is the value ga held before, also when gd = ga (R159). -/
def execJalr (x : Issue) (d a : Reg) (s : State) : Host.Outcome State Fault Refusal :=
  issue x true [d.toNat, a.toNat] [] (fun s =>
    let cx := stCtx s x.core x.ctx
    match indirect (readG cx a.toNat) s with
    | .goto t s => .goto t (onCtx s x.core x.ctx fun y => writeG y d.toNat (cx.pc + 8))
    | o => o) s

/-- dbnz (R159): with g0 the decremented value is discarded and the new ga reads 0, so it falls through. -/
def execDbnz (x : Issue) (a : Reg) (imm : Word32) (s : State) : Host.Outcome State Fault Refusal :=
  issue x true [a.toNat] [] (fun s =>
    let cx := stCtx s x.core x.ctx
    let s1 := onCtx s x.core x.ctx fun y => writeG y a.toNat (readG cx a.toNat - 1)
    if readG (stCtx s1 x.core x.ctx) a.toNat ≠ 0 then .goto (target cx.pc imm) s1 else .next s1) s

end Sys2Proof.Machine
end

