-- ==== Sys2Proof/Machine/Encoding.lean ====
section
/-! DEFINITION. Which 64-bit words encode an instruction (R142 to R169) and which are reserved encodings (R8,
R9, R145): the fields each instruction uses, and the field values its table marks as reserved. -/

namespace Sys2Proof.Machine
open Sys2Proof

/-- Bits hi:lo set. -/
def span (hi lo : Nat) : Nat := 2 ^ (hi + 1) - 2 ^ lo

/-! Fields of the formats of R146. -/
def frD := span 47 43
def frA := span 42 38
def frB := span 37 33
def frC := span 32 28
def frK := span 27 22
def frCond := span 21 18
def frP := span 17 15
def frW := span 14 14
def frI := span 13 13
def frRnd := span 12 11
def frPd := span 45 43
def frPa := span 40 38
def frPb := span 35 33
def fiCond := span 37 34
def fiSz := span 33 32
def fiImm := span 31 0
def ftTA := span 47 44
def ftTB := span 43 40
def ftAB := span 39 38
def ftRA := span 37 32
def ftRB := span 31 26
def ftN := span 25 19
def ftGA := span 18 14
def ftGB := span 13 9
def ftGC := span 8 4
def ftOpt := span 3 0
def fvV := span 47 43
def fvTA := span 42 39
def fvAB := span 38 37
def fvRow := span 36 31
def fvRR := span 30 30
def fvGR := span 29 25
def fvQKCS := span 24 5
def fvMode := span 4 3
def fvH := span 2 2
def fsSem := span 47 42
def fsGA := span 41 37
def fsGB := span 36 32
def fsCnt := span 31 24
def fsMask := span 23 20
def fsRel := span 19 19
def fsSE := span 18 18
def fsPD := span 17 15
def fsSys := span 11 0

/-- The operand bits the instruction of a major and minor opcode uses; none where the group's table does not
list the minor (R144, R145, R153 to R169). -/
def usedBits (mj mi : Nat) : Option Nat :=
  match mj with
  | 0x00 => match mi with
    | 1 | 2 | 3 => some 0
    | 4 => some (fsGA + fsSys)
    | _ => none
  | 0x01 =>
    if mi ≤ 0x12 then some (frD + frA + frB)
    else match mi with
      | 0x13 => some (frD + frA + frB + frP)
      | 0x14 | 0x15 => some (frD + frA)
      | 0x16 => some (frD + frA + frK)
      | _ => none
  | 0x02 => if [0, 2, 3, 4, 5, 6, 7, 0xC, 0x18].contains mi then some (frD + frA + fiImm) else none
  | 0x03 => match mi with
    | 0 => some (frPd + frA + frB + frCond)
    | 1 => some (frPd + frA + fiCond + fiImm)
    | 2 | 3 | 4 | 5 => some (frPd + frPa + frPb)
    | 6 => some (frD + frPa)
    | 7 => some (frPd + frA)
    | _ => none
  | 0x04 => match mi with
    | 0 => some fiImm
    | 1 => some (frD + fiImm)
    | 2 => some frA
    | 3 => some (frD + frA)
    | 4 => some (frA + fiImm)
    | _ => none
  | 0x05 =>
    if [0, 1, 2, 0x10, 0x11, 0x12].contains mi then some (frD + frA + fiSz + fiImm)
    else if mi = 0x20 then some (frA + fiSz + fiImm) else none
  | 0x06 => match mi with
    | 0 => some (ftTA + ftGA)
    | 1 => some ftTA
    | 2 | 3 => some (ftTA + ftGA + ftRA + span 29 26)
    | _ => none
  | 0x07 => if mi = 0 then some (ftTA + ftTB + ftAB + ftRA + span 28 26 + ftGA + span 2 0) else none
  | 0x08 =>
    if [0, 1, 0xF].contains mi then some (frD + frA + frB + frW)
    else if [2, 3, 9, 0x14, 0x16, 0x17, 0x18].contains mi then some (frD + frA)
    else if [4, 5, 6, 7, 8, 0x10, 0x12].contains mi then some (frD + frA + frB)
    else match mi with
      | 0xA => some (frD + frA + frB + frK + frI + frW)
      | 0xB => some (frD + frA + frB + frK + frI + frRnd)
      | 0xC => some (frD + frA + frB + frK + frI)
      | 0xD => some (frD + frA + frB + frCond)
      | 0xE => some (frD + frA + frB + frC)
      | 0x11 => some (frD + frA + frB + frK)
      | 0x13 | 0x15 => some (frD + frA + frK)
      | 0x19 => some (frPd + frA)
      | _ => none
  | 0x09 => match mi with
    | 0 => some (fvV + fvTA + fvRow + fvRR + fvGR + fvH)
    | 1 | 3 => some (fvV + fvTA + fvRow + fvRR + fvGR)
    | 2 | 4 => some (fvV + fvAB + fvRow + fvRR + fvGR)
    | 5 => some (fvV + fvTA + fvRow + fvRR + fvGR + fvQKCS + fvMode)
    | 8 => some (ftTA + ftRA + ftAB + ftRB + ftN + ftGA + ftGB + ftGC + span 2 0)
    | 9 => some (ftTA + ftRA + ftTB + ftRB + ftN + ftGA)
    | 0x10 | 0x11 | 0x12 | 0x13 => some (frD + frA + fiImm)
    | _ => none
  | 0x0A => match mi with
    | 0 => some (frD + frA + span 20 18 + span 26 22 + frC)
    | 1 => some (frD + frA + frB + frC + span 22 22)
    | _ => none
  | 0x0B => match mi with
    | 0 => some (fsSem + fsGA + fsCnt + fsRel)
    | 1 => some fsSem
    | 2 => some (fsSem + fsPD)
    | 3 => some fsMask
    | _ => none
  | 0x0C => match mi with
    | 0 => some (fsSem + fsGA + fsGB + fsSE)
    | 1 => some (fsSem + fsGA + fsSE)
    | _ => none
  | _ => none

/-- No field holds a value its table marks as reserved (R145, R154 to R169). -/
def valuesLegal (mj mi : Nat) (w : Word64) : Bool :=
  let shiftForm := if field w 13 1 = 1 then field w 22 6 == 0 else field w 33 5 == 0
  let rowForm := if field w 30 1 = 1 then field w 31 6 == 0 else field w 25 5 == 0
  let count := decide (1 ≤ field w 19 7) && decide (field w 19 7 ≤ 64)
  match mj, mi with
  | 0x00, 4 => sysListed (field w 0 12)
  | 0x02, 5 | 0x02, 6 | 0x02, 7 => field w 6 26 == 0
  | 0x03, 0 => decide (field w 18 4 ≤ 9)
  | 0x03, 1 => decide (field w 34 4 ≤ 9)
  | 0x05, 1 | 0x05, 0x11 => field w 32 2 != 3
  | 0x07, _ =>
    decide (field w 26 3 ≤ 5) && !(w.getLsbD 2 && !w.getLsbD 1) &&
    !(w.getLsbD 0 && field w 26 3 != 0 && field w 26 3 != 5)
  | 0x08, 0xA => shiftForm && !(field w 13 1 == 0 && decide (32 ≤ field w 22 6))
  | 0x08, 0xB => shiftForm && decide (field w 11 2 ≤ 1)
  | 0x08, 0xC => shiftForm
  | 0x08, 0xD => [0, 1, 2, 3, 6].contains (field w 18 4)
  | 0x09, 0 | 0x09, 1 | 0x09, 2 | 0x09, 3 | 0x09, 4 => rowForm
  | 0x09, 5 => rowForm && field w 3 2 != 3
  | 0x09, 8 => count && field w 0 2 != 3
  | 0x09, 9 => count
  | 0x0A, 0 => decide (field w 18 3 ≤ 5)
  | 0x0B, 0 => field w 24 8 != 0
  | 0x0B, 3 => field w 20 4 != 0
  | 0x0C, _ => w.getLsbD 18 || field w 42 6 == 0
  | _, _ => true

/-- The word encodes an instruction: its guard is not the reserved one (R143), its group lists the minor,
every bit it does not use is 0, and every field holds a listed value. -/
def wordLegal (w : Word64) : Bool :=
  let mj := field w 58 6
  let mi := field w 48 6
  !(field w 55 3 == 0 && w.getLsbD 54) &&
  (match usedBits mj mi with
   | none => false
   | some m => (w.toNat % 2 ^ 48) &&& m == w.toNat % 2 ^ 48) &&
  valuesLegal mj mi w

/-- A word that is a reserved encoding faults with ILLEGAL_INSTR whatever its guard (R143, R145); a word that
encodes an instruction is none, and the command changes nothing. -/
def execReservedEncoding (x : Issue) (word : Word64) (s : State) : Host.Outcome State Fault Refusal :=
  if wordLegal word then .next s else issue x false [] [] (fun s => .next s) s

end Sys2Proof.Machine
end

