-- ==== Sys2Proof/Decode.lean ====
section
/-! DEFINITION. The command a 64-bit word spells (R142 to R169). spec/opcode_table.json gives no row any bits; chapter 07
gives the words of the instructions, and each spells the command of its row. -/

namespace Sys2Proof
open Machine

/-- The header's guard at the place that issues the word (R142, R143). -/
def guardOf (x : Issue) (w : Word64) : Issue := { x with pg := w.extractLsb' 55 3, pn := w.getLsbD 54 }

/-! Fields of the formats of R146. -/
def rD (w : Word64) : Reg := w.extractLsb' 43 5
def rA (w : Word64) : Reg := w.extractLsb' 38 5
def rB (w : Word64) : Reg := w.extractLsb' 33 5
def rC (w : Word64) : Reg := w.extractLsb' 28 5
def rK (w : Word64) : BitVec 6 := w.extractLsb' 22 6
def rCond (w : Word64) : BitVec 4 := w.extractLsb' 18 4
def rP (w : Word64) : PredNo := w.extractLsb' 15 3
def pD (w : Word64) : PredNo := w.extractLsb' 43 3
def pA (w : Word64) : PredNo := w.extractLsb' 38 3
def pB (w : Word64) : PredNo := w.extractLsb' 33 3
def iCond (w : Word64) : BitVec 4 := w.extractLsb' 34 4
def iSz (w : Word64) : BitVec 2 := w.extractLsb' 32 2
def iImm (w : Word64) : Word32 := w.extractLsb' 0 32
def tA (w : Word64) : TileNo := w.extractLsb' 44 4
def tB (w : Word64) : TileNo := w.extractLsb' 40 4
def tAB (w : Word64) : BankNo := w.extractLsb' 38 2
def tRA (w : Word64) : BitVec 6 := w.extractLsb' 32 6
def tRB (w : Word64) : BitVec 6 := w.extractLsb' 26 6
def tN (w : Word64) : BitVec 7 := w.extractLsb' 19 7
def tGA (w : Word64) : Reg := w.extractLsb' 14 5
def tGB (w : Word64) : Reg := w.extractLsb' 9 5
def tGC (w : Word64) : Reg := w.extractLsb' 4 5
def vTA (w : Word64) : TileNo := w.extractLsb' 39 4
def vAB (w : Word64) : BankNo := w.extractLsb' 37 2
def vRow (w : Word64) : RowSel := if w.getLsbD 30 then .reg (w.extractLsb' 25 5) else .imm (w.extractLsb' 31 6)
def vGQ (w : Word64) : Reg := w.extractLsb' 20 5
def vGK (w : Word64) : Reg := w.extractLsb' 15 5
def vGC (w : Word64) : Reg := w.extractLsb' 10 5
def vGS (w : Word64) : Reg := w.extractLsb' 5 5
def sSem (w : Word64) : SemNo := w.extractLsb' 42 6
def sGA (w : Word64) : Reg := w.extractLsb' 37 5
def sGB (w : Word64) : Reg := w.extractLsb' 32 5

/-- A shift count: lanes of B with I = 1, else K (R164). -/
def rCount (w : Word64) : CountSel := if w.getLsbD 13 then .lanes (rB w) else .imm (rK w)

/-- System, synchronisation and engine commands (R153, R167, R169). -/
def decodeSystem (mj mi : Nat) (x : Issue) (w : Word64) : Option Instr :=
  match mj, mi with
  | 0x00, 1 => some (.nop x)
  | 0x00, 2 => some (.exit x)
  | 0x00, 3 => some (.yield x)
  | 0x00, 4 => some (.rsr x (sGA w) (w.extractLsb' 0 12))
  | 0x0B, 0 => some (.sig x (sGA w) (sSem w) (w.extractLsb' 24 8) (w.getLsbD 19))
  | 0x0B, 1 => some (.wait x (sSem w))
  | 0x0B, 2 => some (.tryw x (w.extractLsb' 15 3) (sSem w))
  | 0x0B, 3 => some (.fence x (w.extractLsb' 20 4))
  | 0x0C, 0 => some (.dsub x (sGA w) (sGB w) (w.getLsbD 18) (sSem w))
  | 0x0C, 1 => some (.gsub x (sGA w) (w.getLsbD 18) (sSem w))
  | _, _ => none

/-- Scalar arithmetic, register form (R156). -/
def decodeScalarR (mi : Nat) (x : Issue) (w : Word64) : Option Instr :=
  match mi with
  | 0x00 => some (.add x (rD w) (rA w) (rB w))
  | 0x01 => some (.sub x (rD w) (rA w) (rB w))
  | 0x02 => some (.and x (rD w) (rA w) (rB w))
  | 0x03 => some (.or x (rD w) (rA w) (rB w))
  | 0x04 => some (.xor x (rD w) (rA w) (rB w))
  | 0x05 => some (.shl x (rD w) (rA w) (rB w))
  | 0x06 => some (.shr x (rD w) (rA w) (rB w))
  | 0x07 => some (.shrl x (rD w) (rA w) (rB w))
  | 0x08 => some (.min x (rD w) (rA w) (rB w))
  | 0x09 => some (.max x (rD w) (rA w) (rB w))
  | 0x0A => some (.minu x (rD w) (rA w) (rB w))
  | 0x0B => some (.maxu x (rD w) (rA w) (rB w))
  | 0x0C => some (.mul x (rD w) (rA w) (rB w))
  | 0x0D => some (.mulh x (rD w) (rA w) (rB w))
  | 0x0E => some (.mulhu x (rD w) (rA w) (rB w))
  | 0x0F => some (.div x (rD w) (rA w) (rB w))
  | 0x10 => some (.divu x (rD w) (rA w) (rB w))
  | 0x11 => some (.rem x (rD w) (rA w) (rB w))
  | 0x12 => some (.remu x (rD w) (rA w) (rB w))
  | 0x13 => some (.sel x (rD w) (rP w) (rA w) (rB w))
  | 0x14 => some (.clz x (rD w) (rA w))
  | 0x15 => some (.popc x (rD w) (rA w))
  | 0x16 => some (.sext x (rD w) (rA w) (rK w))
  | _ => none

/-- Scalar arithmetic, immediate form (R156). -/
def decodeScalarI (mi : Nat) (x : Issue) (w : Word64) : Option Instr :=
  match mi with
  | 0x00 => some (.addi x (rD w) (rA w) (iImm w))
  | 0x02 => some (.andi x (rD w) (rA w) (iImm w))
  | 0x03 => some (.ori x (rD w) (rA w) (iImm w))
  | 0x04 => some (.xori x (rD w) (rA w) (iImm w))
  | 0x05 => some (.shli x (rD w) (rA w) (iImm w))
  | 0x06 => some (.shri x (rD w) (rA w) (iImm w))
  | 0x07 => some (.shrli x (rD w) (rA w) (iImm w))
  | 0x0C => some (.muli x (rD w) (rA w) (iImm w))
  | 0x18 => some (.movk x (rD w) (rA w) (iImm w))
  | _ => none

/-- Compares and predicates, branches, scalar loads and stores (R158, R159, R161, R162). -/
def decodeFlow (mj mi : Nat) (x : Issue) (w : Word64) : Option Instr :=
  match mj, mi with
  | 0x03, 0 => some (.cmp x (pD w) (rCond w) (rA w) (rB w))
  | 0x03, 1 => some (.cmpi x (pD w) (iCond w) (rA w) (iImm w))
  | 0x03, 2 => some (.pand x (pD w) (pA w) (pB w))
  | 0x03, 3 => some (.por x (pD w) (pA w) (pB w))
  | 0x03, 4 => some (.pxor x (pD w) (pA w) (pB w))
  | 0x03, 5 => some (.pandn x (pD w) (pA w) (pB w))
  | 0x03, 6 => some (.pget x (rD w) (pA w))
  | 0x03, 7 => some (.pset x (pD w) (rA w))
  | 0x04, 0 => some (.br x (iImm w))
  | 0x04, 1 => some (.jal x (rD w) (iImm w))
  | 0x04, 2 => some (.jr x (rA w))
  | 0x04, 3 => some (.jalr x (rD w) (rA w))
  | 0x04, 4 => some (.dbnz x (rA w) (iImm w))
  | 0x05, 0x00 => some (.ld x (rD w) (rA w) (iSz w) (iImm w) .clean)
  | 0x05, 0x01 => some (.ldu x (rD w) (rA w) (iSz w) (iImm w) .clean)
  | 0x05, 0x02 => some (.st x (rD w) (rA w) (iSz w) (iImm w))
  | 0x05, 0x10 => some (.lld x (rD w) (rA w) (iSz w) (iImm w) .clean)
  | 0x05, 0x11 => some (.lldu x (rD w) (rA w) (iSz w) (iImm w) .clean)
  | 0x05, 0x12 => some (.lst x (rD w) (rA w) (iSz w) (iImm w))
  | 0x05, 0x20 => some (.pf x (rA w) (iSz w) (iImm w))
  | _, _ => none

/-- Tiles and the array (R163). -/
def decodeTile (mj mi : Nat) (x : Issue) (w : Word64) : Option Instr :=
  match mj, mi with
  | 0x06, 0 => some (.tcfg x (tA w) (tGA w))
  | 0x06, 1 => some (.trel x (tA w))
  | 0x06, 2 => some (.tload x (tA w) (tGA w) (tRA w) (w.extractLsb' 26 4))
  | 0x06, 3 => some (.tstore x (tA w) (tGA w) (tRA w) (w.extractLsb' 26 4))
  | 0x07, 0 => some (.tmma x (tA w) (tB w) (tAB w) (tRA w) (w.extractLsb' 26 3) (w.getLsbD 0) (w.getLsbD 1) (w.getLsbD 2) (tGA w))
  | _, _ => none

/-- Vector arithmetic (R164). -/
def decodeVecR (mi : Nat) (x : Issue) (w : Word64) : Option Instr :=
  match mi with
  | 0x00 => some (.vadd x (rD w) (rA w) (rB w) (w.getLsbD 14))
  | 0x01 => some (.vsub x (rD w) (rA w) (rB w) (w.getLsbD 14))
  | 0x02 => some (.vabs x (rD w) (rA w))
  | 0x03 => some (.vneg x (rD w) (rA w))
  | 0x04 => some (.vmin x (rD w) (rA w) (rB w))
  | 0x05 => some (.vmax x (rD w) (rA w) (rB w))
  | 0x06 => some (.vand x (rD w) (rA w) (rB w))
  | 0x07 => some (.vor x (rD w) (rA w) (rB w))
  | 0x08 => some (.vxor x (rD w) (rA w) (rB w))
  | 0x09 => some (.vclz x (rD w) (rA w))
  | 0x0A => some (.vshl x (rD w) (rA w) (rCount w) (w.getLsbD 14))
  | 0x0B => some (.vshr x (rD w) (rA w) (rCount w) (w.extractLsb' 11 2))
  | 0x0C => some (.vshrl x (rD w) (rA w) (rCount w))
  | 0x0D => some (.vcmp x (rD w) (rA w) (rB w) (rCond w))
  | 0x0E => some (.vsel x (rD w) (rC w) (rA w) (rB w))
  | 0x0F => some (.vmul x (rD w) (rA w) (rB w) (w.getLsbD 14))
  | 0x10 => some (.vmulh x (rD w) (rA w) (rB w))
  | 0x11 => some (.vmulsh x (rD w) (rA w) (rB w) (rK w))
  | 0x12 => some (.vperm x (rD w) (rA w) (rB w))
  | 0x13 => some (.vbcast x (rD w) (rA w) (rK w))
  | 0x14 => some (.vmovv x (rD w) (rA w))
  | 0x15 => some (.vmovg x (rD w) (rA w) (rK w))
  | 0x16 => some (.vredsum x (rD w) (rA w))
  | 0x17 => some (.vredmax x (rD w) (rA w))
  | 0x18 => some (.vredmin x (rD w) (rA w))
  | 0x19 => some (.vtstp x (pD w) (rA w))
  | _ => none

/-- Vector rows, requantization, widening, vector loads and stores, functions and draws (R164). -/
def decodeVecT (mj mi : Nat) (x : Issue) (w : Word64) : Option Instr :=
  match mj, mi with
  | 0x09, 0x00 => some (.vtrd x (rD w) (vTA w) (vRow w) (w.getLsbD 2))
  | 0x09, 0x01 => some (.vtsc x (rD w) (vTA w) (vRow w))
  | 0x09, 0x02 => some (.vard x (rD w) (vAB w) (vRow w))
  | 0x09, 0x03 => some (.vtwr x (vTA w) (vRow w) (rD w))
  | 0x09, 0x04 => some (.vawr x (vAB w) (vRow w) (rD w))
  | 0x09, 0x05 => some (.vreq x (vTA w) (vRow w) (rD w) (vGQ w) (w.extractLsb' 3 2) (vGK w) (vGC w) (vGS w))
  | 0x09, 0x08 => some (.areq x (tA w) (tRA w) (tAB w) (tRB w) (tN w) (w.getLsbD 2) (w.extractLsb' 0 2) (tGA w) (tGB w) (tGC w))
  | 0x09, 0x09 => some (.vwid x (tA w) (tRA w) (tB w) (tRB w) (tN w) (tGA w))
  | 0x09, 0x10 => some (.vld x (rD w) (rA w) (iImm w))
  | 0x09, 0x11 => some (.vst x (rD w) (rA w) (iImm w))
  | 0x09, 0x12 => some (.vldL x (rD w) (rA w) (iImm w))
  | 0x09, 0x13 => some (.vstL x (rD w) (rA w) (iImm w))
  | 0x0A, 0 => some (.vfn x (rD w) (rA w) (rCond w) (rK w) (rC w))
  | 0x0A, 1 => some (.vrng x (rD w) (rA w) (rB w) (rC w) (rK w))
  | _, _ => none

/-- The command a word spells at the place that issues it (R142 to R146): MAJOR picks the group, MINOR the instruction, and a
word that is a reserved encoding spells none (RESERVED_ENCODING takes it). -/
def decodeCore (x : Issue) (w : Word64) : Option Instr :=
  let mi := field w 48 6
  let y := guardOf x w
  if !wordLegal w then none
  else match field w 58 6 with
    | 0x01 => decodeScalarR mi y w
    | 0x02 => decodeScalarI mi y w
    | 0x03 => decodeFlow 0x03 mi y w
    | 0x04 => decodeFlow 0x04 mi y w
    | 0x05 => decodeFlow 0x05 mi y w
    | 0x06 => decodeTile 0x06 mi y w
    | 0x07 => decodeTile 0x07 mi y w
    | 0x08 => decodeVecR mi y w
    | 0x09 => decodeVecT 0x09 mi y w
    | 0x0A => decodeVecT 0x0A mi y w
    | mj => decodeSystem mj mi y w

/-- The command a word spells: a 64-bit word the instruction of context 0 of core 0 (log entry 175); the table's other rows have no
bits. -/
def decodeTableWord (nbits w : Nat) : Option Instr :=
  if nbits = 64 then decodeCore { core := 0, ctx := 0 } (BitVec.ofNat 64 w) else none

end Sys2Proof
end

