-- ==== Sys2Proof/Machine/LoadStore.lean ====
section
/-! DEFINITION. Scalar loads, stores and prefetch (R161, R162), the translation of an access at issue (R75,
R76), and the forming of its request. -/

namespace Sys2Proof.Machine
open Sys2Proof

/-- Where an access of `n` bytes at `addr` goes, after its checks and its translation (R72, R161). -/
inductive Reach where
  | act (a : Act)              -- a fault, or a walk to wait for
  | own (pa : Nat) (s : State)   -- the core's own window, served from the local banks
  | far (pa : Nat) (s : State)   -- another core's window or a tier

def reach (x : Issue) (addr : Word64) (n acc : Nat) (s : State) : Reach :=
  let k := coreOf s x.core
  let t := (ctxOf k x.ctx).tenant.toNat
  if addr.toNat % n ≠ 0 then .act (.fault .align addr s)
  else if field addr 48 16 ≠ 0 then .act (.fault .translation addr s)
  else match xlate k t addr.toNat acc with
    | .denied => .act (.fault .permission addr s)
    | .miss => .act (.wait .waitMem (.walk addr.toNat acc) (addWalk s x.core t addr.toNat))
    | .hit pa =>
      let s1 := setCore s x.core (tlbTouch k t addr.toNat)
      if pastLs pa n then .act (.fault .bounds addr s1)
      else if inOwnLs x.core pa then .own pa s1
      else .far pa s1

/-- A translated read that leaves the core: from the prefetch buffer without a tag, or with one (R67, R274). -/
def sendRead (x : Issue) (who : Requester) (va : Word64) (pa n : Nat) (s : State) : Act :=
  let k := coreOf s x.core
  let cx := ctxOf k x.ctx
  let t := cx.tenant.toNat
  let r : MemReq := { id := 0, core := x.core, ctx := x.ctx, order := cx.order, who := who, write := false,
                      segs := [(pa, n)], va := va, tenant := t }
  match pfServes k t pa n with
  | some true =>
    let bytes := match pfLine k t pa with | some l => bytesAt l.data (pa % 1024) n | none => []
    .wait .waitMem .requests
      (addReq (setCore s x.core (pfUse k t pa true)) { r with tagged := false, st := .done bytes })
  | some false =>
    .wait .waitMem .requests
      (addReq (setCore s x.core (pfUse k t pa false)) { r with tagged := false, st := .held })
  | none =>
    if tagFreeFor k cx false then
      .wait .waitMem .requests (addReq (setCore s x.core (takeTag k x.ctx false)) r)
    else
      .wait .waitTag (.tag false) (setCore s x.core { k with tagQueue := k.tagQueue ++ [(x.ctx, false)] })

/-- A loaded value, sign- or zero-extended from its size (R161). -/
def loadValue (sg : Bool) (bytes : List Byte) : Word64 :=
  let v := ofBytes bytes
  if sg then BitVec.ofInt 64 (signed (8 * bytes.length) v) else BitVec.ofNat 64 v

/-- Two ranges of bytes have a byte in common. -/
def meets (a n b m : Nat) : Bool := decide (a < b + m) && decide (b < a + n)

/-- A vld or vst of the context to these bytes of the own window has not been performed, of those the access must follow: the
vst, and for a store the vld too (R161, R165, R310). -/
def ownAhead (k : Core) (c n pa len : Nat) (store : Bool) : Bool :=
  (vecOpen k).any (fun e => e.ctx == n && e.own && e.op == .stl && meets (lsAddr c e.s0.toNat) 256 pa len) ||
  (store && k.vq.any fun e => e.ctx == n && e.own && e.op == .ldl && meets (lsAddr c e.s0.toNat) 256 pa len)

/-- ld and ldu (R161): served from the own window at once, else WAIT_MEM until the data arrives. Behind a vst to the same
bytes of the own window it holds the issue slot, since a read of the own local store does not deschedule (R67, log
entry 150). -/
def loadOp (x : Issue) (d a : Reg) (sz : BitVec 2) (imm : Word32) (out : PortOutcome) (sg legal : Bool) (s : State) :
    Host.Outcome State Fault Refusal :=
  issue x legal [d.toNat, a.toNat] [] (fun s =>
    let addr := readG (stCtx s x.core x.ctx) a.toNat + immWord imm
    let n := 2 ^ sz.toNat
    match reach x addr n 0 s with
    | .act o => o
    | .own pa s1 =>
      if ownAhead (coreOf s x.core) x.core x.ctx pa n false then .hold s
      else match lsRead s1 pa n out with
        | (s2, none) => .fault .memError addr s2
        | (s2, some bs) => writeReg x d.toNat (fun _ => loadValue sg bs) s2
    | .far pa s1 => sendRead x (.scalarLoad d.toNat n sg) addr pa n s1) s

def execLd (x : Issue) (d a : Reg) (sz : BitVec 2) (imm : Word32) (out : PortOutcome) (s : State) :
    Host.Outcome State Fault Refusal := loadOp x d a sz imm out true true s

/-- ldu: SZ = 3 is reserved (R161). -/
def execLdu (x : Issue) (d a : Reg) (sz : BitVec 2) (imm : Word32) (out : PortOutcome) (s : State) :
    Host.Outcome State Fault Refusal := loadOp x d a sz imm out false (sz != 3) s

/-- A posted write that leaves the core takes a write tag (R67, R161, R275). -/
def sendWrite (x : Issue) (who : Requester) (st : ReqState) (va : Word64) (pa n : Nat) (bytes : List Byte)
    (go : State → Act) (s : State) : Act :=
  let k := coreOf s x.core
  let cx := ctxOf k x.ctx
  if tagFreeFor k cx true then
    go (addReq (setCore s x.core (pfInvalidate (takeTag k x.ctx true) pa n))
      { id := 0, core := x.core, ctx := x.ctx, order := cx.order, who := who, write := true, segs := [(pa, n)],
        wdata := bytes, va := va, tenant := cx.tenant.toNat, st := st })
  else .wait .waitTag (.tag true) (setCore s x.core { k with tagQueue := k.tagQueue ++ [(x.ctx, true)] })

/-- st (R161): writes the low SZ bytes of gs; posted. -/
def execSt (x : Issue) (r a : Reg) (sz : BitVec 2) (imm : Word32) (s : State) :
    Host.Outcome State Fault Refusal :=
  issue x true [r.toNat, a.toNat] [] (fun s =>
    let cx := stCtx s x.core x.ctx
    let addr := readG cx a.toNat + immWord imm
    let n := 2 ^ sz.toNat
    let bytes := toBytes n (readG cx r.toNat).toNat
    match reach x addr n 1 s with
    | .act o => o
    | .own pa s1 => if ownAhead (coreOf s x.core) x.core x.ctx pa n true then .hold s else .next (lsWrite s1 pa bytes)
    | .far pa s1 => sendWrite x .store .waiting addr pa n bytes .next s1) s

/-- The offset check of the local-store class: ALIGN before BOUNDS, an unsigned offset (R70, R161). -/
def lsCheck (off : Word64) (n : Nat) : Option Cause :=
  if off.toNat % n ≠ 0 then some .align
  else if Config.lsBytes < off.toNat + n then some .bounds
  else none

/-- lld and lldu (R161). -/
def localLoad (x : Issue) (d a : Reg) (sz : BitVec 2) (imm : Word32) (out : PortOutcome) (sg legal : Bool)
    (s : State) : Host.Outcome State Fault Refusal :=
  issue x legal [d.toNat, a.toNat] [] (fun s =>
    let off := readG (stCtx s x.core x.ctx) a.toNat + immWord imm
    let n := 2 ^ sz.toNat
    match lsCheck off n with
    | some c => .fault c off s
    | none => match lsRead s (lsAddr x.core off.toNat) n out with
      | (s1, none) => .fault .memError off s1
      | (s1, some bs) => writeReg x d.toNat (fun _ => loadValue sg bs) s1) s

def execLld (x : Issue) (d a : Reg) (sz : BitVec 2) (imm : Word32) (out : PortOutcome) (s : State) :
    Host.Outcome State Fault Refusal := localLoad x d a sz imm out true true s
def execLldu (x : Issue) (d a : Reg) (sz : BitVec 2) (imm : Word32) (out : PortOutcome) (s : State) :
    Host.Outcome State Fault Refusal := localLoad x d a sz imm out false (sz != 3) s

/-- lst (R161). -/
def execLst (x : Issue) (r a : Reg) (sz : BitVec 2) (imm : Word32) (s : State) :
    Host.Outcome State Fault Refusal :=
  issue x true [r.toNat, a.toNat] [] (fun s =>
    let cx := stCtx s x.core x.ctx
    let off := readG cx a.toNat + immWord imm
    let n := 2 ^ sz.toNat
    match lsCheck off n with
    | some c => .fault c off s
    | none => .next (lsWrite s (lsAddr x.core off.toNat) (toBytes n (readG cx r.toNat).toNat))) s

/-! ## Prefetch (R162, R273) -/

/-- Make room for one line: the least recently used line not awaiting data goes (R273, R276). -/
def pfRoom (k : Core) : Option Core :=
  if k.pf.length < 16 then some k
  else match k.pf.reverse.find? (fun l => l.await == []) with
    | none => none
    | some v =>
      let k1 := { k with pf := k.pf.filter fun l => !(l.blk == v.blk && l.tenant == v.tenant) }
      some (if v.used then k1 else coreBump k1 0x15D 1)

/-- Put the request `id` for `n` bytes at `pa` on its line, an old one or a new one. It fetches them again: an older request
still out for them brings them no more (R273, R275). -/
def pfTake (k : Core) (t pa n id : Nat) : Option Core :=
  let m := BitVec.ofNat 16 (pfMask pa n)
  match pfLine k t pa with
  | some l =>
    let rest := k.pf.filter fun o => !(o.blk == l.blk && o.tenant == l.tenant)
    some { k with pf := { l with valid := l.valid &&& ~~~m, awaitMask := l.awaitMask ||| m,
                                 await := l.await.map (fun e => (e.1, e.2 &&& ~~~m)) ++ [(id, m)], used := false } :: rest }
  | none => (pfRoom k).map fun k1 =>
      { k1 with pf := { blk := pa / 1024, tenant := t, awaitMask := m, await := [(id, m)] } :: k1.pf }

/-- The requests of one pf: each of at most 1 KiB; none where a line or a tag is missing. -/
def pfSend (x : Issue) (t : Nat) : List Nat → Nat → State → Option State
  | [], _, s => some s
  | pa :: rest, n, s =>
    let k := coreOf s x.core
    if 64 ≤ k.readTags then none
    else match pfTake { k with readTags := k.readTags + 1 } t pa n s.nextId with
      | none => none
      | some k1 =>
        pfSend x t rest n (addReq (setCore s x.core k1)
          { id := 0, core := x.core, ctx := x.ctx, order := (ctxOf k x.ctx).order, who := .prefetch (pa / 1024),
            write := false, segs := [(pa, n)], tenant := t })

/-- The physical address of a block pf asks for; a cache miss walks without descheduling (log entry 12). -/
def pfPlace (x : Issue) (t va : Nat) (s : State) : Option (Nat × State) :=
  let k := coreOf s x.core
  match xlate k t va 0 with
  | .hit pa => some (pa, setCore s x.core (tlbTouch k t va))
  | .denied => none
  | .miss => match walkOut s t va 0 with
    | .ok l big =>
      let s1 := touchLeaf s t va 0 l big
      some (pteAddr l.pte + va % pageBytes big, setCore s1 x.core (tlbInstall k t va 0 l big))
    | _ => none

/-- pf (R162): never faults, never deschedules; a dropped prefetch is counted. A block past the 640 KiB that back another core's
window is dropped as one that is not mapped (DESIGN CHOICE, log entry 180). -/
def execPf (x : Issue) (a : Reg) (sz : BitVec 2) (imm : Word32) (s : State) :
    Host.Outcome State Fault Refusal :=
  issue x true [a.toNat] [] (fun s =>
    let cx := stCtx s x.core x.ctx
    let t := cx.tenant.toNat
    let addr := readG cx a.toNat + immWord imm
    let size := 64 * 4 ^ sz.toNat
    let va := addr.toNat / size * size
    let drop := Act.next (onCore (if xlate (coreOf s x.core) t va 0 = .miss then noteMalformed s t va 0 else s) x.core fun k =>
      coreBump k 0x159 1)
    if field addr 48 16 ≠ 0 then drop
    else match pfPlace x t va s with
      | none => drop
      | some (pa, s1) =>
        let parts := if size = 4096 then [pa, pa + 1024, pa + 2048, pa + 3072] else [pa]
        let k := coreOf s1 x.core
        if inOwnLs x.core pa || pastLs pa size || decide (64 < k.readTags + parts.length) ||
            k.tagQueue.any (fun q => !q.2) then drop
        else match pfSend x t parts (min size 1024) s1 with
          | none => drop
          | some s2 => .next (onCore s2 x.core fun k => coreBump k 0x158 1)) s

end Sys2Proof.Machine
end

