-- ==== Sys2Proof/Machine/Tiles.lean ====
section
/-! DEFINITION. The tile instructions (R89, R90, R99 to R106) and the work of the tile-move unit. -/

namespace Sys2Proof.Machine
open Sys2Proof

/-- Clear the tag of every stationary set that the tile of the context filled (R113). -/
def clearTags (k : Core) (n t : Nat) : Core :=
  { k with sets := k.sets.map fun p =>
      match p.2.tag with
      | some g => if g.ctx == n && g.tw == t then (p.1, { p.2 with tag := none }) else p
      | none => p }

/-- A write to a row invalidates its cache entry and both latches (R98). -/
def dropRow (k : Core) (t r : Nat) : Core :=
  { k with opc := k.opc.filter (fun e => e != (t, r)), latches := [] }

/-- tcfg and trel invalidate every cache entry and latch of the tile (R90, R98). -/
def dropTile (k : Core) (t : Nat) : Core :=
  { k with opc := k.opc.filter (fun e => e.1 != t), latches := k.latches.filter (fun e => e.2.1 != t) }

/-- Write one tile row: ROWV, the operand cache and the set tags follow (R93, R98, R113). -/
def writeRow (k : Core) (n t r : Nat) (data scales : List Byte) : Core :=
  let k1 := clearTags (dropRow k t r) n t
  let x := setTileRow (tileOf k1 t) r data
  setTile k1 t (if scales == [] then x else setTileScales x r scales)

/-- Give a tile a configuration and clear its row validity (R90). -/
def configure (k : Core) (n t : Nat) (cfg : BitVec 32) : Core :=
  let k1 := clearTags (dropTile k t) n t
  setTile k1 t { tileOf k1 t with cfg := cfg, rowv := 0 }

/-- tcfg (R89, R90, R106). -/
def execTcfg (x : Issue) (td : TileNo) (gs : Reg) (s : State) : Host.Outcome State Fault Refusal :=
  issue x true [gs.toNat] [] (fun s =>
    let k := coreOf s x.core
    let cx := ctxOf k x.ctx
    let v := readG cx gs.toNat
    if !ownsTile cx td.toNat then .fault .permission 0 s
    else if !cfgValid v then .fault .tileConfig 0 s
    else if tileNamed k x.ctx td.toNat then .wait .waitTcfg (.tileAny td.toNat) s
    else .next (onCore s x.core fun k => configure k x.ctx td.toNat (v.setWidth 32))) s

/-- trel (R106): releases the contents and keeps the configuration. -/
def execTrel (x : Issue) (td : TileNo) (s : State) : Host.Outcome State Fault Refusal :=
  issue x true [] [] (fun s =>
    let k := coreOf s x.core
    let cx := ctxOf k x.ctx
    let cfg := (tileOf k td.toNat).cfg
    if !ownsTile cx td.toNat then .fault .permission 0 s
    else if cfgRows cfg = 0 then .fault .tileConfig 0 s
    else if tileNamed k x.ctx td.toNat then .wait .waitTcfg (.tileAny td.toNat) s
    else .next (onCore s x.core fun k => configure k x.ctx td.toNat cfg)) s

/-! ## Moves (R99 to R102) -/

/-- Words per block of a format: the granule of c0 (R99). -/
def wordsPerBlock (fmt : Nat) : Nat := if fmt = 2 then 4 else 8

/-- The first failing operand check of R99. -/
def moveCheck (cfg : BitVec 32) (base : Word64) (r0 c0 : Nat) : Option Cause :=
  if base.toNat % 128 ≠ 0 then some .align
  else if 64 < r0 + cfgRows cfg ∨ 16 < c0 + cfgWords cfg then some .bounds
  else if (cfgFmt cfg = 1 ∨ cfgFmt cfg = 2 ∨ cfgFmt cfg = 3) ∧ c0 % wordsPerBlock (cfgFmt cfg) ≠ 0 then some .align
  else none

/-- Virtual address of the first moved byte of tile row `i` (R39, R99). -/
def rowVa (base r0 c0 i : Nat) : Nat := base + 64 * (r0 + i) + 4 * c0

/-- Virtual address of the first scale byte of tile row `i` in the stored tile (R39). -/
def scaleVa (fmt base r0 c0 i : Nat) : Nat :=
  base + 4096 + (r0 + i) * blocksPerRow fmt 16 + c0 / wordsPerBlock fmt

/-- Rows `lo` to `hi − 1` in runs of at most 16 whose data lie in one page (R100). -/
def rowRuns (page : Nat → Nat) : Nat → Nat → Nat → List (Nat × Nat)
  | 0, _, _ => []
  | fuel + 1, lo, hi =>
    if hi ≤ lo then []
    else
      let n := ((List.range (min 16 (hi - lo))).takeWhile fun j => page (lo + j) == page lo).length
      (lo, n) :: rowRuns page fuel (lo + n) hi

/-- The page a virtual address lies in, as its first address (R100). -/
def pageOf (k : Core) (t va : Nat) : Nat :=
  match k.tlb.find? (entryHits · t va) with
  | some e => va / pageBytes e.big * pageBytes e.big
  | none => va / Config.page2M * Config.page2M

/-- The virtual addresses whose pages the instruction touches: its data rows from row `lo` on, then its scale bytes, all
of which its final step moves (R102). -/
def touched (cfg : BitVec 32) (base r0 c0 lo : Nat) : List Nat :=
  let b := blocksPerRow (cfgFmt cfg) (cfgWords cfg)
  (List.range (cfgRows cfg - lo)).map (fun j => rowVa base r0 c0 (lo + j)) ++
  (if b = 0 then [] else (List.range (cfgRows cfg)).map fun j => scaleVa (cfgFmt cfg) base r0 c0 j)

/-- Translate a virtual address that is known to hit. -/
def hitPa (k : Core) (t va acc : Nat) : Nat :=
  match xlate k t va acc with | .hit pa => pa | _ => 0

/-- The requests of rows `lo` to `hi − 1`, and where `sc` of the scale bytes of the whole tile (R100, R102). -/
def moveParts (k : Core) (t acc : Nat) (cfg : BitVec 32) (base r0 c0 lo hi : Nat) (sc : Bool) : List MovePart :=
  let b := blocksPerRow (cfgFmt cfg) (cfgWords cfg)
  let rows := rowRuns (fun i => pageOf k t (rowVa base r0 c0 i)) 64 lo hi
  let sVa := scaleVa (cfgFmt cfg) base r0 c0
  let n := cfgRows cfg
  let srows := if sc && b != 0 then rowRuns (fun i => pageOf k t (sVa i)) 64 0 n else []
  -- the scale bytes form one request per page: merge the runs of one page
  let pages := (srows.map fun r => pageOf k t (sVa r.1)).eraseDups
  (rows.map fun r =>
    { segs := (List.range r.2).map fun j => (hitPa k t (rowVa base r0 c0 (r.1 + j)) acc, 4 * cfgWords cfg)
      va := BitVec.ofNat 64 (rowVa base r0 c0 r.1), first := r.1, count := r.2 }) ++
  (pages.map fun p =>
    let is := (List.range n).filter fun i => pageOf k t (sVa i) == p
    { segs := is.map fun i => (hitPa k t (sVa i) acc, b)
      va := BitVec.ofNat 64 (sVa (is.headD 0)), first := is.headD 0, count := is.length, scale := true })

/-- What one page touched by the instruction answers at issue. -/
inductive PageAns where
  | ok (s : State)
  | stop (a : Act)
  | absent (va : Nat) (s : State)

/-- Translate every page touched, in order; each hit makes its entry the most recently used (R75, R102). -/
def pagesAns (x : Issue) (t acc : Nat) : List Nat → State → PageAns
  | [], s => .ok s
  | va :: rest, s =>
    if 2 ^ 48 ≤ va then .stop (.fault .translation (BitVec.ofNat 64 va) s)
    else match xlate (coreOf s x.core) t va acc with
    | .hit pa =>
      if pastLs pa 1 then .stop (.fault .bounds (BitVec.ofNat 64 va) s)
      else pagesAns x t acc rest (setCore s x.core (tlbTouch (coreOf s x.core) t va))
    | .denied => .stop (.fault .permission (BitVec.ofNat 64 va) s)
    | .miss =>
      if (stCtx s x.core x.ctx).absent = some (va / Config.page2M) ∧ walkOut s t va acc = .page then .absent va s
      else .stop (.wait .waitMem (.walkTile va acc) (addWalk s x.core t va))

/-- Hand rows `lo` to `hi − 1` to the unit, which sends their requests in its order (R102, R519). -/
def startMove (x : Issue) (load : Bool) (tile : Nat) (lo hi : Nat) (whole : Bool) (parts : List MovePart)
    (s : State) : State :=
  let cx := stCtx s x.core x.ctx
  let id := s.nextId
  let m : Move := { id := id, ctx := x.ctx, order := cx.order, pc := cx.pc, load := load, tile := tile,
                    first := lo, upto := hi, whole := whole, plan := parts }
  let s1 := onCore { s with nextId := id + 1 } x.core fun k => { k with moves := k.moves ++ [m] }
  if load then pumpUnit s1 x.core
  else onCore s1 x.core fun k => parts.foldl (fun k p => p.segs.foldl (fun k e => pfInvalidate k e.1 e.2) k) k

/-- tload and tstore (R99 to R102): where a page is not resident, the unit takes the rows before it. -/
def moveOp (x : Issue) (load : Bool) (tn : TileNo) (ga : Reg) (r0 : BitVec 6) (c0 : BitVec 4) (s : State) :
    Host.Outcome State Fault Refusal :=
  issue x true [ga.toNat] [] (fun s =>
    let k := coreOf s x.core
    let cx := ctxOf k x.ctx
    let t := cx.tenant.toNat
    let tile := tn.toNat
    let cfg := (tileOf k tile).cfg
    let base := readG cx ga.toNat
    let acc := if load then 0 else 1
    let lo := if cx.resume then cx.srow.toNat else 0
    let n := cfgRows cfg
    let clear := fun (s : State) => onCtx s x.core x.ctx fun y => { y with absent := none, resume := false }
    if !ownsTile cx tile then .fault .permission 0 s
    else if n = 0 then .fault .tileConfig 0 s
    else match moveCheck cfg base r0.toNat c0.toNat with
      | some c => .fault c base s
      | none =>
        if !load && tileLoadBefore k x.ctx tile cx.order then .wait .waitMem (.tileLoad tile) s
        else if 12 ≤ k.moves.length then .wait .waitUnit .moveUnit s
        else match pagesAns x t acc (touched cfg base.toNat r0.toNat c0.toNat lo) s with
          | .stop a => a
          | .ok s0 =>
            .next (startMove x load tile lo n true
              (moveParts k t acc cfg base.toNat r0.toNat c0.toNat lo n true) (clear s0))
          | .absent va s0 =>
            let pg := va / Config.page2M
            let before := ((List.range (n - lo)).map (lo + ·)).takeWhile fun i =>
              rowVa base.toNat r0.toNat c0.toNat i / Config.page2M != pg
            let hi := lo + before.length
            let s1 := if hi ≤ lo then s0
              else startMove x load tile lo hi false
                (moveParts k t acc cfg base.toNat r0.toNat c0.toNat lo hi false) s0
            .wait .waitPage (.page va) (countPageWait (onCtx s1 x.core x.ctx fun y =>
              { y with srow := BitVec.ofNat 6 (min hi (n - 1)), resume := true, absent := none, order := y.order + 1,
                       pageAt := s.ftime }) t)) s

def execTload (x : Issue) (td : TileNo) (ga : Reg) (r0 : BitVec 6) (c0 : BitVec 4) (s : State) :
    Host.Outcome State Fault Refusal := moveOp x true td ga r0 c0 s

def execTstore (x : Issue) (ts : TileNo) (ga : Reg) (r0 : BitVec 6) (c0 : BitVec 4) (s : State) :
    Host.Outcome State Fault Refusal := moveOp x false ts ga r0 c0 s

/-! ## Ports and the operand cache (R97) -/

/-- A read of a row through a port: served from the latch or the cache where they hold it (R97). R97 does not say whether a
read that the latch serves counts as a use in the cache: in the model every read moves its row to the front of the cache, or
enters it in place of the least recently used one (DESIGN CHOICE, log entry 151). -/
def portRead (k : Core) (port : Nat) (row : OpcRow) : Core :=
  let hit := tabFind k.latches port = some row || k.opc.contains row
  let k1 := { k with latches := put k.latches port row
                     opc := (row :: k.opc.filter (· != row)).take 4 }
  if hit then coreBump k1 0x156 1 else k1

/-! ## The unit's work -/

/-- Cut bytes into rows of `w` bytes. -/
def cutRows (w : Nat) : Nat → List Byte → List (List Byte)
  | 0, _ => []
  | n + 1, bs => bs.take w :: cutRows w n (bs.drop w)

/-- Write the data rows of a response (R101). -/
def storeRows (n t first w : Nat) (bytes : List Byte) (count : Nat) (k : Core) : Core :=
  ((cutRows w count bytes).zipIdx).foldl (fun k e => writeRow k n t (first + e.2) e.1 []) k

/-- Write the scale bytes of a response (R101). -/
def storeScales (t first b : Nat) (bytes : List Byte) (count : Nat) (k : Core) : Core :=
  ((cutRows b count bytes).zipIdx).foldl (fun k e =>
    setTile k t (setTileScales (tileOf k t) (first + e.2) e.1)) k

/-- Take a request out of its tload, which completes with its last part (R101). -/
def closePart (k : Core) (mid id : Nat) : Core :=
  let ms := k.moves.map fun m => if m.id == mid then { m with open_ := m.open_.erase id } else m
  match ms.find? (fun m => m.id == mid && m.open_ == [] && m.plan == []) with
  | none => { k with moves := ms }
  | some m => finishMove { k with moves := ms } m

/-- A response of a tload writes its rows, and the scale bytes after the last data row (R101); the writes
wait for every earlier read and write of the tile (R105). -/
def execTloadRowArrival (id : Nat) (s : State) : Host.Outcome State Fault Refusal :=
  match s.reqs.find? (·.id == id) with
  | none => .next s
  | some r =>
    let k := coreOf s r.core
    let t := fun (m : Move) => m.tile
    let ready := fun (m : Move) =>
      !tileReadBefore k r.ctx m.tile m.order && !tileLoadBefore k r.ctx m.tile m.order &&
      !tileVecWriteBefore k r.ctx m.tile m.order
    let drop := { s with reqs := s.reqs.filter fun q => q.id != id }
    match r.st, r.who with
    | .done bytes, .tileRows mid first count =>
      match k.moves.find? (·.id == mid) with
      | some m =>
        if r.tagged || !ready m then .next s
        else
          let w := 4 * cfgWords (tileOf k (t m)).cfg
          .next (settle (onCore drop r.core fun k =>
            closePart (storeRows r.ctx (t m) first w bytes count k) mid id) r.core)
      | none => .next s
    | .done bytes, .tileScales mid first count =>
      match k.moves.find? (·.id == mid) with
      | some m =>
        let others := s.reqs.any fun q => match q.who with | .tileRows mid' _ _ => mid' == mid | _ => false
        if r.tagged || !ready m || others || m.plan.any (!·.scale) then .next s
        else
          let cfg := (tileOf k (t m)).cfg
          let b := blocksPerRow (cfgFmt cfg) (cfgWords cfg)
          .next (settle (onCore drop r.core fun k =>
            closePart (storeScales (t m) first b bytes count k) mid id) r.core)
      | none => .next s
    | _, _ => .next s

/-- A tstore reads its rows, rows of a clear ROWV bit as zero, and the unit posts its writes in its order (R93, R101,
R519); it faults where a word of the tile or its strip fails the retry (R430). -/
def execTstoreStart (core id : Nat) (out : PortOutcome) (s : State) : Host.Outcome State Fault Refusal :=
  let k := coreOf s core
  match k.moves.find? (fun m => m.id == id && !m.load && !m.read) with
  | none => .next s
  | some m =>
    if tileLoadBefore k m.ctx m.tile m.order || tileVecWriteBefore k m.ctx m.tile m.order then .next s
    else match sramRead s core out with
    | (s1, true) =>
      .next (unitFault (onCore s1 core fun k => { k with moves := k.moves.filter fun o => o.id != id }) core m.ctx .memError 0 m.pc m.order)
    | (s1, false) =>
      let t := tileOf k m.tile
      let w := 4 * cfgWords t.cfg
      let data := fun (p : MovePart) =>
        (List.range p.count).flatMap fun j =>
          if p.scale then tileScales t (p.first + j) else (tileRow t (p.first + j)).take w
      .next (settle (onCore s1 core fun k => { k with moves := k.moves.map fun o =>
        if o.id == id then { o with read := true, plan := o.plan.map fun p => { p with data := data p } } else o }) core)

end Sys2Proof.Machine
end

