-- ==== Sys2Proof/Machine/Array.lean ====
section
/-! DEFINITION. The matrix array (R108 to R124) and the arithmetic of a pass (R42 to R48). -/

namespace Sys2Proof.Machine
open Sys2Proof

/-! ## Issue (R110, R111, R163) -/

/-- Format of a shape code's operands (R110). -/
def shapeFmt (shape : Nat) : Nat := if shape = 4 then 2 else if shape = 5 then 3 else 1

/-- The scale byte of tile row r, block b as the strip holds it, 0 for a row not written (R93). -/
def stripByte (t : Tile) (r b : Nat) : Nat := ((tileScales t r).getD b 0).toNat

/-- Every square of the tile carries one scale value (R54). -/
def squareScaled (t : Tile) : Bool :=
  let side := if cfgFmt t.cfg = 3 then 16 else 32
  (List.range (blocksPerRow (cfgFmt t.cfg) (cfgWords t.cfg))).all fun b =>
    (List.range (cfgRows t.cfg)).all fun r => stripByte t r b == stripByte t (r / side * side) b

/-- A streaming tile matches R110, with `rows` rows. -/
def streamMatches (k : Core) (shape rows t : Nat) : Bool :=
  let cfg := (tileOf k t).cfg
  cfgFmt cfg == shapeFmt shape && cfgWords cfg == 16 && cfgRows cfg == rows && rows != 0

/-- The stationary tile matches R110. -/
def stationaryMatches (k : Core) (shape tw : Nat) : Bool :=
  let cfg := (tileOf k tw).cfg
  cfgFmt cfg == shapeFmt shape && cfgWords cfg == 16 && cfgRows cfg == (if shape = 5 then 32 else 64)

/-- tmma at issue (R111, R112, R105). The test of R54 is made once no tload and no earlier vector write of tw is in flight (log
entry 13). -/
def execTmma (x : Issue) (ts tw : TileNo) (ad : BankNo) (d0 : BitVec 6) (shape : BitVec 3) (t c ax : Bool)
    (gx : Reg) (s : State) : Host.Outcome State Fault Refusal :=
  issue x (decide (shape.toNat ≤ 5) && !(t && shape != 0 && shape != 5) && !(ax && !c))
    (if c && !ax then [gx.toNat] else []) [] (fun s =>
    let k := coreOf s x.core
    let cx := ctxOf k x.ctx
    let sh := shape.toNat
    let streams := streamTiles sh ts.toNat
    let rows := cfgRows (tileOf k ts.toNat).cfg
    if !((tw.toNat :: streams).all (ownsTile cx ·)) || !((destBanks sh ad.toNat).all (ownsBank cx ·)) then
      .fault .permission 0 s
    else if !(streams.all (streamMatches k sh rows ·)) || !stationaryMatches k sh tw.toNat then
      .fault .tileConfig 0 s
    else match (tw.toNat :: streams).find? (fun i => tileLoadBefore k x.ctx i cx.order) with
      | some i => .wait .waitMem (.tileLoad i) s
      | none =>
        if t && tileVecWriteBefore k x.ctx tw.toNat cx.order then .wait .waitUnit (.tileWrite tw.toNat) s
        else if t && !squareScaled (tileOf k tw.toNat) then .fault .tileConfig 0 s
        else if 64 < d0.toNat + rows then .fault .bounds 0 s
        else if 8 ≤ k.aq.length then .wait .waitUnit .arrayQueue s
        else
          let p : Pass := { id := s.nextId, ctx := x.ctx, order := cx.order, pc := cx.pc, ts := ts.toNat,
                            tw := tw.toNat, ad := ad.toNat, d0 := d0.toNat, shape := sh, t := t, c := c, ax := ax,
                            q := if c && !ax then (readG cx gx.toNat).setWidth 10 else 0, rows := rows }
          .next (onCore { s with nextId := s.nextId + 1 } x.core fun k =>
            ctxBump { k with aq := k.aq ++ [p] } x.ctx 0x109 1)) s

/-! ## Stationary sets (R113 to R115) -/

def passTag (p : Pass) : SetTag := { ctx := p.ctx, tw := p.tw, t := p.t, shape := p.shape }

/-- The set whose tag matches the pass: none on a stationary miss (R113). -/
def hitSet (k : Core) (p : Pass) : Option Bool :=
  if (setOf k false).tag = some (passTag p) then some false
  else if (setOf k true).tag = some (passTag p) then some true
  else none

/-- The pass that starts next: the oldest of the queue that has not started (R112). -/
def nextPass (k : Core) : Option Pass := k.aq.find? fun p => p.stage == .queued

/-- No earlier vector write of its context to a tile or bank of the pass is open (R105, R121). -/
def passOrdered (k : Core) (p : Pass) : Bool :=
  (passTiles p).all (fun t => !tileVecWriteBefore k p.ctx t p.order) &&
  (passBanks p).all (fun b => !bankVecWriteBefore k p.ctx b p.order)

def setPass (k : Core) (p : Pass) : Core :=
  { k with aq := k.aq.map fun o => if o.id == p.id then p else o }

/-- A lasting error of a word that a pass reads: the pass ends, and its tmma faults (R430). -/
def passFault (s : State) (core : Nat) (p : Pass) : State :=
  unitFault (onCore s core fun k => { k with aq := k.aq.filter fun o => o.id != p.id }) core p.ctx .memError 0 p.pc p.order

/-- Some stationary load runs (R115). -/
def loadRuns (k : Core) : Bool := (setOf k false).loading || (setOf k true).loading

/-- A shape-3 pass is reading its data rows (R117): the last pass to start, whose last read is 128 CCLK cycles before its last
operand leaves the cells (R116). -/
def readsShape3 (k : Core) : Bool :=
  (match k.lastMap with | some (_, sh) => sh == 3 | none => false) && decide (128 < k.arrLeft)

/-- A stationary load starts for the next pass, into the set that the preceding pass does not use (R114);
after a reset, with no preceding pass, into set A (log entry 14). One load runs at a time (R115), none while a shape-3 pass
reads its rows (R117). The tmma faults where a word of the tile fails the retry, and no set changes (R430). -/
def execStationaryLoadStart (core : Nat) (out : PortOutcome) (s : State) : Host.Outcome State Fault Refusal :=
  let k := coreOf s core
  match nextPass k with
  | none => .next s
  | some p =>
    if (hitSet k p).isSome || loadRuns k || readsShape3 k || !passOrdered k p then .next s
    else match sramRead s core out with
    | (s1, true) => .next (passFault s1 core p)
    | (s1, false) =>
      let k := coreOf s1 core
      let b := match k.lastMap with | some (used, _) => !used | none => false
      let t := tileOf k p.tw
      let rows := (List.range (cfgRows t.cfg)).foldl (fun m r => setBytes m (64 * r) (tileRow t r)) []
      let nb := blocksPerRow (cfgFmt t.cfg) 16
      let strip := (List.range (cfgRows t.cfg)).foldl (fun m r => setBytes m (r * nb) (tileScales t r)) []
      let k1 := setStatSet k b { tag := some (passTag p), data := rows, strip := strip, words := 16, loading := true }
      let k2 := coreBump (setPass k1 { p with counted := true, hit := false }) 0x14B 1
      .next (setCore s1 core k2)

/-- The running stationary load ends (R115). -/
def execStationaryLoadEnd (core : Nat) (s : State) : Host.Outcome State Fault Refusal :=
  .next (onCore s core fun k =>
    { k with sets := k.sets.map fun p => (p.1, { p.2 with loading := false }) })

/-! ## The products of a pass (R43 to R47, R110, R119, R122, R123) -/

/-- A sub-product: its streaming tile, the K blocks it uses, its columns and its bank (R110). -/
structure SubProduct where
  tile : Nat
  blocks : List Nat
  col : Nat
  cols : Nat
  bank : Nat
  deriving DecidableEq, Repr

def subProducts (shape ts ad : Nat) : List SubProduct :=
  let sub := fun (c : Nat) (bl : List Nat) (col cols b : Nat) =>
    ({ tile := (ts + c) % 16, blocks := bl, col := col, cols := cols, bank := (ad + b) % 4 } : SubProduct)
  match shape with
  | 1 => [sub 0 [0, 1] 0 32 0, sub 1 [0, 1] 32 32 1]
  | 2 => [sub 0 [0] 0 32 0, sub 1 [0] 32 32 1, sub 0 [1] 0 32 2, sub 1 [1] 32 32 3]
  | 3 => [sub 0 [0] 0 16 0, sub 1 [0] 16 16 0, sub 2 [0] 32 16 1, sub 3 [0] 48 16 1,
          sub 0 [1] 0 16 2, sub 1 [1] 16 16 2, sub 2 [1] 32 16 3, sub 3 [1] 48 16 3]
  | 4 => [sub 0 [0, 1, 2, 3] 0 64 0]
  | 5 => [sub 0 [0, 1] 0 32 0]
  | _ => [sub 0 [0, 1] 0 64 0]

/-- One operand block: its scale byte and its elements. -/
abbrev OpBlock := Nat × List Int

/-- Block b of row bytes and scale bytes. -/
def rowBlock (fmt : Nat) (row scales : List Byte) (b : Nat) : OpBlock :=
  ((scales.getD b 0).toNat, ((rowElems fmt row).drop (b * blockSize fmt)).take (blockSize fmt))

/-- Block b of the weights of output column n, from the bytes of a stationary set (R110, R115). -/
def statBlock (g : StatSet) (fmt : Nat) (t : Bool) (n b : Nat) : OpBlock :=
  let nb := blocksPerRow fmt 16
  if t then
    let bs := blockSize fmt
    ((byteAt g.strip (bs * b * nb + n / bs)).toNat,
     (List.range bs).map fun j => (rowElems fmt (bytesAt g.data (64 * (bs * b + j)) 64)).getD n 0)
  else rowBlock fmt (bytesAt g.data (64 * n) 64) (bytesAt g.strip (n * nb) nb) b

/-- The largest scale byte that is not OVF (R119); none where all are. -/
def maxScale (es : List Nat) : Option Nat :=
  (es.filter (· != 255)).foldl (fun m e => match m with | none => some e | some v => some (max v e)) none

/-- The automatic exponent of a bank (R45): Pmax, plus 15 in int16 mode; 0 where every block is OVF. The
operands are per block the streaming and the stationary scale bytes. -/
def autoExp (fmt : Nat) (bls : List (List Nat × List Nat)) : Int :=
  let ps := bls.filterMap fun p => match maxScale p.1, maxScale p.2 with
    | some a, some b => some (productExp fmt a b)
    | _, _ => none
  match ps with
  | [] => 0
  | p :: rest => rest.foldl max p + (if fmt = 3 then 15 else 0)

/-- The operands of one sub-product: per streamed row its blocks, per column its blocks. -/
def subOperands (k : Core) (g : StatSet) (p : Pass) (sp : SubProduct) :
    List (List OpBlock) × List (List OpBlock) :=
  let fmt := shapeFmt p.shape
  let t := tileOf k sp.tile
  ((List.range p.rows).map fun m => sp.blocks.map (rowBlock fmt (tileRow t m) (tileScales t m)),
   (List.range sp.cols).map fun n => sp.blocks.map (statBlock g fmt p.t (sp.col + n)))

/-- The scale bytes that feed a bank, per block position (R45). -/
def feeds (ops : List (List OpBlock) × List (List OpBlock)) : List (List Nat × List Nat) :=
  (List.range ((ops.1.headD []).length)).map fun i =>
    (ops.1.map fun r => (r.getD i (0, [])).1, ops.2.map fun r => (r.getD i (0, [])).1)

/-- The sum of a row's aligned contributions to a column (R43, R44). -/
def elemSum (fmt : Nat) (q : Int) : List OpBlock → List OpBlock → Int
  | a :: as, b :: bs => contribution fmt q a.1 b.1 (dot a.2 b.2) + elemSum fmt q as bs
  | _, _ => 0

/-- The exponent a pass that does not clear uses: that of the latest earlier pass of the queue that clears the
bank, else the bank's AEXP (R45); none where the bank then counts as cleared. -/
def heldExp (k : Core) (p : Pass) (b : Nat) : Option Int :=
  let earlier := k.aq.filter fun o => decide (o.order < p.order) && o.ctx == p.ctx && o.clears.contains b
  match earlier.getLast? with
  | some o => some (look 0 o.qs b)
  | none => if (bankOf k b).status.aexpSet then some (signed 10 (bankOf k b).status.aexp.toNat) else none

/-- The pass with its exponents, clears, poison and sums, from set `g`. -/
def computePass (k : Core) (g : StatSet) (p : Pass) : Pass :=
  let fmt := shapeFmt p.shape
  let subs := (subProducts p.shape p.ts p.ad).map fun sp => (sp, subOperands k g p sp)
  let banks := passBanks p
  let held := banks.map fun b => (b, if p.c then none else heldExp k p b)
  let qs := held.map fun e =>
    (e.1, match e.2 with
      | some q => q
      | none => if p.c && !p.ax then signed 10 p.q.toNat
                else autoExp fmt ((subs.filter fun sp => sp.1.bank == e.1).flatMap fun sp => feeds sp.2))
  let ovf := fun (bs : List (List OpBlock)) => bs.any fun r => r.any fun o => o.1 == 255
  let sums := subs.flatMap fun sp =>
    let q := look 0 qs sp.1.bank
    (sp.2.1.zipIdx).flatMap fun row =>
      (sp.2.2.zipIdx).map fun col =>
        (sp.1.bank * 4096 + row.2 * 64 + (sp.1.col + col.2), elemSum fmt q row.1 col.1)
  { p with qs := qs, sums := sums, clears := (held.filter fun e => e.2.isNone).map (·.1),
           psnis := banks.filter fun b => subs.any fun sp => sp.1.bank == b && (ovf sp.2.1 || ovf sp.2.2) }

/-- The rows a pass streams, each from every streaming tile. -/
def streamReads (p : Pass) : List OpcRow :=
  (List.range p.rows).flatMap fun m => (streamTiles p.shape p.ts).map fun t => (t, m)

/-- A shape-3 pass that could read its rows but for a stationary load (R117). -/
def shape3Held (k : Core) : Bool :=
  match nextPass k with
  | none => false
  | some p => p.shape == 3 && loadRuns k && (hitSet k p).isSome && passOrdered k p

/-- CCLK cycles from the first header cycle of a pass until its last operand has left the cells (R108, R116). -/
def operandCycles (rows : Nat) : Nat := rows + 130

/-- The array begins a pass (R112, R113, R116, R117, R124): the set must match, or be loading, its tag; a shape-3 pass reads
no row while a load runs. The tmma faults where a word of its tiles or of the set fails the retry (R430). -/
def execArrayPassStart (core : Nat) (out : PortOutcome) (s : State) : Host.Outcome State Fault Refusal :=
  let k := coreOf s core
  match nextPass k with
  | none => .next s
  | some p =>
    match hitSet k p with
    | none => .next s
    | some b =>
      if !passOrdered k p || shape3Held k then .next s
      else match sramRead s core out with
      | (s1, true) => .next (passFault s1 core p)
      | (s1, false) =>
        let k := coreOf s1 core
        let k1 := (streamReads p).foldl (portRead · 0) k
        let p0 := computePass k (setOf k b) p
        let p1 := { p0 with stage := .started, setB := b, counted := true, hit := p.hit || !p.counted }
        let k2 := if p.counted then k1 else coreBump k1 0x14A 1
        let gap := if p.shape = 1 then 5 else if p.shape = 2 then 20 else 0
        let k3 := if k.lastMap = some (b, p.shape) then k2 else coreBump k2 0x14C gap
        let k4 := if 225 ≤ k.arrIdle then coreBump k3 0x14F 1 else k3
        let k5 := { k4 with lastMap := some (b, p.shape), arrIdle := 0, colsOff := 0,
                            arrLeft := max k.arrLeft (operandCycles p.rows) }
        .next (setCore s1 core (setPass k5 p1))

/-- The previous value plus the pass's sum, judged once (R46): the element and whether it overflowed. -/
def commitElem (prev sum : Int) : Int × Bool := (clampInt (prev + sum), outside (prev + sum))

/-- The commit phase writes the destination rows of every bank (R46, R47, R116 step 15, R121). Where a word of a bank fails the
retry the pass ends before it commits, and its tmma faults (R430). -/
def execPassCommitStart (core id : Nat) (out : PortOutcome) (s : State) : Host.Outcome State Fault Refusal :=
  let k := coreOf s core
  match k.aq.find? (fun p => p.id == id && p.stage == .started) with
  | none => .next s
  | some p =>
    let earlier := k.aq.takeWhile fun o => o.id != id
    if earlier.any fun o => (passBanks o).any ((passBanks p).contains ·) then .next s
    else match sramRead s core out with
    | (s1, true) => .next (passFault s1 core p)
    | (s1, false) =>
      let k := coreOf s1 core
      let cleared := fun (k : Core) (b : Nat) =>
        if p.clears.contains b then setBank k b { bankOf k b with elems := [] } else k
      let k1 := (passBanks p).foldl cleared k
      let write := fun (acc : Core × List Nat) (e : Nat × Int) =>
        let b := e.1 / 4096
        let row := p.d0 + e.1 % 4096 / 64
        let col := e.1 % 64
        let r := commitElem (bankElem (bankOf acc.1 b) row col) e.2
        (setBank acc.1 b (setBankElem (bankOf acc.1 b) row col r.1), if r.2 then b :: acc.2 else acc.2)
      let res := p.sums.foldl write (k1, [])
      .next (setCore s1 core (setPass res.1 { p with stage := .committing, ovfls := res.2 }))

/-- The status word a pass leaves in bank b (R45, R47, R49). -/
def passStatus (p : Pass) (b : Nat) (st : BankStatus) : BankStatus :=
  let st1 := if p.clears.contains b then
      { aexp := BitVec.ofInt 10 (look 0 p.qs b), aexpSet := true, ovfl := false, psni := false } else st
  { st1 with ovfl := st1.ovfl || p.ovfls.contains b, psni := st1.psni || p.psnis.contains b }

/-- AEXP and flags are written and the pass retires (R116 step 16). -/
def execPassRetire (core id : Nat) (s : State) : Host.Outcome State Fault Refusal :=
  let k := coreOf s core
  match k.aq.find? (fun p => p.id == id && p.stage == .committing) with
  | none => .next s
  | some p =>
    let k1 := (passBanks p).foldl (fun k b =>
      setBank k b { bankOf k b with status := passStatus p b (bankOf k b).status }) k
    let k2 := coreBump (coreBump { k1 with aq := k1.aq.filter fun o => o.id != id } 0x148 1) 0x149 p.rows
    .next (settle (setCore s core k2) core)

/-- Ramp-down (R124): two more columns are disabled once the idle count has reached their cycle. -/
def execArrayRampDown (core : Nat) (s : State) : Host.Outcome State Fault Refusal :=
  .next (onCore s core fun k =>
    if k.colsOff < 64 ∧ 225 + k.colsOff / 2 ≤ k.arrIdle ∧ k.arrLeft = 0 then { k with colsOff := k.colsOff + 2 }
    else k)

end Sys2Proof.Machine
end

