-- ==== Sys2Proof/Machine/Tables.lean ====
section
/-! DEFINITION. The fixed tables of the function unit (R137), each entry rounded to the nearest integer, ties
to even. A table is one number: entry i is its bits 34i + 33 to 34i, in two's complement. -/

namespace Sys2Proof.Machine

/-- T[i] = round(2^30 × 2^(i/256)), i = 0 to 256. -/
def tabT : Nat :=
  0x800000001fe9d96b47f4f08ae1fbdba3687e9f06061f91d80247deff6b61f66327987d41d96e1f3ac948c7c94acde1f0f9c1cc7be86fba1ee4aaa207b3d20b61eb9f48687a92be8b1e8f7977c79e947ef1e65392487940bb9e1e3b333b0789918541e11676b077f25cce1de7d5640774c87cc1dbe7cd6476a7980f1d955d72076038c5b1d6c76e88756063741d43c8eac74be1c201d1b532b0741cb5281cf3155b4737c2d551ccb0f2e872dc83741ca340574723db6501c7ba8898719fc4b91c54477907102ad801c2d1cda070666f761c06286146fcb096f1bdf69c406f307a411bb8e0b786e96c0c31b928cf246dfddbcc1b6c6e2a06d65ca381b468415c6cce8ae11b20ce6c86c381ca61afb4ce646ba27e651ad5ff3a46b0daeff1ab0e52146a79ad561a8bfe53c69e6784d1a674a8b069540ec91a42c980468c26fb11a1e7aed8683199ed19fa5e8d067a18c6819d6741946712460b19b2bb4d46683c5c3198f33e4865f60a7f196bdd9a86569132f1948b82b464dcdec31925c353c64516c2e1902fed0463c6ba6418e06a5e0633cc85b18be05bac62b39509189bd0a48622b1f661879cad9461a3666d1857f4178611c691918364c1ec609626651814d2adc60109d5117f3878485f8bccdb17d26a6305f07b40517b17b0985e8451d01790b938c5e01a53f177024b1c5d7fad59174fbd35c5cfe6923172f828705c7dd7a4170f746705bfdf7e516ef929845b7ec8f216cfdcddc5b0049d416b052fa85a82799a1690f4b185a0557511671c1c705988e2091652b9fec590d18d31633dd1d05891fac116152ae6c581786e615f6a320c579dbc5715d84590857249a2915ba11fbc56ac1f75159c0828056344b52157e27dc055bd1cdb156070de0554693291542e2f5054d0ad5a15257de84545b6a8b1508417f453e6c9da14eb2d81c5372ca6814ce41b8052ff6b5514b17dea8528cabc31494e1e18521a8ad714786d66851a907b4145c2042c51382182143ffa3f850c7d7651423fb27050582888140822c384fe9141313ec70df04f7a993013d0e54504f0cb70c13b57fc004e9f6cd4139a401b84e32b9b4137f262304dc69cdd136431a2c4d5b157e1349626704cf022ca132eb83bc4c85c3f1131432ee04c1bf82912f9d24ac4bb2bea512df961f84b4a169c12c57e3984ae1ff4312ab8a66c4a7a77d41291ba7584a137f8812780e34049ad1598125e857104947393f12451ffb848e1e9ba122bdda28487d26461212be3584818ee2211f9c184447b5408c11e0e75ec47521cc611c82f95446ef821011af99f80468d6fae119726584462be4e2117ed486845cae0f21166a4548456a6323114e95934450a6abb1136a815044aaf702111edbab4444c074011073028c43ed9ac010efa55fc438fb0cb10d83b234433248ae10c0f146042d561b410a9c79b04278fb2b1092bdf68421d1462107bd42b841c1aca710650a0e44166c34c104e5f730410c57a21037d42e040b268fa1021681444058f6a8100b1afa440000000

/-- L[i] = round(2^30 × log2(1 + i/256)), i = 0 to 256. -/
def tabL : Nat :=
  0x400000000ff47278c3fa37c990fdd460303f469c230fc6023203ee95de20faea6d683e8bc1180f9733c0c3e2dc5040f7fa8c043dcf68e30f6805a443d70abf20f504a3b03d118d670f38765243cb20c790f2089b743c52285c0f088436c3bf1e0410ef0659cc3b9133560ed82db443b3020c80ebfdc4843acea7c00ea77122c3a6cc7650e8eec0cc3a0a7eda0e764ccf839a7cd420e5d933283944b1b90e44befd038e12b5d0e2bcff5c387d39460e12c5e2c3818da890df9a088c37b40e3a0de05fac0374ed3670dc70310436e9291f0dad8a78436830e690d93f5a60361c824d0d7a445a835b583ce0d6076564354e11eb0d468b58c34e62ba00d2c83208347dcfe70d125d6b83414fdb50cf819f6833abb3fb0cddb87d43341f1a70cc338bb832d7b5a50ca89a6ac326cfedb0c8ddd4483201cc2c0c730101031961c770c58055783129ee960c3ce9fe430bd41610c21aeaa8305013ab0c06531042fe264430bead6e2c2f7431f20bcf39d442f057b800bb37b9582e963fad0b979bd682e267d360b7b9a4602db632d50b5f769142d455f3d0b433064c2cd4011d0b26c76bc2c62171f0b0a3b5002bef9fe80aed8bba82b7c9a190ad0b85242b09044d0ab3c0bdc2a94dd190a96a4a182a20230e0a7963a0c29aad4b60a5bfd5e02934f0980a3e7179828be75310a20bf928284760fd0a02e746827cfb26f09e4e8324275767f509c6c1f0026de7ff709a8741942664f8d50989fe45025ead0ec096b6009c2570068e094c98fb424f4980b092da8ac4247883a8090e8eadc23fbc7a608ef4a8ec237e623d08cfdbdc82300519f08b042224228193f508907ce9c2202276308708bbac21820a0208506e1a8210139e50830238d0207fb517080fab93c1ffd799b07ef05ae41f7a856907ce315a01ef6d67307ad2e1201e726aa2078bfb4f41ded3fd4076a988881d6753e00749053201ce0a492072740bdc1c592fad07054a9b01bd0f2ea06e3223701b47ebf706c0c6fc01abe1879069e3851c1a33760a067b759d819a8023906587e414191bba890635519d0188e9c730611ef0d01800a56305ee55eb01771d2ba05ca858e016e221ce05a67d49416518fe405823c6d015c01a3a055dc246c152dbdfc05390e204149a784c05141f3fc1406463b04eef4e84137124cf04c98e58c12db10fc04a3eacd8124407ab047e097dc11ac05b30457e99dc111307db04318a5d410790adc040aeae880fde0b5d03e40a6740f4205f403bce7fc80ea4f726039582c780e06db67036dd9e300d67af170345ec6480cc76e84031db95d00c2615e802f53fd900b83a16a02cc7edf40ae00d1d02a3757200a3b54fd027a228dc099574f102508529808ee68cc02269c36808462c4601fc66a10079cbb0401d1e34e406f2109001a7111e00646285c017beee980598fdbf01507b83804ea8bf70124b5b80043ace2800f89c4c00389bf5700cc2dfe002d75a6f009f6984c02239a3b00724d8f0016e79680044d8c4400b7f286001709c4800000000

/-- Rc[i] = round(2^30 / (1 + i/256)), i = 0 to 256. -/
def tabRc : Nat :=
  0x2000000008040201020202020080c121b4204081020814327e42061236a081c635bc208208210824a4e6020a32ff0082cf750420c49ba608355ace420e64c15083dcf94c21084211084655d9c212a7e72084eedd34214d0215085797b90216fcdd8086053c342192e29f0869222b021b641510872032ac21d9ead8087af6fd421fde0220883fddf022222222088d180cc2246b1cf089645c50226b9022089f874682290be1c08a8dcd2022b63cbf08b246a8822dc0d1308bbc50c82302302308c55841c2328a70108cf008d0234f72c208d8be3402376948108e2917e0239e0d5b08ec7ab3823c5de7608f67a1e423ee08fc09009009024168e19090abcc04243f6f020915009142468acf1091f5bcb8249249250929cebf424bc44e1093459be824e6a171093efd1c4251160250949b92dc253c825409548e4982568095a095f7cc742593f69b096a8500825c04b810975a751025ed097b0980e4158261a3202098c3bac82647c6940997ae76c2675c8b709a33cd6826a439f609aee72fc26d31be809baade902702702709c69169c2732385809d2921c42762762709deb06c827932b4909eaecc8c27c4597a09f747a1427f6027f0a03c1688282828280a105a934285acc4c0a1d13984288df0cb0a29ecf1828c197900a36e71a428f5c28f0a4402910292a73c70a513fd6c295fad410a5e9f6ec2995710e0a6c21df829cbc14e0a79c7b182a02a02a0a87917082a3a0fd60a957fab42a7212920aa392f342aaaaaab0ab1cbdd42ae3da790ac02b00c2b1da4610aceb0f882b580ad60add5e6342b9310570aec33e202bceb7720afb321a02c0b02c10b0a59b402c47f4ee0b19ab5c42c8590b20b2927c282cc3d8d50b38cf9b02d02d02d0b48a39d42d4279a30b58a48542d82d82e0b68d31342dc3eed70b79300b82e05c0b80b89bc36c2e4850ff0b9a7862c2e8ba2e90bab656102ecfb9c80bbc8408c2f1499030bcdd535c2f5a44120bdf59c902fa0be830bf112a8c2fe80bfa0c0300c04303030300c152500c30792ef50c278061430c30c310c3a13de8310dcbe10c4ce07b03159721f0c5fe740431a6031a0c73293d831f3831f0c86a78903241f6940c9a633fc329161fa0cae5d86032e1c9f00cc29786c333333330cd7127543385a29e0cebcf8bc33d91d2a0d00d00d0342da7f30d1615440348348350d2ba083c34da034e0d41732883531dec10d578e97c358ae0360d6df43fc35e50d790d84a599036406c810d9ba4258369d036a0db2f171c36fad87c0dca8f1583759f22a0de27eb2c37ba57130dfac1f74381c0e070e135a9c8387f1e040e2c4a68838e38e390e45932d83949660b0e5f36cb039b0ad120e79372e43a196b1f0e93965203a83a83b0eae564043aef6ca90ec9791183b5cc0ed0ee500ee43bcbadc80f00f00f03c3c3c3c0f1d48bd03cae75920f3a0d52c3d2263580f57403d43d980f660f74e3fc43e0f83e10f92fb2203e88cb3d0fb1885643f03f03f0fd08e5503f80fe040ff00ff0040000000

/-- S0[i] = round(2^30 / sqrt(1 + i/256)), i = 0 to 256. -/
def tabS0 : Nat :=
  0x2d413ccd0b53245702d57ee720b58d50682d6ec25e0b5e8e5242d85b8e60b64505042d9cd2640b6a1b1682db40f2f0b6feebb82dcb6fa30b75cb5602de2f41a0b7bb0fd02dfa9cf20b819fc802e126a890b8797ce82e2a5d3f0b8d9928c2e4275730b93a3eec2e5ab3890b99b839c2e7317e40b9fd622c2e8ba2e90ba5fdc2c2ea454ff0bac2f3402ebd2e8d0bb26a90c2ed62ffe0bb8aff342eef59bd0bbeff76c2f08ac360bc55936c2f2227d70bcbbd4e82f3bcd120bd22bdac2f559c560bd8a4f802f6f96180bdf28c302f89bacc0be5b759c2fa40aeb0bec50d9c2fbe86eb0bf2f56182fd92f480bf9a51002ff4047e0c0060048300f070c0c07265ec302a37710c0df83f4304596300c14d5c6c306123cd0c1bbf164307ce0cf0c22b45003098cdbe0c29b596830b4eb250c30c30c430d139900c37dcd5030edb98e0c3f03148310a6bb20c4635f003127508e0c4d758c4314468ba0c54c20f03161b4cc0c5c1b9f0317f35610c6382634319ceb160c6af683831bad68b0c727828031d8f8630c7a077a031f751430c81a4a303215e1d50c894fcd83234aac30c91092483253acba0c98d0d443272e86d0ca0a709432925e8f0ca88bf0c32b20fd70cb07fb9032d1fd000cb88290c32f226c60cc094a8433128deb0cc8b62f8333333330cd0e7588335417660cd92855833753b4e0ce17959833969fba0ce9da98c33b8457d0cf24c48433da2d6c0cface9e433fc58630d0361d18341ec73e0d0c061a034417ae00d14bbb0c3464742f0d1d82d043487b4160d265bb3034ab3b820d2f4695c34cf0b680d3843b5834f324bf0d4153510351788830d4a75a7c353c37b60d53aafa83561335d0d5cf38c035867c840d664f9f035ac143a0d6fbf78835d1fb960d79435e435f833b10d82db980361ebdac0d8c886e836459aae0d964a2b8366ccbe10da0211b4369452780daa0d8a836bc2fab0db40fc8836e464b70dbe28250370cf2e10dc856f243735db750dd29c83c375f1fc30ddcf92f03788c1260de76d4b037b2c0fc0df1f930c37dd20ae0dfc9d3ac3807e1aa0e0759c60383305660e122f30c385e8d610e1d1ddc0388a7b220e28262a438b6d0370e334880438e38e390e3e854503910b6c70e49dce20393e4b8b0e554fc28396c4e390e60de548399ac08c0e6c8908439c9a44b0e785051039f8fb460e8434a3c3a28c7590e903678c3a590a6a0e9c564b03a89c6690ea8949803abafd520eb4f1e043aecb12e0ec16ea783b1ee4120ece0b7403b51981d0edac8cfc3b84cf7d0ee7a747c3bb88c6e0ef4a76c83becd1370f01c9d1c3c21a02f0f0f0f0f03c56fbbc0f1c77bf83c8ce6510f2a0481c3cc362720f37b5f903cfa72b20f458ccc43d3219b60f5389a643d6a5a310f61ad3683da336ec0f6ff830c3ddcb2bd0f7e6b4e03e16d0920f8d074ac3e5193670f9bcce9c3e8cfe500faabcf203ec914740fb9d82fc3f05d9100fc91f7503f434f770fd8939983f817b110fe8357a43fc05f610ff805fb040000000

/-- S1[i] = round(2^30 / sqrt(2 + i/128)), i = 0 to 256. -/
def tabS1 : Nat :=
  0x20000000080200c0420100c0a080606c8820203051080a12e7820306d11080e252c82040c28908123da74205130f808165c6802061b89d081a817e4207259ba081eacfa8208314900822deed42093e96208271767820a4d872082b567a020b5e207082f9c36020c706640833e8ad020d845d108383bf1020e9a095083c9613820fb16f90840f7274210ca94608455f3ec211e57c60849ce6c8213022c7084e44c3c21420a940852c257c21540f7b0857473c4216631cc085bd3854217871d7086067470218acfee08650295c219d4c630869a586c21afe78a086e502f021c2a1ba087302a3c21d57b480877bcfb421e8748c087c7f4b821fb8ddf088149aac220ec79e08861c30422222222088af6f3022359dcb088fda0a822493af60894c58ec225cfa060899b99842270db5a089eb63f82284df5808a3bb9d82299066408a8c9cc022ad50e508ade0e4c22c1bf4408b30102022d651eb08b82a3ec22eb094508bd5cb5c22ffe5c008c2988342314e7cc08c7ddc30232a0fda08cd2c914233f5e5d08d2850bc2354d3ca08d7e74f4236a709808dd537a42380354008e2c9ab42396223e08e84a01023ac380e08edd49b423c2773008f3699a023d8e02508f9091dc23ef737008feb3484240631990904683a8241d1b26090a2817c243430a4090ff3024244b729e0915c91dc2462e1a5091baa8ec247a7e4b0921977a02492492509279005024aa42c9092d9455c24c26bd20933a493824dac4de0939c0e5824f34e8b093fe9744250c097d09461e6902524f65a094c5fed0253e15c90952ae2b8255768780959094f82570ef15095f71854258aaa530965e6f9c25a49ae7096c69db025bec18c0972fa57c25d91efd0979989f825f3b3fb098044e30260e814a0986ff538262987b2098dc82402644c80009949f87426604302099b85b24267bf98e09a27ada82697ec7a09a97f36826b41ca409b092fdc26d08aed09b7b669026ed383909bee9b28270a257409c62d1542727538c09cd80cdc2744c37509d4e51942762762709dc5a37027806ca209e3e066c279ea7e709eb77ea427bd290109f32104827dbf0fd09fadbf9827fb00f00a02a90f8281a59f30a0a888d42839fd280a127abc02859ebb40a1a7fe64287a26c50a2298578289aaf8d0a2ac45e028bb87480a330449028dcaf360a3b5869828fe28a00a43c1130291ff4d60a4c3e9a02942152f0a54d155c29648b0c0a5d799ec298757d20a6637d0029aa7cf30a6f0c46c29cdfbe60a77f761c29f1d62d0a80f982c2a160d520a8a130d42a3aa2e80a934467c2a5f988d0a9c8dfa42a84efe80aa5f03042aaaaaab0aaf6b7742ad0ca910ab9003fc2af751620ac2aefd02b1e40f00acc7824c2b459b190ad65c3002b6d61c70ae05b9b02b9596f00aea76e4c2bbe3c980af4ae9002be754ce0aff032202c10e1b20b09752482c3ae56f0b14052442c6562400b1eb3b1c2c905a6f0b29816142cbbd0560b346ecbc2ce7c65e0b3f7c8d02d143f020b4aab4642d413ccd

/-- G[i] = round(2^30 / (1 + e^(16 − i/64))), i = 0 to 2048. -/
def tabG : Nat :=
  0x3fffff870fffffe143fffff830fffffe043fffff7f0fffffdf43fffff7b0fffffde43fffff770fffffdd43fffff730fffffdc43fffff6e0fffffdb03fffff6a0fffffd9c3fffff650fffffd883fffff600fffffd743fffff5b0fffffd603fffff560fffffd4c3fffff500fffffd343fffff4b0fffffd203fffff450fffffd083fffff3f0fffffcf03fffff390fffffcd83fffff320fffffcbc3fffff2c0fffffca43fffff250fffffc883fffff1e0fffffc6c3fffff170fffffc4c3fffff100fffffc303fffff080fffffc103fffff000fffffbf03ffffef80fffffbd03ffffef00fffffbac3ffffee70fffffb8c3ffffede0fffffb683ffffed50fffffb403ffffecb0fffffb1c3ffffec20fffffaf43ffffeb80fffffac83ffffead0fffffaa03ffffea20fffffa743ffffe970fffffa483ffffe8c0fffffa183ffffe800fffff9e83ffffe740fffff9b83ffffe670fffff9843ffffe5a0fffff9503ffffe4d0fffff9183ffffe3f0fffff8e03ffffe310fffff8a83ffffe220fffff86c3ffffe130fffff82c3ffffe030fffff7ec3ffffdf30fffff7ac3ffffde20fffff7683ffffdd10fffff7203ffffdc00fffff6d83ffffdad0fffff6903ffffd9a0fffff6443ffffd870fffff5f43ffffd730fffff5a03ffffd5e0fffff54c3ffffd490fffff4f83ffffd330fffff49c3ffffd1c0fffff4403ffffd040fffff3e03ffffcec0fffff3803ffffcd30fffff3183ffffcb90fffff2b03ffffc9f0fffff2443ffffc830fffff1d43ffffc670fffff1603ffffc4a0fffff0ec3ffffc2b0fffff0703ffffc0c0ffffeff03ffffbec0ffffef703ffffbcb0ffffeee83ffffba90ffffee5c3ffffb860ffffedd03ffffb610ffffed3c3ffffb3c0ffffeca03ffffb150ffffec043ffffaed0ffffeb603ffffac40ffffeabc3ffffa990ffffea0c3ffffa6d0ffffe95c3ffffa400ffffe8a43ffffa110ffffe7e43ffff9e10ffffe7203ffff9af0ffffe6583ffff97c0ffffe5883ffff9470ffffe4b03ffff9100ffffe3d03ffff8d80ffffe2ec3ffff89e0ffffe2003ffff8620ffffe10c3ffff8240ffffe0103ffff7e40ffffdf0c3ffff7a20ffffde003ffff75e0ffffdcec3ffff7180ffffdbd03ffff6d00ffffdaac3ffff6850ffffd97c3ffff6380ffffd8443ffff5e80ffffd7003ffff5960ffffd5b03ffff5420ffffd45c3ffff4eb0ffffd2f83ffff4900ffffd1883ffff4340ffffd0103ffff3d40ffffce8c3ffff3710ffffccf83ffff30b0ffffcb583ffff2a10ffffc9ac3ffff2350ffffc7f43ffff1c50ffffc62c3ffff1510ffffc4583ffff0da0ffffc2743ffff05f0ffffc0803fffefe00ffffbe7c3fffef5c0ffffbc643fffeed50ffffba403fffee4a0ffffb8083fffedba0ffffb5c03fffed250ffffb3643fffec8c0ffffb0f83fffebee0ffffae743fffeb4b0ffffabdc3fffeaa30ffffa9343fffe9f50ffffa6703fffe9420ffffa3983fffe8890ffffa0ac3fffe7ca0ffff9da43fffe7060ffff9a843fffe63b0ffff974c3fffe5690ffff93f83fffe4910ffff908c3fffe3b20ffff8d003fffe2cc0ffff895c3fffe1df0ffff85983fffe0ea0ffff81b43fffdfee0ffff7db03fffdee90ffff79903fffdddc0ffff75483fffdcc70ffff70e43fffdba80ffff6c583fffda810ffff67a83fffd9500ffff62d03fffd8160ffff5dd43fffd6d20ffff58b03fffd5830ffff53603fffd42a0ffff4de43fffd2c60ffff483c3fffd1560ffff42683fffcfdb0ffff3c643fffce540ffff362c3fffccc00ffff2fc43fffcb1f0ffff29283fffc9720ffff22583fffc7b60ffff1b4c3fffc5ed0ffff140c3fffc4150ffff0c8c3fffc22e0ffff04d43fffc0380fffefcdc3fffbe310fffef4a03fffbc1b0fffeec243fffb9f30fffee3643fffb7ba0fffeda583fffb56e0fffed1083fffb3100fffec7683fffb09f0fffebd7c3fffae1a0fffeb3403fffab810fffea8b03fffa8d20fffe9dcc3fffa60e0fffe928c3fffa3330fffe86f43fffa0410fffe7afc3fff9d370fffe6ea03fff9a140fffe61e43fff96d80fffe54c03fff93810fffe47303fff900f0fffe39303fff8c820fffe2ac03fff88d70fffe1bdc3fff850f0fffe0c7c3fff81280fffdfca43fff7d210fffdec483fff78fa0fffddb643fff74b10fffdc9fc3fff70440fffdb8043fff6bb50fffda57c3fff66ff0fffd925c3fff62240fffd7ea03fff5d210fffd6a443fff57f60fffd55443fff52a00fffd3f983fff4d200fffd293c3fff47720fffd12283fff41960fffcfa5c3fff3b8b0fffce1cc3fff354f0fffcc8783fff2ee00fffcae543fff283c0fffc935c3fff21630fffc77883fff1a520fffc5ad03fff13080fffc3d343fff0b820fffc1ea43fff03c00fffbff1c3ffefbbe0fffbde943ffef37b0fffbbd043ffeeaf50fffb9a603ffee22a0fffb76a83ffed9170fffb51c83ffecfbb0fffb2bc03ffec6120fffb04843ffebc1c0fffadc083ffeb1d40fffab2443ffea7380fffa872c3ffe9c470fffa5ab43ffe90fc0fffa2cd43ffe85560fff9fd803ffe79510fff9cca83ffe6ceb0fff99a483ffe60200fff9664c3ffe52ec0fff930ac3ffe454e0fff8f9543ffe37410fff8c0403ffe28c20fff885583ffe19cd0fff848943ffe0a5e0fff809e03ffdfa720fff7c9303ffdea050fff786703ffdd9120fff741943ffdc7960fff6fa883ffdb58b0fff6b13c3ffda2ee0fff6659c3ffd8fba0fff617983ffd7bea0fff5c7143ffd67780fff574083ffd52610fff51e583ffd3c9e0fff4c5ec3ffd262b0fff46ab43ffd0f010fff40c983ffcf71b0fff3ab803ffcde730fff347543ffcc5030fff2dff83ffcaac40fff275543ffc8fb00fff207503ffc73c00fff195cc3ffc56ed0fff120b03ffc392f0fff0a7dc3ffc1a810fff02b303ffbfad90ffefaa943ffbda2f0ffef25e03ffbb87d0ffee9cf83ffb95b90ffee0fb83ffb71db0ffed7dfc3ffb4cd90ffece7a03ffb26aa0ffec4c803ffaff460ffebac743ffad6a20ffeb07543ffaacb30ffea5cf43ffa81710ffe9ad303ffa54ce0ffe8f7d83ffa26c20ffe83cc03ff9f73f0ffe77bb83ff9c63b0ffe6b4903ff993a80ffe5e7183ff95f7b0ffe5131c3ff929a70ffe438643ff8f21d0ffe356c03ff8b8d00ffe26df03ff87db20ffe17dc03ff840b40ffe085f43ff801c70ffdf86483ff7c0dc0ffde7e843ff77de10ffdd6e603ff738c60ffdc559c3ff6f17a0ffdb33f43ff6a7ec0ffda09183ff65c090ffd8d4c43ff60dbe0ffd796ac3ff5bcf70ffd64e7c3ff569a00ffd4fbe43ff513a60ffd39e903ff4baf10ffd2362c3ff45f6d0ffd0c2583ff401020ffcf42bc3ff39f990ffcdb6f83ff33b1a0ffcc1ea83ff2d36b0ffca79683ff268730ffc8c6d03ff1fa180ffc706703ff1883d0ffc537dc3ff112c60ffc35aa03ff099970ffc16e443ff01c910ffbf724c3fef9b950ffbd66403fef16820ffbb499c3fee8d390ffb91bd43fedff960ffb6dc643fed6d780ffb48ab83fecd6b80ffb226403fec3b320ffafae643feb9ac00ffad22843feaf5390ffaa82043fea4a740ffa7cc343fe99a470ffa500703fe8e4870ffa21e083fe829060ff9f243c3fe767960ff9c12543fe6a0060ff98e7903fe5d2260ff95a3203fe4fdc30ff92443c3fe422a70ff8eca0c3fe3409d0ff8b33b43fe2576d0ff8780503fe166dc0ff83aef83fe06eb00ff7fbeb43fdf6eac0ff7bae903fde668f0ff777d8c3fdd56190ff732a9c3fdc3d060ff6eb4b03fdb1b110ff6a1ab03fd9eff30ff655b783fd8bb620ff6075d83fd77d110ff5b68a43fd634b30ff5632943fd4e1f60ff50d2683fd384870ff4b46c83fd21c100ff458e583fd0a8380ff3fa7b03fcf28a40ff39915c3fcd9cf70ff3349e03fcc04ce0ff2ccfb03fca5fc50ff2621343fc8ad760ff1f3ccc3fc6ed760ff1820c43fc51f570ff10cb603fc342a80ff093ad83fc156f40ff016d4c3fbf5bc40fef960d83fbd509b0fef113883fbb34fa0fee8834c3fb9085d0fedfae183fb6ca3d0fed691c03fb47a0e0fecd2c0c3fb2173f0fec37ab83fafa13d0feb97b643fad176e0feaf2ba43faa79350fea488f83fa7c5ef0fe9990cc3fa4fcf50fe8e407c3fa21d9b0fe8295483f9f272e0fe768c603f9c18f80fe6a22dc3f98f23d0fe5d55c43f95b23a0fe5021fc3f9258260fe4284583f8ee3340fe3479983f8b52900fe25fe5c3f87a55f0fe170f2c3f83dabf0fe07a8783f7ff1c90fdf7c6903f7be98f0fde765ac3f77c1190fdd681e43f73776b0fdc517383f6f0b810fdb321843f6a7c4d0fda09c883f65c8bd0fd8d83e43f60efb30fd79d3143f5bf00a0fd6585743f56c8970fd5096403f5178220fd3b008c3f4bfd6c0fd24bf4c3f46572e0fd0dcd4c3f4084160fcf625303f3a82c90fcddc17c3f3451e10fcc49c803f2defee0fcaab06c3f275b770fc8ff7443f2092f80fc746ae03f1994df0fc5804e83f125f940fc3abedc3f0af16f0fc1c920c3f0348bd0fbfd77943efb63c20fbdd68683ef340b20fbbc5d3c3eeaddb60fb9a4ea43ee238eb0fb7734f03ed9505e0fb5308403ed022120fb2dc0843ec6abfa0fb0755683ebcebfb0fadfbe683eb2dfee0fab6f2c43ea8859a0fa8ce9803e9ddab90fa6199683e92dcf60fa34f9043e8789ed0fa06fea83e7bdf280f9d7a0583e6fda230f9a6d3e83e6378490f9748ee43e56b6f40f940c68c3e49936e0f90b6ff03e3c0af10f8d47fc83e2e1aa20f89bea903e1fbf980f861a4783e10f6d60f825a1743e01bd4f0f7e7d51c3df20fe10f7a832d03de1eb590f766ad9c3dd14c730f72338443dc02fd50f6ddc5403dae92130f69646b83d9c6fb00f64cae943d89c5190f600ee5c3d768ea90f5b2f7583d62c8a60f562ba803d4e6f460f51028783d397ea80f4bb319c3d23f2d90f463c5f43d0dc7d20f409d5483cf6f9780f3ad4f003cdf83a00f34e22403cc762070f2ec3de43cae905a0f28790743c950a330f22008343c7acb190f1b5931c3c5fce820f1481ed83c440fcf0f0d798d43c278a530f063ee383c0a394e0efed0be43bec17f20ef72de743bcd215e0eef552583bad50a50ee7453ac3b8ca0c80edefce683b6b0cbf0ed67ae483b488f710ecdbded83b2523bb0ec4c4b703b00c4710ebb8df483adb6c590eb2185743ab516340ea8628dc3a8dbcbc0e9e6b4643a655aa30e94312c43a3bea980e89b2eb83a1167480e7eef2e839e5cb5c0e73e4a0439b911800e6891ebc398b34640e5cf5bd0395c2eb80e510ec18392bfb370e44dba8c38fa94a20e385b24038c7f5c70e2b8be883894197f0e1e6caec385efab50e10fc338382894660e033938837f0e1a50df52285437b7dd9b0de6b6e7c377d838e0dd7f53543741cee20dc8dc4a03704bb1b0db96b0c836c643e40da9a06b43686650c0d997b60036451a900d88faf003602609b0d781e2b835be338a0d66e430c35788ff10d554c2bc3531729c0d435557034e8d8960d30fefd4349ebf290d1e48798345323e50d0b31390340604a50cf7b8bb833b75f8c0ce3de940336733110ccfa26ac33157dff0cbb03fd032c23f770ca6031e8326d76f70c909fbb03217245e0c7ad9d5c31bf47eb0c64b18c03165e2450c4e27144310af47e0c373ac0430ae80130c1fecfd8305086f30c083e5642ff10b7f0bf02f70c2f90108d0bd7c11282f2d996e0bbef41e02ec9a9ec0ba5c99582e64464d0b8c429ac2dfd73560b72606e82d95364d0b58247282d2b94f70b3d902842cc0959e0b22a53242c543f0a0b07655382be6988b0aebd26fc2b77a9ef0acfee8ac2b077b890ab3bbc9c2a96162b0a973c7102a2383280a7a72e5429afcc500a5d61aa0293afbf10a400b61c28c51ccf0a2272cd0284e3a280a049ac9027d65faa09e686500275d997409c83876c26e3f41009a9b46d426697c70098afd7b825ee3fe4096c1702425724c1d094d0478424f5af1f092dc969024787741090e6973823fab32508eee8494237c71b008cf49ab422fdc20508af91690227eb37a088fc35ec21ff5599086fe3738217fb810084ff597020ffeaad082ffdc04207ffd55080fffeac2000000007f0001541f8002ab07d0023fc1f00155307b00a6901e8047f007901c8c81e00aa6707703ca141d814c8607506e9701d023dfb0730b654c1c838e50071117b6c1c054cdb06f1968c81b8788bf06d2369701b0a50e106b2fb87c1a8db3e30693e8fdc1a11c01c0675028481996839006564b92c191c0bf00637c789418a2668c061979b001829a05605fb6537017b1c5d805dd8d330173ae33105bff49e416c5040f05a29e560165033b005858d1ac15dc7cd80568c38f01569e9d5054c4436414f884770530117541488561105142d9041419677504f89aac813abc0f604dd5acdc133f6a6204c26fd7c12d46b0904a7db8d8126ac9b3048d9f91812028caa0473bd654119bb9b3045a366a81136561404410be2010d2669204283eed8106fef73040fd08f4100ef48103f7c1a9c0faf790d03e0130280f517fed03c8c53fc0ef50b8203b1d8ebc0e9a1dbb039b4e7400e40b8150385262a40de8dba2036f604500d9289090359fce180d3dc0890344fc0300cea820103305d9540c98ccef031c216c00c48a0740308474480bf9fb5b02f4cec700bacdc1b02e1b78680b6140d702cf0102c0b17276a02bcaaa900ace8d6402aab3d440a87700f02991bcf40a41cc760287e1d4809fd9f6502770510009bae570026684a0009799af402565f94c0939bc1c024694f3808fb44e5023723b6008be311e02280acac08827c7202194918408482265020add7ac080f1e5b01fcc6c7807d76b9a01ef03cc807a1054b01e193514076be68101d47417807380a3901c7a4dc007056b5e01bb2457406d404c901aef13e806a3d14801a30a4300674cb9c01976e1440646ee80018c1b5fc061a34a4018110d1805ee98b801764d14805c41568016bced3c059aa55d016194b9c0572434401579d724054ae9cc014de7a8c052493a70144720b804ff3b8f013b3b49004dadc4501324212804b7708f0129851b80494f34101210319804735f380118bac540452af5b0110aada80432dea20108d218c0413e80e01012f41c03f5c6b200f9c11c803d875ad00f28672c03bbf03100eb7e12803a0317e00e4a6ce4038534e700ddff7cc036af5cd00d786f8c03516fa600d13c21c03389df900cb1ddc003207c6000c52b1000309068800bf62ab802f2382e00b9c3a0c02dc0d2700b44ce6402c6815800aefd78802b190ba00a9d4580029d375a00a4d08a802897157009ff11a402763ae7009b3516c0263905000969b94802516ded009223ac0023fd02b008dcc7bc022eb38d008995264021e14a700857cd30020df01f008182ae401fe42b1007da5e8c01ef092a0079e5b8801e0406800764157001d1e55e0072b803801c3f50f006f4901001b66c92006bf397401a9490c0068b711c019c87b7006592c18019025dd006285fa8018420d8005f9015801787613005cb06fc016d230a0059e66980162254700573168001577a66005490d3c014d201200520419801431405004f8aa9801395406004d23f7c012fddee004acf7c00126afa200488cb10011dc71500465b15c0115224a00443a2c4010cbf4e00422979801049c3e00402886c00fcb743003e36df400f50e91003c5412400eda06c003a7fb1800e66b210038b952000df6d080037008bc00d8a489003554f9400d210120033b638000cbae1f003223e8400c57d3700309dad000bf7bea002f232b400b9a8d2002db40b400b40294002c4ff7400ae87de002af69c000a937690029a7a8c00a40ff6002862cec009f104d002727c1c009a37430025f6378009583b30024cde7c0090f47f0023ae8c8008c8895002297e1c00883ee7002189a540084167100208397000800e37001f85788007c2541001e8f0d400785aa1001da01a40074ad70001cb866800711ccc001bd7ba8006da7da001afde04006a4dc6001a2aa3c00670dc300195dd240063e7080018973a00060d8d20017d6ab8005de26500171bf84005b030b001666f3400583a110015b7708005586cb00150d45c0052e89200146849c00505ec30013c8548004de8c100132d3f4004b85f2001296e40004935c30012051e80046f7a3001177cb40044cb060010eec780042af65001069f280040a43c000fe92b4003ea90c000f6c528003cbd58000ef34a0003ae0a9000e7df3c0039128a000e0c3340037528a000d9decc0035a03b000d330500033fb32000ccb62000326309000c66ea40030d75c000c05850002f57c8000ba71a8002de3f0000b4b938002c7b79000af2d98002b1e0a000a9cd6c0029cb4d000a4975c002882ef0009f8a280027449e0009aa4880026100d00095e5500024e4ef000914b500023c2fa0008cd5640022a9e7000888274002199710008451700020915400080414c001f91500007c5108001e9924000787fb0001da89300074cc4c001cbf630007135f4001bdd590006dbbc4001b023d0006a5ce0001a2dda00067187000195ffa00063edac0018986a00060dbc40017d6fa0005de1f800171b790005aff90001665b90005833cc0015b58c000557dfc00150ac700052dd7c0014654000050519c0013c4ce0004dd9c0001329480004b75480012928800049239c0012006a00046e42c001172c700044b6640010e97e0004299c00010646b000408db4000fe36f0003e91bc000f66690003ca560000eed3a0003ac824000e77c300038f990000e05e8000373930000d978d000358698000d2c9500033e158000cc4e6000324908000c606700030bd44000bfefe0002f3da8000ba0930002dc9d4000b450f0002c6170000aec5a0002b041c000a966000029b184000a43090002869540009f242000272b3c0009a3f700025f6e80009581400024cc0c00090e8600023aa640008c73a0002291a00008821f00021817c00083f240002079b80007fe390001f7a0c0007bf4c0001e82400007824e0001d9210000747300001ca94000070de30001bc79c0006d6590001aece40006a0850001a18e800066c58000194b70000639c5000188448000608c100017c3400005d93e0001708280005ab320001652d000057e8f00015a30c0005534d00014f8ac0005295e00014538c000500ba00013b3800004d9560001318600004b32700012820400048e2500011f04800046a470001163080004478300010da20000425d100010556c000405270000fd4d00003e57f0000f58240003c6d10000edf500003a9130000e6a3400038c400000df8b0000370500000d8aac0003553c0000d200800033afd0000cb8ac0003218d0000c5480000308e50000bf3680002f0ff0000b954c0002d9d50000b3a140002c3620000ae1a80002ad9f0000a8bf8000298880000a38ec0002841600009e86800027046000099a6400025d12000094ec400024a750000905780002386a00008be6c000226ee000087990000215fb0000836d00002058e00007f6200001f5a200007b76c0001e633000077aa80001d73e000073fc00001c8bf0000706ac0001bab200006cf540001ad140000699b400019fe00000665b800019315000063358000186af00006028000017aaa00005d32c00016f0400005a54c000163b90000578d4000158c8000054dbc00014e2c0000523f8000143e400004fb7c000139ee00004d4400001304500004ae38000126e900004895800011dd60000465a00001150b0000442fc00010c8500004216c000104420000400e40000fc4000003e15c0000f47e00003c2cc0000ecf800003a5300000e5ae0000388780000de9d000036ca40000d7c40000351ac0000d1200000337880000cab1000031e340000c4750000305a40000be6a00002edd80000b88e00002d6c40000b2e000002c0680000ad6000002aabc0000a80a0000295bc0000a2df00002816000009ddc000026da400009901000025a840000944b0000247fc00008fbc00002360400008b4f00002249c000087060000213b8000082df00002035c00007ed800001f38400007af100001e4240000772900001d5400000737e00001c6d000006ff100001b8d000006c7f00001ab4000006928000019e1c000065ec000019160000062c900001850400005fbf00001790c00005ccd000016d74000059f20000162340000572e0000157500000547f000014cc0000051e600001428400004f6100001389800004cf0000012ef800004a920000125a800004846000011c9c0000460d0000113dc000043e5000010b60000041cf00001032400003fc800000fb2c00003dd200000f37400003beb00000ebf400003a1300000e4b40000384a00000dda80000368e00000d6d8000034e100000d03c0000334000000c9d4000031ac00000c39c0000302500000bd9800002eaa00000b7c400002d3a00000b21c00002bd600000aca000002a7d00000a7500000292e00000a22c000027ea000009d30000026b00000098580000257f0000093a800002458000008f1c00002339000008ab8000022240000086700000211700000825000002012000007e4c00001f16000007a6800001e210000076a400001d3400000730000001c4e000006f7400001b6f000006c0800001a970000068b4000019c500000657c000018fa00000625c00001836000005f5400001777000005c68000016be0000059900000160b0000056cc0000155d000005424000014b500000518c00001412000004f0800001374000004c9c000012db000004a40000012460000047f8000011b60000045c00000112b00000439c000010a400000418400001020000003f8000000fa1000003d8c00000f26000003ba800000eaf0000039d400000e3b00000380c00000dcb00000365400000d5f0000034a800000cf500000330800000c8f00000317400000c2c000002ff000000bcc000002e7800000b70000002d0800000b15000002ba400000abe000002a5000000a6a00000290000000a180000027bc000009c80000026840000097b00000255400000930000002430000008e8000002314000008a20000022000000085e0000020f40000081c000001ff0000007dc000001ef40000079e000001e0000000762000001d1400000728000001c30000006f0000001b50000006b9000001a78000006840000019a8000006510000018e00000061f00000181c000005ef00000175c000005c00000016a4000005930000015f4000005670000015440000053c0000014a0000005130000013fc000004eb000001360000004c40000012c40000049f0000012300000047a0000011a4000004570000011180000043500000109000000414000001010000003f4000000f90000003d5000000f14000003b6000000ea000000399000000e2c0000037d000000dbc00000361000000d5000000347000000ce80000032d000000c8000000314000000c20000002fc000000bc0000002e4000000b64000002cd000000b08000002b7000000ab4000002a2000000a600000028d000000a0c000002790000009bc0000026600000097000000253000000928000002400000008e00000022f0000008980000021e0000008540000020d000000814000001fd0000007d4000001ed000000794000001de000000758000001cf000000720000001c10000006e8000001b30000006b0000001a600000067c000001990000006480000018c000000618000001800000005e8000001740000005b80000016900000058c0000015e000000560000001530000005380000014800000050c0000013e0000004e4000001350000004c00000012b00000049800000122000000474000001190000004540000011000000043000000108000000410000001000000003f0000000f80000003d0000000f00000003b4000000e9000000394000000e2000000378000000db00000035c000000d4000000344000000ce000000328000000c7000000310000000c10000002f8000000bb0000002e0000000b50000002cc000000b00000002b4000000aa0000002a0000000a500000028c000000a00000002780000009b000000264000000960000002500000009200000023c0000008d00000022c0000008900000021c0000008500000020c000000810000001fc0000007d0000001ec00000079

/-- H[i] = round(2^30 × tanh(−16 + i/64)), i = 0 to 2048. -/
def tabH : Nat :=
  0x40000000100000000400000001000000004000000010000000040000000100000000400000001000000004000000010000000040000000100000000400000001000000004000000010000000040000000100000000400000001000000004000000010000000040000000100000000400000001000000004000000010000000040000000100000000400000001000000004000000010000000040000000100000000400000001000000004000000010000000040000000100000000400000001000000004000000010000000040000000100000000400000001000000004000000010000000040000000100000000400000001000000004000000010000000040000000100000000400000001000000004000000010000000040000000100000000400000001000000004000000010000000040000000100000000400000001000000004000000010000000040000000100000000400000001000000004000000010000000040000000100000000400000001000000004000000010000000040000000100000000400000001000000004000000010000000040000000100000000400000001000000004000000010000000040000000100000000400000001000000004000000010000000040000000100000000400000001000000004000000010000000040000000100000000400000001000000004000000010000000040000000100000000400000001000000004000000010000000040000000100000000400000001000000004000000010000000040000000100000000400000001000000004000000010000000040000000100000000400000001000000004000000010000000040000000100000000400000001000000004000000010000000040000000100000000400000001000000004000000010000000040000000100000000400000001000000004000000010000000040000000100000000400000001000000004000000010000000040000000100000000400000001000000004000000010000000040000000100000000400000001000000004000000010000000040000000100000000400000001000000004000000010000000040000000100000000400000001000000004000000010000000040000000100000000400000001000000004000000010000000040000000100000000400000001000000004000000010000000040000000100000000400000001000000004000000010000000040000000100000000400000001000000004000000010000000040000000100000000400000001000000004000000010000000040000000100000000400000001000000004000000010000000040000000100000000400000001000000004000000010000000040000000100000000400000001000000004000000010000000040000000100000000400000001000000004000000010000000040000000100000000400000001000000004000000010000000040000000100000000400000001000000004000000010000000040000000100000000400000001000000004000000010000000040000000100000000400000001000000004000000010000000040000000100000000400000001000000004000000010000000040000000100000000400000001000000004000000010000000040000000100000000400000001000000004000000010000000040000000100000000400000001000000004000000010000000040000000100000000400000001000000004000000010000000040000000100000000400000001000000004000000010000000040000000100000000400000001000000004000000010000000040000000100000000400000000fffffffc3fffffff0fffffffc3fffffff0fffffffc3fffffff0fffffffc3fffffff0fffffffc3fffffff0fffffffc3fffffff0fffffffc3fffffff0fffffffc3fffffff0fffffffc3fffffff0fffffffc3fffffff0fffffffc3fffffff0fffffffc3fffffff0fffffffc3fffffff0fffffffc3fffffff0fffffffc3fffffff0fffffffc3fffffff0fffffffc3fffffff0fffffffc3ffffffe0fffffff83ffffffe0fffffff83ffffffe0fffffff83ffffffe0fffffff83ffffffe0fffffff83ffffffe0fffffff83ffffffe0fffffff83ffffffe0fffffff83ffffffd0fffffff43ffffffd0fffffff43ffffffd0fffffff43ffffffd0fffffff43ffffffd0fffffff43ffffffd0fffffff03ffffffc0fffffff03ffffffc0fffffff03ffffffc0fffffff03ffffffc0ffffffec3ffffffb0ffffffec3ffffffb0ffffffec3ffffffb0ffffffe83ffffffa0ffffffe83ffffffa0ffffffe83ffffffa0ffffffe43ffffff90ffffffe43ffffff90ffffffe03ffffff80ffffffe03ffffff80ffffffdc3ffffff70ffffffdc3ffffff70ffffffd83ffffff60ffffffd83ffffff50ffffffd43ffffff50ffffffd03ffffff40ffffffd03ffffff30ffffffcc3ffffff20ffffffc83ffffff10ffffffc43ffffff10ffffffc03ffffff00ffffffbc3fffffee0ffffffb83fffffed0ffffffb43fffffec0ffffffb03fffffeb0ffffffa83fffffea0ffffffa43fffffe80ffffff9c3fffffe70ffffff983fffffe50ffffff903fffffe30ffffff883fffffe10ffffff803fffffdf0ffffff783fffffdd0ffffff703fffffdb0ffffff683fffffd90ffffff5c3fffffd60ffffff543fffffd30ffffff483fffffd00ffffff3c3fffffcd0ffffff303fffffca0ffffff203fffffc70ffffff143fffffc30ffffff043fffffbf0fffffef43fffffbb0fffffee43fffffb60fffffed03fffffb20fffffebc3fffffac0fffffea83fffffa70fffffe903fffffa10fffffe783fffff9b0fffffe603fffff950fffffe443fffff8e0fffffe283fffff860fffffe0c3fffff7f0fffffdec3fffff760fffffdc83fffff6d0fffffda43fffff640fffffd7c3fffff5a0fffffd543fffff4f0fffffd283fffff440fffffcf83fffff380fffffcc43fffff2b0fffffc903fffff1d0fffffc583fffff0e0fffffc1c3ffffeff0fffffbdc3ffffeee0fffffb943ffffedc0fffffb4c3ffffeca0fffffb003ffffeb60fffffaac3ffffea00fffffa543ffffe8a0fffff9f83ffffe720fffff9943ffffe580fffff9283ffffe3d0fffff8b83ffffe1f0fffff8403ffffe000fffff7c03ffffddf0fffff7383ffffdbc0fffff6a83ffffd970fffff60c3ffffd6f0fffff5683ffffd450fffff4bc3ffffd180fffff4003ffffce80fffff3383ffffcb40fffff2683ffffc7e0fffff1883ffffc440fffff0983ffffc070ffffef983ffffbc50ffffee8c3ffffb7f0ffffed683ffffb350ffffec383ffffae60ffffeaf03ffffa910ffffe9943ffffa380ffffe8243ffff9d80ffffe6983ffff9720ffffe4f43ffff9060ffffe3383ffff8930ffffe15c3ffff8190ffffdf603ffff7960ffffdd483ffff70b0ffffdb083ffff6770ffffd8a83ffff5da0ffffd61c3ffff5320ffffd3683ffff4800ffffd0883ffff3c20ffffcd7c3ffff2f80ffffca383ffff2210ffffc6c03ffff13c0ffffc3103ffff0480ffffbf203fffef440ffffbaf03fffee300ffffb67c3fffed0a0ffffb1c03fffebd10ffffacb43fffea840ffffa7543fffe9210ffffa19c3fffe7a70ffff9b843fffe6150ffff950c3fffe4690ffff8e243fffe2a20ffff86cc3fffe0bd0ffff7efc3fffdeb90ffff76ac3fffdc940ffff6dd03fffda4b0ffff64603fffd7dc0ffff5a583fffd5450ffff4fa83fffd2840ffff44483fffcf950ffff382c3fffcc750ffff2b4c3fffc9230ffff1d943fffc5990ffff0ef83fffc1d40fffeff6c3fffbdd20fffeeee03fffb98d0fffedd443fffb5020fffeca843fffb02c0fffeb68c3fffab060fffea14c3fffa58b0fffe8ab03fff9fb60fffe729c3fff99800fffe58fc3fff92e30fffe3db43fff8bda0fffe20a83fff845c0fffe01c03fff7c630fffde0d43fff73e60fffdbdcc3fff6add0fffd98843fff613f0fffd70d03fff57010fffd46903fff4c1b0fffd19943fff40810fffce9b43fff34280fffcb6bc3fff27020fffc807c3fff19040fffc46bc3fff0a1e0fffc09403ffefa420fffbc7cc3ffee9610fffb82243ffed7690fffb37fc3ffec4480fffae90c3ffeafec0fffa95043ffe9a3f0fffa3b903ffe832d0fff9dc583ffe6a9d0fff976fc3ffe50790fff90b183ffe34a40fff898403ffe17040fff81dfc3ffdf77c0fff79bd83ffdd5ea0fff711503ffdb22e0fff67dd83ffd8c250fff5e0dc3ffd63a80fff539c43ffd388e0fff487e43ffd0aac0fff3ca8c3ffcd9d60fff300fc3ffca5d90fff22a703ffc6e820fff1460c3ffc33990fff052f03ffbf4e40ffef50283ffbb2240ffee3cac3ffb6b160ffed17703ffb1f740ffebdf4c3ffacef10ffea93083ffa793d0ffe931583ffa1e030ffe7b8dc3ff9bce70ffe628183ff955880ffe47d803ff8e77f0ffe2b7643ff8725f0ffe0d4043ff7f5b10ffded17c3ff770fa0ffdcadc83ff6e3b50ffda66c83ff64d550ffd7fa303ff5ad440ffd5659c3ff502e10ffd2a6743ff44d830ffcfb9f83ff38c750ffcc9d443ff2bef70ffc94d343ff1e43a0ffc5c6803ff0fb650ffc205a43ff0038f0ffbe06dc3feefbc10ffb9c6303fede2f50ffb53f603fecb8120ffb06dec3feb79ee0ffab4d043fea274c0ffa5d78c3fe8beda0ffa008143fe73f330ff99d8d03fe5a6d70ff93439c3fe3f42f0ff8c41e43fe2258c0ff84ccb83fe039220ff7cdca43fde2d050ff7469c83fdbff2d0ff6b6bbc3fd9ad700ff61d9903fd7357f0ff57a9c43fd494e80ff4cd23c3fd1c90e0ff4148303fcecf2c0ff3500343fcba44d0ff27ee183fc8454e0ff1a04e83fc4aed90ff0b36e43fc0dd610fefb755c3fbccd1e0feeab0c83fb87a0c0fed8d88c3fb3dfe60fec5db103faefa220feb1a5943fa9c3eb0fe9c24343fa4381f0fe8541c03f9e51490fe6ce7b83f98099b0fe52fe283f915aec0fe376bb03f8a3ead0fe1a153c3f82ade80fdfade1c3f7aa1360fdd9a7d03f7210ba0fdb651e83f68f41b0fd90b9f83f5f42790fd68bb703f54f2690fd3e2f783f49f9ea0fd10ecd43f3e4e5c0fce0c7c43f31e47a0fcad91cc3f24b04c0fc7719a43f16a5200fc3d2af83f07b57e0fbff8e4c3ef7d31d0fbbe08c83ee6eed60fb785c083ed4f89b0fb2e45e83ec1df660fadf80543ead912d0fa8bc10c3e97fad80fa32b9743e81082d0f9d416483e68a3c10f96f7f703e4eb6ef0f90497bc3e3329bf0f892fca03e15e2dd0f81a45ec3df6c7840f79a05903dd5bb6c0f711c7543db2a0bc0f68110903d8d57f40f5e75fdc3d65bfdc0f5442cd03d3bb5720f496e7b43d0f13da0f3def9403cdfb4450f31bc2443cad6de80f24c9b743c7815e10f170d5103c3f7f300f087b6b03c037a9d0ef907f043bc3d6b20ee8a63943b805fa90ed7490983b38df600ec4e28c83aed1d510eb1645343a9cde8d0e9cbf5403a47e5b20e86e3e8c39edf2f10e6fc1cfc398ec40e0e57482d0392a14670e3d658cc38bf9d030e2207e74384f14a50e051ca7037d82fe40de690af0375aa1490dc65064436d6197e0da447b88364a47770d806238435b6d8b20d5a8b1a4351b79780d32ad5183477d5310d08b3a3c33cb96b70cdc88c04331668c70cae175c03257f66e0c7d4a514318feb8d0c4a0cbf830bdf56a0c144a3342fe1c34a0bdbeecd82efb071c0ba0e77102e0976370b6321f1c2d0cca170b228d47c2c04c1350adf19c502af11fe20a98b94e029d1b12b0a4f5f94428a647cb0a0302524276ebf1809b399888262afbfd09611fbb424daedee090b922ec237e8fd508b2f12282215e8fc08574009820a10de607f885bf41f20211a0796ccb701d9353d70732232641bfae6ac06ca9b2641a5729ee06604acec18a87e1505f34c45816ef53df0583bdc48152c2c560511c1940135f98a1049d7df88118a399e04271d13c0facbf5303aeccba00dc7e8210334be37c0bdc7fc802b9260e409eb5e3e023c3ba0c07f5664b01be38d8405fb8409013f59bd403feab3300bfdc08001ffd55a003ffeaac00000000ffc001557fe002aa6ff4023f83fc0154cdfec0a642ffa047bf7fe41c727ff80a99b5fdc3c45f7f614a1c2fd46d9f1ff4238038fccb41c87f23817dffc5133463f05340adfbd8e2ec7ee75c662fb628207beca0675ffaee3e6c3ead3d3aafa7c423bbe910ac21fa0cb3babe75781ebf99fb5317e5a8d612f93564d9fe4051954f8cddcd9fe26cac29f86933493e0dfdee6f8077a40fdf5ef21af7a8bff6bddea1704f74d0eddbdc81702bf6f46dd17db251212f69ee044fd9d50403f64c6677bd89140e8f5fcfdadfd759b835f5b0a06bfd62e4ed5f56746b23d50ee01ef520e63b3d3fb3ecbf4dd72b87d2f335e9f49cde0e7d1f689c9f45f188f3d104f8e4f4241132bd01e3cb6f3ebb5ccfcf420a96f3b5f340bce701473f382b5aefcda80992f351e8a43cce99739f323773ffcc346949f2f74c5c7cb882acff2cd52aebcae48688f2a574e5fca49274ef27f9dc7fc9b5b889f25bb847bc929e682f239af9bfc8a55eb7f2196f513c827d01cf1fae3593c7b0eb5bf1ddf818fc74062fdf1c29a737c6d5eb99f1a8b7d33c6713bf2f1903e307c6120d0ff1791c177c5b81a4ef16340ac3c5632173f14e9bacfc512e2aff13b1d73bc4c720a0f128b6f6bc47fa057f11759c6fc43c294ef106f80ffc3fc8563f0f784953c3c080d0f0e8f2af3c387ea1ff0db3648fc3529218f0ce43dbfc3204bbbf0c2106c3c2f0ec26f0b69184fc2c44a8ef0abbd333c29a4024f0a18a027c272a80cf097eef73c24d5f44f08ee38afc22a4494f0865fa73c209387cf07e5ba17c1ea1d23f076d0363c1ccd641f06fb6847c1b14911f06908093c1975c3ff062be9bbc17ef7d3f05cd468fc1680528f05743ef7c1526ed3f05207fafc13e209af04d1ba1bc12b0765f0487a3fbc119112af0441f73bc1082ce3f040071b7c0f84a82f03c2d50bc0e95ae0f0388e65fc0db4fb4f03526e37c0ce1b86f031f383fc0c1b1a4f02ef132fc0b60616f02c1d08bc0ab0d97f02974493c0a0bd87f026f460bc0970be5f0249ae1bc08def46f02265833c0855ecaf020521e7c07d5218f01e5eac7c075c153f01c89453c06ea514f01ad01dbc067f665f0193184bc061aeb7f017abe43c05bc7e1f0163dbcfc0563c15f014e5a6fc05105def013a24f3c04c201af01272777c04785f4f01154f3bc04332e2f01048aa7c03f229ff00f4c91fc03b5127f00e5fb1bc037bab2f00d811ebc0345bb3f00caffcfc03130d4f00beb7d3c02e36f2f00b32dc7c02b6b18f00a8563fc028ca81f009e2673c0265290f00949447c02400d3f008b963bc021d2fbf0083235fc01fc6def007b334bc01dda74f0073be1fc01c0bd1f006cbc67c01a5929f00662733c018c0cdf005ff7efc0174126f005a2877c015d8b4f0054b2ffc0148612f004f9217c01347eef004ac0a3c0121d0bf004639d3c011043ff0041f927c00ffc71f003dfa5fc00f049bf003a3983c00e1bc6f0036b2cfc00d4109f003362bfc00c738bf0030460bc00bb27df002d598fc00afd1ff002a9a67c00a52bcf002805d3c009b2abf0025993bc0091c4bf0023523bc0088f06f00212e87c0080a4ff001f2bffc0078da1f001d489fc0071881f001b8283c006aa78f0019d7ebc0064319f00184727c005e1fdf0016ceabc00586c3f00156cfbc005310ff001420b7c004e08cf0012e893c00494eaf0011c357c0044ddcf0010afdbc0040b1cf000fad13c003cc67f000eb9f7c003917ef000dd593c0035a27f000cff07c003262af000c3577c002f554f000b781fc002c772f000ac63fc0029c58f000a1f27c00273dbf0009822bc0024dd2f0008eeb3c0022a16f0008642bc0020884f0007e207c001e8fcf000767c3c001cb5cf0006f4ebc001af87f00068907c0019563f000623abc0017cd3f0005c473c00165c1f00056affc0015014f000516f7c0013bb8f0004c807c0012897f00047ddfc001169ff00043837c00105bef0003f6c3c000f5e2f0003b947c000e6fcf00037f87c000d8fef00034947c000cbd8f0003164fc000bf7ff0002e66fc000b3e5f0002b973c000a8fff00028f33c0009ec1f0002677fc0009523f00024237c0008c1af00021f2fc000839df0001fe43c0007ba4f0001df5bc0007426f0001c24fc0006d1df0001a707c0006680f00018d67c000604af00017553c0005a75f00015eb7c00054faf00014977c0004fd4f0001357fc0004afef000122bfc0004673f00011123c000422ef00010097c0003e2cf0000f10bc0003a67f0000e26fc00036ddf0000d4b7c000338bf0000c7d7c000306bf0000bbbbc0002d7cf0000b05bc0002abbf0000a5abc0002824f00009ba3c00025b5f00009233c000236cf00008957c0002147f00008107c0001f43f00007937c0001d5ef000071dfc0001b97f00006af7c00019ebf0000647fc0001859f00005e67c00016dff000058afc000157cf0000534fc000142ff00004e43c00012f6f00004987c00011d0f00004513c00010bcf000040e3c0000fb8f00003cf3c0000ec4f00003943c0000ddff000035cbc0000d08f00003287c0000c3ef00002f7bc0000b80f00002c9bc0000acef000029e7c0000a26f0000275bc0000989f000024fbc00008f5f000022bbc000086af000020a3c00007e7f00001ea7c000076df00001ccbc00006faf00001b0fc000068ef0000196bc0000628f000017dfc00005c8f0000166fc000056ff00001513c000051af000013cbc00004cbf0000129bc0000481f00001177c000043bf0000106bc00003f9f00000f6bc00003bcf00000e7bc0000382f00000d9bc000034cf00000ccbc0000318f00000c03c00002e8f00000b47c00002bbf00000a9bc0000291f000009f7c0000269f0000095bc0000244f000008cbc0000221f00000843c0000200f000007c3c00001e1f0000074bc00001c3f000006dbc00001a8f0000066fc000018ef0000060bc0000176f000005afc0000160f00000557c000014af00000503c0000136f000004b7c0000124f0000046fc0000112f00000427c0000101f000003e7c00000f2f000003abc00000e3f00000373c00000d5f0000033fc00000c8f0000030bc00000bcf000002dbc00000b1f000002afc00000a6f00000287c000009cf0000025fc0000093f0000023bc000008af00000217c0000081f000001f7c000007af000001dbc0000072f000001bfc000006bf000001a3c0000065f0000018bc000005ff00000173c0000059f0000015bc0000054f00000147c000004ef00000133c000004af0000011fc0000045f0000010fc0000041f000000ffc000003df000000efc0000039f000000e3c0000036f000000d3c0000033f000000c7c0000030f000000bbc000002df000000afc000002af000000a7c0000027f0000009bc0000025f00000093c0000023f0000008bc0000021f00000083c000001ff0000007bc000001df00000073c000001bf0000006bc0000019f00000067c0000018f0000005fc0000016f0000005bc0000015f00000053c0000014f0000004fc0000013f0000004bc0000012f00000047c0000010f00000043c000000ff0000003fc000000ff0000003bc000000ef00000037c000000df00000033c000000cf00000033c000000bf0000002fc000000bf0000002bc000000af0000002bc0000009f00000027c0000009f00000027c0000008f00000023c0000008f00000023c0000007f0000001fc0000007f0000001fc0000006f0000001bc0000006f0000001bc0000006f0000001bc0000005f00000017c0000005f00000017c0000005f00000017c0000004f00000013c0000004f00000013c0000004f00000013c0000004f00000013c0000003f0000000fc0000003f0000000fc0000003f0000000fc0000003f0000000fc0000003f0000000fc0000003f0000000bc0000002f0000000bc0000002f0000000bc0000002f0000000bc0000002f0000000bc0000002f0000000bc0000002f0000000bc0000002f0000000bc0000002f00000007c0000001f00000007c0000001f00000007c0000001f00000007c0000001f00000007c0000001f00000007c0000001f00000007c0000001f00000007c0000001f00000007c0000001f00000007c0000001f00000007c0000001f00000007c0000001f00000007c0000001f00000007c0000001f00000007c0000001f00000007c0000001f00000007c0000001f00000007c0000000f00000003c0000000f00000003c0000000f00000003c0000000f00000003c0000000f00000003c0000000f00000003c0000000f00000003c0000000f00000003c0000000f00000003c0000000f00000003c0000000f00000003c0000000f00000003c0000000f00000003c0000000f00000003c0000000f00000003c0000000f00000003c0000000f00000003c0000000f00000003c0000000f00000003c0000000f00000003c0000000f00000003c0000000f00000003c0000000f00000003c0000000f00000003c0000000f00000003c0000000f00000003c0000000f00000003c0000000f00000003c0000000f00000003c0000000f00000003c0000000f00000003c0000000f00000003c0000000f00000003c0000000f00000003c0000000f00000003c0000000f00000003c0000000f00000003c0000000f00000003c0000000f00000003c0000000f00000003c0000000f00000003c0000000f00000003c0000000f00000003c0000000f00000003c0000000f00000003c0000000f00000003c0000000f00000003c0000000f00000003c0000000f00000003c0000000f00000003c0000000f00000003c0000000f00000003c0000000f00000003c0000000f00000003c0000000f00000003c0000000f00000003c0000000f00000003c0000000f00000003c0000000f00000003c0000000f00000003c0000000f00000003c0000000f00000003c0000000f00000003c0000000f00000003c0000000f00000003c0000000f00000003c0000000f00000003c0000000f00000003c0000000f00000003c0000000f00000003c0000000f00000003c0000000f00000003c0000000f00000003c0000000f00000003c0000000f00000003c0000000f00000003c0000000f00000003c0000000f00000003c0000000f00000003c0000000f00000003c0000000f00000003c0000000f00000003c0000000f00000003c0000000f00000003c0000000f00000003c0000000f00000003c0000000f00000003c0000000f00000003c0000000f00000003c0000000f00000003c0000000f00000003c0000000f00000003c0000000f00000003c0000000f00000003c0000000f00000003c0000000f00000003c0000000f00000003c0000000f00000003c0000000f00000003c0000000f00000003c0000000f00000003c0000000f00000003c0000000f00000003c0000000f00000003c0000000f00000003c0000000f00000003c0000000f00000003c0000000f00000003c0000000f00000003c0000000f00000003c0000000f00000003c0000000f00000003c0000000f00000003c0000000f00000003c0000000f00000003c0000000f00000003c0000000f00000003c0000000f00000003c0000000f00000003c0000000f00000003c0000000f00000003c0000000f00000003c0000000f00000003c0000000f00000003c0000000f00000003c0000000f00000003c0000000f00000003c0000000f00000003c0000000f00000003c0000000f00000003c0000000f00000003c0000000f00000003c0000000f00000003c0000000f00000003c0000000f00000003c0000000f00000003c0000000f00000003c0000000f00000003c0000000f00000003c0000000f00000003c0000000f00000003c0000000f00000003c0000000f00000003c0000000f00000003c0000000f00000003c0000000f00000003c0000000f00000003c0000000f00000003c0000000f00000003c0000000f00000003c0000000f00000003c0000000f00000003c0000000f00000003c0000000f00000003c0000000f00000003c0000000f00000003c0000000f00000003c0000000

/-- Entry i of a table. -/
def tabEntry (t i : Nat) : Int := signed 34 (t / 2 ^ (34 * i))

end Sys2Proof.Machine
end

