-- ==== Sys2Proof/Machine/VectorMath.lean ====
section
/-! DEFINITION. What a started vector entry computes from its sources (R128 to R137): the lanes, the poison bits,
the rows of a tile, or the fault of R81. -/

namespace Sys2Proof.Machine
open Sys2Proof

/-! ## Lane operations (R130) -/

/-- One lane of a checked or exact lane-wise operation: the lane and whether it overflowed. -/
def laneOp (e : VEntry) (a b c : Word32) : Word32 × Bool :=
  let x := a.toInt
  let y := b.toInt
  let cnt := if e.useLanes then b.toNat % 64 else e.imm
  match e.op with
  | .add => checkedLane e.w (x + y)
  | .sub => checkedLane e.w (x - y)
  | .abs => checkedLane false x.natAbs
  | .neg => checkedLane false (-x)
  | .min => checkedLane false (min x y)
  | .max => checkedLane false (max x y)
  | .and => (a &&& b, false)
  | .or => (a ||| b, false)
  | .xor => (a ^^^ b, false)
  | .clz => (BitVec.ofNat 32 (leadingZeros 32 a.toNat), false)
  | .shl => checkedLane e.w (x * 2 ^ cnt)
  | .shr => (BitVec.ofInt 32 (if e.imm2 = 1 then rsh x cnt else x / 2 ^ cnt), false)
  | .shrl => (BitVec.ofNat 32 (a.toNat / 2 ^ cnt), false)
  | .cmp => (if (condition e.imm a b).getD false then BitVec.ofInt 32 (-1) else 0, false)
  | .sel => (if c != 0 then a else b, false)
  | .mul => checkedLane e.w (x * y)
  | .mulh => (BitVec.ofInt 32 (x * y / 2 ^ 32), false)
  | .mulsh => checkedLane false (rsh (x * y) e.imm)
  | _ => (0, false)

/-- A lane-wise instruction: poison bit q is the OR of the sources' bits and of the overflows in quarter q
(R129). -/
def laneWise (k : Core) (e : VEntry) : VResult × Bool :=
  let a := vregOf k e.a
  let b := vregOf k e.b
  let c := vregOf k e.c
  let rs := (List.range 64).map fun i => laneOp e (laneAt a i) (laneAt b i) (laneAt c i)
  let src := (entryReadsV e).foldl (fun p r => p ||| (vregOf k r).psn) 0
  (.vreg e.d (rs.map (·.1)) (src ||| quarterPoison (rs.map (·.2))), rs.any (·.2))

/-- A cross-lane result: every poison bit is the OR of all source bits and of every overflow (R129). -/
def crossLane (k : Core) (e : VEntry) (lanes : List (Word32 × Bool)) : VResult × Bool :=
  let src := (entryReadsV e).any fun r => (vregOf k r).psn != 0
  let ovf := lanes.any (·.2)
  (.vreg e.d (lanes.map (·.1)) (anyPoison (src || ovf)), ovf)

/-! ## The function unit (R137) -/

/-- lerp(tab, i, t, b) (R137). -/
def lerp (tab i t b : Nat) : Int :=
  tabEntry tab i * 2 ^ b + (tabEntry tab (i + 1) - tabEntry tab i) * t

/-- v × 2^s rounded to nearest-even, then bounded (R128, R137). Beyond s = 64 every non-zero value is out of
bounds, and below s = −128 every value of the unit rounds to 0, so the exponent is held within them. -/
def outValue (v s : Int) : Word32 × Bool := checkedLane false (shiftRound v (max (-128) (min 64 s)))

/-- floor(x × 2^s) (R137). -/
def floorShift (x : Int) (s : Int) : Int :=
  if 0 ≤ s then x * 2 ^ s.toNat else x / 2 ^ (-s).toNat

/-- The value of vfn and its poison (R137): an overflow of out, or an input outside the domain. -/
def vfnValue (fn : Nat) (x : Int) (fi fo : Nat) : Word32 × Bool :=
  if fn = 0 then
    let y := floorShift x (24 - (fi : Int))
    let f := lowBits 24 y
    outValue (lerp tabT (f / 2 ^ 16) (f % 2 ^ 16) 16) (y / 2 ^ 24 - 46 + fo)
  else if fn = 4 ∨ fn = 5 then
    let y := max (-(2 ^ 24)) (min (2 ^ 24 - 1) (floorShift x (20 - (fi : Int))))
    let u := (y + 2 ^ 24).toNat
    outValue (lerp (if fn = 4 then tabG else tabH) (u / 2 ^ 14) (u % 2 ^ 14) 14) ((fo : Int) - 44)
  else
    let a := x.natAbs
    let z := bitLen a - 1
    let m := a * 2 ^ (31 - z)
    let i := m / 2 ^ 23 % 2 ^ 8
    let t := m / 2 ^ 7 % 2 ^ 16
    let e : Int := z - (fi : Int)
    if fn = 1 then
      (if x = 0 then (BitVec.ofInt 32 (-intMax), false)
       else if x < 0 then (0, true)
       else outValue (e * 2 ^ 46 + lerp tabL i t 16) ((fo : Int) - 46))
    else if fn = 2 then
      (if x = 0 then (BitVec.ofInt 32 intMax, true)
       else
        let r := outValue (lerp tabRc i t 16) ((fo : Int) - 46 - e)
        (if x < 0 then -r.1 else r.1, r.2))
    else
      (if x ≤ 0 then (BitVec.ofInt 32 intMax, true)
       else outValue (lerp (if e % 2 = 0 then tabS0 else tabS1) i t 16) ((fo : Int) - 46 - e / 2))

/-! ## Rows (R131 to R134) -/

/-- Elements a row of `words` words holds. -/
def rowLen (fmt words : Nat) : Nat := 32 * words / elemBits fmt

/-- The lanes vtrd reads of a row (R131). -/
def vtrdLanes (t : Tile) (row h : Nat) : List (Word32 × Bool) :=
  let fmt := cfgFmt t.cfg
  let w := cfgWords t.cfg
  let els := rowElems fmt ((tileRow t row).take (4 * w))
  let sc := tileScales t row
  let base := if fmt = 2 then 64 * h else 0
  (List.range 64).map fun i =>
    let j := base + i
    if els.length ≤ j then (0, false)
    else if blocksPerRow fmt w ≠ 0 ∧ sc.getD (j / blockSize fmt) 0 = 255 then (0, true)
    else (BitVec.ofInt 32 (els.getD j 0), false)

/-- Draws of the elements of an output row (R136): zeros where the mode does not draw. -/
def draws (mode : Nat) (gk gc gs : Word64) (i n : Nat) : List Nat :=
  (List.range n).map fun j => if mode = 1 then (draw gk (gc + BitVec.ofNat 64 i) gs j).toNat else 0

/-- One source row of a requantization: its elements, their exponents, and whether each comes from a poisoned
source. -/
structure QRow where
  elems : List Int
  exps : List Int
  bad : List Bool
  us : List Nat
  deriving DecidableEq, Repr

/-- The scale bytes of a group of rows, one per block (R50, R53): OVF where any source is poisoned. -/
def groupScales (fmt : Nat) (rows : List QRow) : List Nat :=
  let bs := blockSize fmt
  let n := (rows.headD { elems := [], exps := [], bad := [], us := [] }).elems.length / bs
  (List.range n).map fun b =>
    let cut := fun {α : Type} (l : List α) => (l.drop (b * bs)).take bs
    if rows.any fun r => (cut r.bad).any id then 255
    else blockScale fmt ((rows.headD { elems := [], exps := [], bad := [], us := [] }).exps.getD (b * bs) 0)
           (rows.flatMap fun r => cut r.elems)

/-- Data and scale bytes of one row under given scales (R37, R51). -/
def quantRow (fmt mode words : Nat) (scales : List Nat) (r : QRow) : List Byte × List Byte :=
  let bs := blockSize fmt
  let els := (scales.zipIdx).flatMap fun p =>
    let lo := p.2 * bs
    blockElems fmt mode p.1 (r.exps.getD lo 0) ((r.elems.drop lo).take bs) ((r.us.drop lo).take bs)
  (elemBytes fmt (4 * words) els, scales.map (BitVec.ofNat 8))

/-- Requantize rows in groups of `g` that share their scales (R53). -/
def quantGroups (fmt mode words g : Nat) : Nat → List QRow → List (List Byte × List Byte)
  | 0, _ => []
  | fuel + 1, rows =>
    if rows.isEmpty then []
    else
      let grp := rows.take g
      let sc := groupScales fmt grp
      grp.map (quantRow fmt mode words sc) ++ quantGroups fmt mode words g fuel (rows.drop g)

/-- vreq (R132): lanes of vs, and of v(s + 1) in BI4. -/
def vreqResult (k : Core) (e : VEntry) : VResult :=
  let t := tileOf k e.c
  let fmt := cfgFmt t.cfg
  let n := rowLen fmt (cfgWords t.cfg)
  let regs := if fmt = 2 then [vregOf k e.a, vregOf k (e.a + 1)] else [vregOf k e.a]
  let els := (regs.flatMap fun v => (lanesOf v).map BitVec.toInt).take n
  let bad := (regs.flatMap fun v => (List.range 64).map fun i => v.psn.getLsbD (i / 16)).take n
  let q := signed 10 e.s0.toNat
  let row : QRow := { elems := els, exps := List.replicate n q, bad := bad, us := draws e.imm e.s1 e.s2 e.s3 0 n }
  let out := quantGroups fmt e.imm (cfgWords t.cfg) 1 1 [row]
  .tileRows e.c (out.map fun o => (e.row, o.1, o.2))

/-- The source rows of an areq (R133). -/
def areqRows (k : Core) (e : VEntry) (flagged : Bool) : List QRow :=
  let t := tileOf k e.c
  let fmt := cfgFmt t.cfg
  let n := rowLen fmt (cfgWords t.cfg)
  let a := bankOf k e.b
  let b := bankOf k (e.b + 1)
  (List.range e.n).map fun i =>
    let row := e.imm2 + i
    let at_ := fun j => if j < 64 then bankElem a row j else bankElem b row (j - 64)
    { elems := (List.range n).map at_
      exps := (List.range n).map fun j =>
        if j < 64 then signed 10 a.status.aexp.toNat else signed 10 b.status.aexp.toNat
      bad := List.replicate n flagged
      us := draws e.imm e.s1 e.s2 e.s3 i n }

/-- areq at its start (R52, R53, R133): its flag, bounds and square tests, then its rows. -/
def areqResult (k : Core) (e : VEntry) : Except Cause VResult :=
  let t := tileOf k e.c
  let fmt := cfgFmt t.cfg
  let words := cfgWords t.cfg
  let flagged := (entryReadsB e).any fun b => (bankOf k b).status.ovfl || (bankOf k b).status.psni
  let last := e.row + (if fmt = 4 then 4 * e.n else e.n)
  let side := if fmt = 3 then 16 else 32
  if fmt = 4 ∧ flagged then .error .poison
  else if 64 < e.imm2 + e.n ∨ cfgRows t.cfg < last then .error .bounds
  else if e.sq ∧ (e.n % side ≠ 0 ∨ e.row % side ≠ 0) then .error .tileConfig
  else if e.sq ∧ fmt = 4 then .error .illegalInstr
  else if fmt = 4 then
    let a := bankOf k e.b
    let n := signed 10 e.s1.toNat - signed 10 a.status.aexp.toNat
    let rows := (List.range e.n).flatMap fun i => (List.range 4).map fun w =>
      (e.row + 4 * i + w, (List.range words).map fun j => roundElem 0 0 (bankElem a (e.imm2 + i) (16 * w + j)) n)
    if rows.any fun r => r.2.any outside then .error .poison
    else .ok (.tileRows e.c (rows.map fun r => (r.1, elemBytes 4 (4 * words) r.2, [])))
  else
    let out := quantGroups fmt e.imm words (if e.sq then side else 1) 64 (areqRows k e flagged)
    .ok (.tileRows e.c (out.zipIdx.map fun o => (e.row + o.2, o.1.1, o.1.2)))

/-- An I32 element of a widening (R58): −2^31 is an accepted int32 value; outside int32 the value is open (log entry 15). -/
def wideElem (x : Int) : Int :=
  if x < -2147483648 ∨ 2147483647 < x then (Config.widenOverflow x).toInt else x

/-- Destination rows per source row (R134). -/
def widenRatio (src dst : Nat) : Option Nat :=
  match src, dst with
  | 2, 1 => some 2
  | 2, 3 => some 4
  | 1, 3 => some 2
  | 1, 4 => some 4
  | 2, 4 => some 8
  | 3, 4 => some 2
  | _, _ => none

/-- The blocks of a full row: scale byte and elements. -/
def rowBlocks (fmt : Nat) (t : Tile) (row : Nat) : List (Nat × List Int) :=
  let els := rowElems fmt (tileRow t row)
  (tileScales t row).zipIdx.map fun p => (p.1.toNat, (els.drop (p.2 * blockSize fmt)).take (blockSize fmt))

/-- vwid at its start (R58, R134): every source scale is checked before any row is written. -/
def vwidResult (k : Core) (e : VEntry) : Except Cause VResult :=
  let td := tileOf k e.c
  let ts := tileOf k e.a
  let src := cfgFmt ts.cfg
  let dst := cfgFmt td.cfg
  let sx := signed 10 e.s1.toNat
  let rows := (List.range e.n).map fun i => rowBlocks src ts (e.imm2 + i)
  let ratio := (widenRatio src dst).getD 1
  if dst = 4 then
    if rows.any fun r => r.any fun b => b.1 != 255 && decide (widenShift src b.1 sx < 0) then .error .bounds
    else if rows.any fun r => r.any fun b => b.1 == 255 then .error .poison
    else
      let wide := rows.map fun r => r.flatMap fun b =>
        b.2.map fun x => wideElem (x * 2 ^ (widenShift src b.1 sx).toNat)
      .ok (.tileRows e.c (wide.zipIdx.flatMap fun w => (List.range ratio).map fun m =>
        (e.row + ratio * w.2 + m, elemBytes 4 64 ((w.1.drop (16 * m)).take 16), [])))
  else
    let per := 64 / (elemBits dst / 8)      -- elements per destination row
    let wide := rows.map fun r => r.flatMap fun b => widenBlock src dst b.1 b.2
    .ok (.tileRows e.c (wide.zipIdx.flatMap fun w => (List.range ratio).map fun m =>
      let bl := (w.1.drop (m * (per / blockSize dst))).take (per / blockSize dst)
      (e.row + ratio * w.2 + m, elemBytes dst 64 (bl.flatMap (·.2)), bl.map fun b => BitVec.ofNat 8 b.1)))

/-- What an entry that touches no memory computes from its sources: its result and whether an overflow or a
domain error set a poison bit; or the fault of R81. -/
def vecCompute (k : Core) (e : VEntry) : Except Cause (VResult × Bool) :=
  let a := vregOf k e.a
  let all := fun (v : Word32) (p : Bool) => List.replicate 64 (v, p)
  let ints := (lanesOf a).map BitVec.toInt
  match e.op with
  | .perm => .ok (crossLane k e ((List.range 64).map fun i =>
      (laneAt a ((laneAt (vregOf k e.b) i).toNat % 64), false)))
  | .bcast => .ok (crossLane k e (all (laneAt a e.imm) false))
  | .movv => .ok (.vreg e.d (List.replicate 64 (e.s0.setWidth 32)) 0, false)
  | .movg => .ok (.greg e.d ((laneAt a e.imm).signExtend 64), false)
  | .redsum =>
    let r := checkedLane false (ints.foldl (· + ·) 0)
    .ok (crossLane k e (all r.1 r.2))
  | .redmax => .ok (crossLane k e (all (BitVec.ofInt 32 (ints.foldl max (ints.headD 0))) false))
  | .redmin => .ok (crossLane k e (all (BitVec.ofInt 32 (ints.foldl min (ints.headD 0))) false))
  | .tstp => .ok (.pred e.d (a.psn != 0), false)
  | .fn => .ok (crossLane k e ((lanesOf a).map fun x => vfnValue e.imm x.toInt e.imm2 e.imm3))
  | .rng => .ok (.vreg e.d ((List.range 64).map fun i => draw e.s1 e.s2 e.s3 (64 * e.imm + i)) 0, false)
  | .trd =>
    let ls := vtrdLanes (tileOf k e.c) e.row e.imm
    .ok (.vreg e.d (ls.map (·.1)) (quarterPoison (ls.map (·.2))), false)
  | .tsc =>
    let sc := tileScales (tileOf k e.c) e.row
    .ok (.vreg e.d ((List.range 64).map fun i => (sc.getD i 0).setWidth 32) 0, false)
  | .ard =>
    let b := bankOf k e.c
    .ok (.vreg e.d ((List.range 64).map fun i => BitVec.ofInt 32 (bankElem b e.row i))
      (anyPoison (b.status.ovfl || b.status.psni)), false)
  | .awr => .ok (.bankRow e.c e.row ints (a.psn != 0), false)
  | .twr =>
    if a.psn ≠ 0 then .error .poison
    else .ok (.tileRows e.c [(e.row, ((List.range (cfgWords (tileOf k e.c).cfg)).flatMap fun i =>
      toBytes 4 (laneAt a i).toNat), [])], false)
  | .req => .ok (vreqResult k e, false)
  | .areq => (areqResult k e).map fun r => (r, false)
  | .wid => (vwidResult k e).map fun r => (r, false)
  | _ => .ok (laneWise k e)

end Sys2Proof.Machine
end

