-- ==== Sys2Proof/Machine/Vector.lean ====
section
/-! DEFINITION. The vector instructions at issue (R127, R130 to R137, R164, R165), and the start and the result of
an entry of the vector queue. -/

namespace Sys2Proof.Machine
open Sys2Proof

/-! ## Issue -/

/-- Put an entry into the vector queue (R127), marking the general register or predicate it will write
(R149). -/
def pushEntry (x : Issue) (e : VEntry) (s : State) : State :=
  let s1 := { s with nextId := s.nextId + 1 }
  onCore s1 x.core fun k =>
    let cx := ctxOf k x.ctx
    let e1 := { e with id := s.nextId, ctx := x.ctx, order := cx.order, pc := cx.pc }
    let cx1 := match e.op with
      | .movg => if e.d = 0 then cx else { cx with pendRegs := e.d :: cx.pendRegs }
      | .tstp => if e.d = 0 then cx else { cx with pendPreds := e.d :: cx.pendPreds }
      | _ => cx
    ctxBump (setCtx { k with vq := k.vq ++ [e1] } x.ctx cx1) x.ctx 0x10A 1

/-- A vector register, tile or bank the entry names lies outside the mask (R63, R91, R130). The second register of a BI4 vreq
counts as named at every width of the tile, also where the row takes none of its lanes (DESIGN CHOICE, log entry 152). -/
def entryOutside (cx : Ctx) (e : VEntry) : Bool :=
  !((entryReadsV e ++ entryWritesV e).all (ownsVreg cx ·)) ||
  !((entryReadsT e ++ entryWritesT e).all (ownsTile cx ·)) ||
  !((entryReadsB e ++ entryWritesB e).all (ownsBank cx ·))

/-- Issue of a vector instruction: the resource mask, its own check, the tload it reads behind (R105), and the
queue. `mk` forms the entry from the context, `check` is the instruction's own test at issue. -/
def vecIssue (x : Issue) (legal : Bool) (rs ps : List Nat) (mk : Core → Ctx → VEntry)
    (check : Core → VEntry → Option Cause) (s : State) : Host.Outcome State Fault Refusal :=
  issue x legal rs ps (fun s =>
    let k := coreOf s x.core
    let cx := ctxOf k x.ctx
    let e := mk k cx
    if entryOutside cx e then .fault .permission 0 s
    else match check k e with
      | some c => .fault c 0 s
      | none => match (entryReadsT e).find? (fun t => tileLoadBefore k x.ctx t cx.order) with
        | some t => .wait .waitMem (.tileLoad t) s
        | none =>
          if 16 ≤ k.vq.length then .wait .waitUnit .vectorQueue s
          else .next (pushEntry x e s)) s

def entry (op : VOp) : VEntry := { id := 0, ctx := 0, order := 0, pc := 0, op := op }

/-- A lane instruction: vector registers and immediates only. -/
def laneIssue (x : Issue) (legal : Bool) (e : VEntry) (s : State) : Host.Outcome State Fault Refusal :=
  vecIssue x legal [] [] (fun _ _ => e) (fun _ _ => none) s

def execVadd (x : Issue) (d a b : Reg) (w : Bool) (s : State) : Host.Outcome State Fault Refusal :=
  laneIssue x true { entry .add with d := d.toNat, a := a.toNat, b := b.toNat, w := w } s
def execVsub (x : Issue) (d a b : Reg) (w : Bool) (s : State) : Host.Outcome State Fault Refusal :=
  laneIssue x true { entry .sub with d := d.toNat, a := a.toNat, b := b.toNat, w := w } s
def execVabs (x : Issue) (d a : Reg) (s : State) : Host.Outcome State Fault Refusal :=
  laneIssue x true { entry .abs with d := d.toNat, a := a.toNat } s
def execVneg (x : Issue) (d a : Reg) (s : State) : Host.Outcome State Fault Refusal :=
  laneIssue x true { entry .neg with d := d.toNat, a := a.toNat } s
def execVmin (x : Issue) (d a b : Reg) (s : State) : Host.Outcome State Fault Refusal :=
  laneIssue x true { entry .min with d := d.toNat, a := a.toNat, b := b.toNat } s
def execVmax (x : Issue) (d a b : Reg) (s : State) : Host.Outcome State Fault Refusal :=
  laneIssue x true { entry .max with d := d.toNat, a := a.toNat, b := b.toNat } s
def execVand (x : Issue) (d a b : Reg) (s : State) : Host.Outcome State Fault Refusal :=
  laneIssue x true { entry .and with d := d.toNat, a := a.toNat, b := b.toNat } s
def execVor (x : Issue) (d a b : Reg) (s : State) : Host.Outcome State Fault Refusal :=
  laneIssue x true { entry .or with d := d.toNat, a := a.toNat, b := b.toNat } s
def execVxor (x : Issue) (d a b : Reg) (s : State) : Host.Outcome State Fault Refusal :=
  laneIssue x true { entry .xor with d := d.toNat, a := a.toNat, b := b.toNat } s
def execVclz (x : Issue) (d a : Reg) (s : State) : Host.Outcome State Fault Refusal :=
  laneIssue x true { entry .clz with d := d.toNat, a := a.toNat } s

/-- A shift: an immediate count or the lanes of vb (R164). -/
def shiftEntry (op : VOp) (d a : Reg) (cnt : CountSel) : VEntry :=
  match cnt with
  | .imm k => { entry op with d := d.toNat, a := a.toNat, imm := k.toNat }
  | .lanes vb => { entry op with d := d.toNat, a := a.toNat, b := vb.toNat, useLanes := true }

/-- vshl: an immediate count of 32 to 63 is reserved (R164). -/
def execVshl (x : Issue) (d a : Reg) (cnt : CountSel) (w : Bool) (s : State) :
    Host.Outcome State Fault Refusal :=
  laneIssue x (match cnt with | .imm k => decide (k.toNat < 32) | .lanes _ => true)
    { shiftEntry .shl d a cnt with w := w } s
/-- vshr: RND 0 floor, 1 nearest-even, 2 and 3 reserved (R146). -/
def execVshr (x : Issue) (d a : Reg) (cnt : CountSel) (rnd : BitVec 2) (s : State) :
    Host.Outcome State Fault Refusal :=
  laneIssue x (decide (rnd.toNat ≤ 1)) { shiftEntry .shr d a cnt with imm2 := rnd.toNat } s
def execVshrl (x : Issue) (d a : Reg) (cnt : CountSel) (s : State) : Host.Outcome State Fault Refusal :=
  laneIssue x true (shiftEntry .shrl d a cnt) s
/-- vcmp accepts only eq, ne, lt, le and ltu (R157). -/
def execVcmp (x : Issue) (d a b : Reg) (cond : BitVec 4) (s : State) : Host.Outcome State Fault Refusal :=
  laneIssue x ([0, 1, 2, 3, 6].contains cond.toNat)
    { entry .cmp with d := d.toNat, a := a.toNat, b := b.toNat, imm := cond.toNat } s
def execVsel (x : Issue) (d m a b : Reg) (s : State) : Host.Outcome State Fault Refusal :=
  laneIssue x true { entry .sel with d := d.toNat, a := a.toNat, b := b.toNat, c := m.toNat } s
def execVmul (x : Issue) (d a b : Reg) (w : Bool) (s : State) : Host.Outcome State Fault Refusal :=
  laneIssue x true { entry .mul with d := d.toNat, a := a.toNat, b := b.toNat, w := w } s
def execVmulh (x : Issue) (d a b : Reg) (s : State) : Host.Outcome State Fault Refusal :=
  laneIssue x true { entry .mulh with d := d.toNat, a := a.toNat, b := b.toNat } s
def execVmulsh (x : Issue) (d a b : Reg) (sh : BitVec 6) (s : State) : Host.Outcome State Fault Refusal :=
  laneIssue x true { entry .mulsh with d := d.toNat, a := a.toNat, b := b.toNat, imm := sh.toNat } s
def execVperm (x : Issue) (d a b : Reg) (s : State) : Host.Outcome State Fault Refusal :=
  laneIssue x true { entry .perm with d := d.toNat, a := a.toNat, b := b.toNat } s
def execVbcast (x : Issue) (d a : Reg) (lane : BitVec 6) (s : State) : Host.Outcome State Fault Refusal :=
  laneIssue x true { entry .bcast with d := d.toNat, a := a.toNat, imm := lane.toNat } s
def execVmovv (x : Issue) (d gs : Reg) (s : State) : Host.Outcome State Fault Refusal :=
  vecIssue x true [gs.toNat] [] (fun _ cx => { entry .movv with d := d.toNat, s0 := readG cx gs.toNat })
    (fun _ _ => none) s
def execVmovg (x : Issue) (d a : Reg) (lane : BitVec 6) (s : State) : Host.Outcome State Fault Refusal :=
  vecIssue x true [d.toNat] []
    (fun _ _ => { entry .movg with d := d.toNat, a := a.toNat, imm := lane.toNat }) (fun _ _ => none) s
def execVredsum (x : Issue) (d a : Reg) (s : State) : Host.Outcome State Fault Refusal :=
  laneIssue x true { entry .redsum with d := d.toNat, a := a.toNat } s
def execVredmax (x : Issue) (d a : Reg) (s : State) : Host.Outcome State Fault Refusal :=
  laneIssue x true { entry .redmax with d := d.toNat, a := a.toNat } s
def execVredmin (x : Issue) (d a : Reg) (s : State) : Host.Outcome State Fault Refusal :=
  laneIssue x true { entry .redmin with d := d.toNat, a := a.toNat } s
def execVtstp (x : Issue) (pd : PredNo) (a : Reg) (s : State) : Host.Outcome State Fault Refusal :=
  vecIssue x true [] [pd.toNat] (fun _ _ => { entry .tstp with d := pd.toNat, a := a.toNat })
    (fun _ _ => none) s

/-! Row moves (R131, R165) -/

def rowRegs (row : RowSel) : List Nat := match row with | .imm _ => [] | .reg g => [g.toNat]
def rowValue (cx : Ctx) (row : RowSel) : Nat :=
  match row with | .imm r => r.toNat | .reg g => (readG cx g.toNat).toNat

/-- A tile row operand: an unconfigured tile, then a row of 64 or more or not below ROWS (R89, R131). -/
def tileRowCheck (formats : List Nat) (k : Core) (e : VEntry) : Option Cause :=
  let cfg := (tileOf k e.c).cfg
  if cfgRows cfg = 0 ∨ !formats.contains (cfgFmt cfg) then some .tileConfig
  else if 64 ≤ e.row ∨ cfgRows cfg ≤ e.row then some .bounds
  else none

def bankRowCheck (_ : Core) (e : VEntry) : Option Cause := if 64 ≤ e.row then some .bounds else none

def execVtrd (x : Issue) (d : Reg) (ts : TileNo) (row : RowSel) (h : Bool) (s : State) :
    Host.Outcome State Fault Refusal :=
  vecIssue x true (rowRegs row) []
    (fun _ cx => { entry .trd with d := d.toNat, c := ts.toNat, row := rowValue cx row, imm := b2n h })
    (tileRowCheck [0, 1, 2, 3, 4]) s
def execVtsc (x : Issue) (d : Reg) (ts : TileNo) (row : RowSel) (s : State) :
    Host.Outcome State Fault Refusal :=
  vecIssue x true (rowRegs row) []
    (fun _ cx => { entry .tsc with d := d.toNat, c := ts.toNat, row := rowValue cx row })
    (tileRowCheck [0, 1, 2, 3, 4]) s
def execVard (x : Issue) (d : Reg) (ad : BankNo) (row : RowSel) (s : State) :
    Host.Outcome State Fault Refusal :=
  vecIssue x true (rowRegs row) []
    (fun _ cx => { entry .ard with d := d.toNat, c := ad.toNat, row := rowValue cx row }) bankRowCheck s
/-- vtwr: a RAW or I32 tile (R131). -/
def execVtwr (x : Issue) (td : TileNo) (row : RowSel) (vs : Reg) (s : State) :
    Host.Outcome State Fault Refusal :=
  vecIssue x true (rowRegs row) []
    (fun _ cx => { entry .twr with a := vs.toNat, c := td.toNat, row := rowValue cx row })
    (tileRowCheck [0, 4]) s
def execVawr (x : Issue) (ad : BankNo) (row : RowSel) (vs : Reg) (s : State) :
    Host.Outcome State Fault Refusal :=
  vecIssue x true (rowRegs row) []
    (fun _ cx => { entry .awr with a := vs.toNat, c := ad.toNat, row := rowValue cx row }) bankRowCheck s

/-- Draw operands are read in stochastic mode only (R165). -/
def drawRegs (mode : BitVec 2) (gk gc gs : Reg) : List Nat :=
  if mode = 1 then [gk.toNat, gc.toNat, gs.toNat] else []

/-- vreq (R132): MODE 3 is reserved; a RAW or I32 tile is none it writes. -/
def execVreq (x : Issue) (td : TileNo) (row : RowSel) (vs gq : Reg) (mode : BitVec 2) (gk gc gs : Reg)
    (s : State) : Host.Outcome State Fault Refusal :=
  vecIssue x (mode != 3) (gq.toNat :: rowRegs row ++ drawRegs mode gk gc gs) []
    (fun k cx => { entry .req with
      a := vs.toNat, c := td.toNat, row := rowValue cx row, imm := mode.toNat,
      useLanes := cfgFmt (tileOf k td.toNat).cfg == 2,
      s0 := readG cx gq.toNat, s1 := readG cx gk.toNat, s2 := readG cx gc.toNat, s3 := readG cx gs.toNat })
    (tileRowCheck [1, 2, 3]) s

/-- A row count of 1 to 64 (R146). -/
def countLegal (n : BitVec 7) : Bool := decide (1 ≤ n.toNat) && decide (n.toNat ≤ 64)

/-- areq at issue (R133): an unconfigured or RAW destination. Its other tests, sq with an I32 destination last, come
in the order of R133 at its start (R81). -/
def areqCheck (k : Core) (e : VEntry) : Option Cause :=
  let cfg := (tileOf k e.c).cfg
  if cfgRows cfg = 0 ∨ cfgFmt cfg = 0 then some .tileConfig
  else none

def execAreq (x : Issue) (td : TileNo) (r0t : BitVec 6) (ad : BankNo) (r0a : BitVec 6) (n : BitVec 7)
    (sq : Bool) (mode : BitVec 2) (gk gc gs : Reg) (s : State) : Host.Outcome State Fault Refusal :=
  let fmtOf := fun (k : Core) => cfgFmt (tileOf k td.toNat).cfg
  vecIssue x (countLegal n && mode != 3)
    (drawRegs mode gk gc gs ++ (if fmtOf (coreOf s x.core) = 4 then [gk.toNat] else [])) []
    (fun k cx => { entry .areq with
      c := td.toNat, row := r0t.toNat, b := ad.toNat, imm2 := r0a.toNat, n := n.toNat, sq := sq,
      imm := mode.toNat,
      useLanes := fmtOf k == 2 && decide (12 ≤ cfgWords (tileOf k td.toNat).cfg),
      s1 := readG cx gk.toNat, s2 := readG cx gc.toNat, s3 := readG cx gs.toNat })
    areqCheck s

/-- vwid at issue (R134): formats and widths, then the destination rows, then the source rows. -/
def vwidCheck (k : Core) (e : VEntry) : Option Cause :=
  let td := (tileOf k e.c).cfg
  let ts := (tileOf k e.a).cfg
  match widenRatio (cfgFmt ts) (cfgFmt td) with
  | none => some .tileConfig
  | some r =>
    if cfgRows td = 0 ∨ cfgRows ts = 0 ∨ cfgWords td ≠ 16 ∨ cfgWords ts ≠ 16 then some .tileConfig
    else if cfgRows td < e.row + r * e.n then some .tileConfig
    else if cfgRows ts < e.imm2 + e.n then some .bounds
    else none

def execVwid (x : Issue) (td : TileNo) (r0t : BitVec 6) (ts : TileNo) (r0s : BitVec 6) (n : BitVec 7)
    (gk : Reg) (s : State) : Host.Outcome State Fault Refusal :=
  vecIssue x (countLegal n)
    (if cfgFmt (tileOf (coreOf s x.core) td.toNat).cfg = 4 then [gk.toNat] else []) []
    (fun _ cx => { entry .wid with
      c := td.toNat, row := r0t.toNat, a := ts.toNat, imm2 := r0s.toNat, n := n.toNat,
      s1 := readG cx gk.toNat })
    vwidCheck s

/-- vfn: function codes 6 and 7 and the high bits of its immediates are reserved (R137, R164). -/
def execVfn (x : Issue) (d a : Reg) (fn : BitVec 4) (fi : BitVec 6) (fo : BitVec 5) (s : State) :
    Host.Outcome State Fault Refusal :=
  laneIssue x (decide (fn.toNat ≤ 5) && decide (fi.toNat < 32))
    { entry .fn with d := d.toNat, a := a.toNat, imm := fn.toNat, imm2 := fi.toNat, imm3 := fo.toNat } s
/-- vrng: bits 5:1 of K are reserved (R164). -/
def execVrng (x : Issue) (d gk gc gs : Reg) (h : BitVec 6) (s : State) : Host.Outcome State Fault Refusal :=
  vecIssue x (decide (h.toNat ≤ 1)) [gk.toNat, gc.toNat, gs.toNat] []
    (fun _ cx => { entry .rng with
      d := d.toNat, imm := h.toNat,
      s1 := readG cx gk.toNat, s2 := readG cx gc.toNat, s3 := readG cx gs.toNat })
    (fun _ _ => none) s

/-! Vector loads and stores (R130, R165) -/

/-- vld.l and vst.l: ALIGN before BOUNDS, of the offset (R70, R165). -/
def localVec (x : Issue) (e : VEntry) (a : Reg) (imm : Word32) (s : State) :
    Host.Outcome State Fault Refusal :=
  issue x true [a.toNat] [] (fun s =>
    let k := coreOf s x.core
    let cx := ctxOf k x.ctx
    let off := readG cx a.toNat + immWord imm
    if entryOutside cx e then .fault .permission 0 s
    else match lsCheck off 256 with
      | some c => .fault c off s
      | none =>
        if 16 ≤ k.vq.length then .wait .waitUnit .vectorQueue s
        else .next (pushEntry x { e with s0 := off } s)) s

def execVldL (x : Issue) (d a : Reg) (imm : Word32) (s : State) : Host.Outcome State Fault Refusal :=
  localVec x { entry .ldl with d := d.toNat } a imm s
def execVstL (x : Issue) (r a : Reg) (imm : Word32) (s : State) : Host.Outcome State Fault Refusal :=
  localVec x { entry .stl with a := r.toNat } a imm s

/-- vld (R67, R130): its read leaves at issue, and its entry starts once the data has arrived. -/
def execVld (x : Issue) (d a : Reg) (imm : Word32) (s : State) : Host.Outcome State Fault Refusal :=
  issue x true [a.toNat] [] (fun s =>
    let k := coreOf s x.core
    let cx := ctxOf k x.ctx
    let addr := readG cx a.toNat + immWord imm
    if entryOutside cx { entry .ld with d := d.toNat } then .fault .permission 0 s
    else match reach x addr 256 0 s with
    | .act o => o
    | .own pa s1 =>
      if 16 ≤ k.vq.length then .wait .waitUnit .vectorQueue s1
      else .next (pushEntry x { entry .ldl with d := d.toNat, own := true, s0 := BitVec.ofNat 64 (pa - lsAddr x.core 0), s1 := addr } s1)
    | .far pa s1 =>
      if 16 ≤ k.vq.length then .wait .waitUnit .vectorQueue s1
      else match sendRead x (.vectorLoad d.toNat s1.nextId) addr pa 256 { s1 with nextId := s1.nextId + 1 } with
        | .wait .waitMem w s2 =>
          -- the entry takes the number that its request names
          let e := { entry .ld with d := d.toNat, s0 := addr, imm3 := s1.nextId }
          .wait .waitMem w (pushEntry x e s2)
        | o => o) s

/-- The access of a vst translates: it hits, and the page permits it. -/
def vstHits (s : State) (x : Issue) (addr : Word64) : Bool :=
  match xlate (coreOf s x.core) (stCtx s x.core x.ctx).tenant.toNat addr.toNat 1 with
  | .hit _ => field addr 48 16 == 0
  | _ => false

/-- The address of a vst leads past the 640 KiB that back a core's window: BOUNDS ranks before POISON (R72, R150). -/
def vstPast (s : State) (x : Issue) (addr : Word64) : Bool :=
  match leafOf s (stCtx s x.core x.ctx).tenant.toNat addr.toNat with
  | some (l, big) => pastLs (pteAddr l.pte + addr.toNat % pageBytes big) 256
  | none => false

/-- vst (R130): its write tag is taken at issue, its register is read at its start. Where its address does not translate at
once, the source is looked at first, since POISON ranks before TRANSLATION (R150); behind a vector instruction that will
write the source, the context waits for it (log entry 147). -/
def execVst (x : Issue) (r a : Reg) (imm : Word32) (s : State) : Host.Outcome State Fault Refusal :=
  issue x true [a.toNat] [] (fun s =>
    let k := coreOf s x.core
    let cx := ctxOf k x.ctx
    let addr := readG cx a.toNat + immWord imm
    if entryOutside cx { entry .st with a := r.toNat } then .fault .permission 0 s
    else if addr.toNat % 256 ≠ 0 then .fault .align addr s
    else if !vstHits s x addr && (vecOpen k).any (fun e => e.ctx == x.ctx && (entryWritesV e).contains r.toNat) then
      .wait .waitUnit (.vreg r.toNat) s
    else if !vstHits s x addr && !vstPast s x addr && (vregOf k r.toNat).psn != 0 then .fault .poison addr s
    else match reach x addr 256 1 s with
    | .act o => o
    | .own pa s1 =>
      if 16 ≤ k.vq.length then .wait .waitUnit .vectorQueue s1
      else .next (pushEntry x { entry .stl with a := r.toNat, own := true, s0 := BitVec.ofNat 64 (pa - lsAddr x.core 0), s1 := addr } s1)
    | .far pa s1 =>
      if 16 ≤ k.vq.length then .wait .waitUnit .vectorQueue s1
      else sendWrite x (.vectorStore s1.nextId) .held addr pa 256 []
        (fun s2 => .next (pushEntry x { entry .st with a := r.toNat, s0 := addr, imm3 := s1.nextId } s2))
        { s1 with nextId := s1.nextId + 1 }) s

/-! ## Start of an entry (R105, R121, R127) -/

/-- The request that belongs to a vld or vst entry. -/
def entryReq (s : State) (e : VEntry) : Option MemReq :=
  s.reqs.find? fun r => match r.who with
    | .vectorLoad _ i => i == e.imm3
    | .vectorStore i => i == e.imm3
    | _ => false

/-- An own-window vst of the context, of earlier order and not yet written, to the bytes of a vld or vst (R161, R165). -/
def ownBehind (k : Core) (core : Nat) (e : VEntry) : Bool :=
  e.own && k.vrun.any fun v => v.entry.ctx == e.ctx && v.entry.own && v.entry.op == .stl && decide (v.entry.order < e.order) &&
    meets (lsAddr core v.entry.s0.toNat) 256 (lsAddr core e.s0.toNat) 256

/-- The entry may start: its sources are written, its tile, bank and own-window order is met, and no earlier entry of its
context is unstarted. -/
def entryReady (s : State) (core : Nat) (k : Core) (e : VEntry) : Bool :=
  !ownBehind k core e &&
  !(k.vrun.any fun v => (entryWritesV v.entry).any ((entryReadsV e).contains ·)) &&
  (entryReadsT e).all (fun t => !tileVecWriteBefore k e.ctx t e.order) &&
  (entryWritesT e).all (fun t => !tileVecWriteBefore k e.ctx t e.order &&
    !tileLoadBefore k e.ctx t e.order && !tileReadBefore k e.ctx t e.order) &&
  (entryReadsB e ++ entryWritesB e).all (fun b => !bankPassBefore k e.ctx b e.order &&
    !bankVecWriteBefore k e.ctx b e.order) &&
  (match (k.vq.find? fun o => o.ctx == e.ctx) with | some o => o.id == e.id | none => false) &&
  (e.op != .ld || (match entryReq s e with
    | some r => delivered s r && (match r.st with | .done _ => true | _ => false)
    | none => false))

/-- The vector port reads tile rows through the operand cache (R97). -/
def vectorReads (k : Core) (e : VEntry) : Core :=
  match e.op with
  | .trd => portRead k 1 (e.c, e.row)
  | .wid => (List.range e.n).foldl (fun k i => portRead k 1 (e.a, e.imm2 + i)) k
  | _ => k

def unqueue (k : Core) (e : VEntry) : Core := { k with vq := k.vq.filter fun o => o.id != e.id }

/-- Lanes of 256 memory bytes (R126). -/
def byteLanes (bs : List Byte) : List Word32 :=
  (List.range 64).map fun i => BitVec.ofNat 32 (ofBytes ((bs.drop (4 * i)).take 4))

def laneBytes (v : VReg) : List Byte := (lanesOf v).flatMap fun l => toBytes 4 l.toNat

/-- The entry reads words of tiles, banks or vector registers (R430). -/
def readsSram (e : VEntry) : Bool := !((entryReadsV e).isEmpty && (entryReadsT e).isEmpty && (entryReadsB e).isEmpty)

/-- Start entry e: it leaves the queue, reads its sources, and its result waits for its latency; or its
fault is raised (R81). -/
def startSound (s : State) (core : Nat) (e : VEntry) (out : PortOutcome) : State :=
  let k := coreOf s core
  let started := fun (s : State) (r : VResult) (ov : Bool) =>
    settle (onCore s core fun k =>
      let k1 := vectorReads (unqueue k e) e
      { k1 with vrun := k1.vrun ++ [{ entry := e, result := r, overflow := ov }] }) core
  let fails := fun (s : State) (c : Cause) (addr : Word64) =>
    unitFault (onCore s core fun k => unqueue k e) core e.ctx c addr e.pc e.order
  let at_ := if e.own then e.s1 else e.s0
  match e.op with
  | .ldl => match lsRead s (lsAddr core e.s0.toNat) 256 out with
    | (s1, none) => fails s1 .memError at_
    | (s1, some bs) => started s1 (.vreg e.d (byteLanes bs) 0) false
  | .stl =>
    if (vregOf k e.a).psn ≠ 0 then fails s .poison at_
    else started s (.localStore e.s0.toNat (laneBytes (vregOf k e.a))) false
  | .ld => match entryReq s e with
    | some r => match r.st with
      | .done bs => started { s with reqs := s.reqs.filter fun q => q.id != r.id } (.vreg e.d (byteLanes bs) 0) false
      | _ => s
    | none => s
  | .st => match entryReq s e with
    | some r =>
      if (vregOf k e.a).psn ≠ 0 then
        fails (onCore { s with reqs := s.reqs.filter fun q => q.id != r.id } core fun k =>
          { k with writeTags := k.writeTags - 1 }) .poison e.s0
      else
        let bs := laneBytes (vregOf k e.a)
        settle (onCore { s with reqs := s.reqs.map fun q =>
          if q.id == r.id then { q with wdata := bs, st := .waiting } else q } core fun k => unqueue k e) core
    | none => s
  | _ => match vecCompute k e with
    | .error c => fails s c 0
    | .ok (r, ov) => started s r ov

/-- An entry whose source words fail the retry faults with MEM_ERROR (R430), a vst without its write; else it starts. -/
def startEntry (s : State) (core : Nat) (e : VEntry) (out : PortOutcome) : State :=
  if readsSram e then match sramRead s core out with
    | (s1, true) =>
      let s2 := if e.op == .st then
          onCore { s1 with reqs := s1.reqs.filter fun q => match entryReq s e with | some r => q.id != r.id | none => true } core fun k =>
            { k with writeTags := k.writeTags - 1 }
        else s1
      unitFault (onCore s2 core fun k => unqueue k e) core e.ctx .memError
        (if e.op == .st || e.op == .stl then (if e.own then e.s1 else e.s0) else 0) e.pc e.order
    | (s1, false) => startSound s1 core e .clean
  else startSound s core e out

/-- The unit starts the oldest entry whose conditions are met (R127). -/
def execVectorEntryStart (core : Nat) (out : PortOutcome) (s : State) : Host.Outcome State Fault Refusal :=
  let k := coreOf s core
  match k.vq.find? (entryReady s core k ·) with
  | none => .next s
  | some e => .next (startEntry s core e out)

/-! ## Results (R128, R129, R131) -/

/-- Write the result of a started entry. -/
def writeResult (s : State) (core : Nat) (v : VStarted) : State :=
  let n := v.entry.ctx
  match v.result with
  | .nothing => s
  | .vreg d lanes psn => onCore s core fun k => setVreg k d { lanes := mkLanes lanes, psn := psn }
  | .greg d w => onCtx s core n fun x => writeG { x with pendRegs := x.pendRegs.erase d } d w
  | .pred p b => onCtx s core n fun x => writeP { x with pendPreds := x.pendPreds.erase p } p b
  | .tileRows t rows => onCore s core fun k => rows.foldl (fun k r => writeRow k n t r.1 r.2.1 r.2.2) k
  | .bankRow b row lanes psni => onCore s core fun k =>
      let bk := (lanes.zipIdx).foldl (fun bk e => setBankElem bk row e.2 e.1) (bankOf k b)
      setBank k b { bk with status := { bk.status with psni := bk.status.psni || psni } }
  | .localStore off bytes => lsWrite s (lsAddr core off) bytes

/-- A started entry writes its result (R127); an overflow or domain error is counted (R477). -/
def execVectorResultWrite (core id : Nat) (s : State) : Host.Outcome State Fault Refusal :=
  let k := coreOf s core
  match k.vrun.find? (fun v => v.entry.id == id) with
  | none => .next s
  | some v =>
    let s1 := writeResult s core v
    .next (settle (onCore s1 core fun k =>
      let k1 := { k with vrun := k.vrun.filter fun o => o.entry.id != id }
      if v.overflow then coreBump k1 0x152 1 else k1) core)

end Sys2Proof.Machine
end

