-- ==== Sys2Proof/Machine/CoreEvents.lean ====
section
/-! DEFINITION. Events of a core: the switch of contexts (R66 to R69), responses and tags (R67, R519), walks and
pages (R76 to R78), and the semaphores (R303, R304, R167, R168). -/

namespace Sys2Proof.Machine
open Sys2Proof

/-! ## Switching (R66, R68) -/

/-- The first READY context in ascending order after the one that ran last, wrapping from 7 to 0 (R66); one
that is being saved does not issue (R396), nor one whose work has not entered its queues again (R120). -/
def nextReady (k : Core) : Option Nat :=
  ((List.range 8).map fun i => (k.lastRun + 1 + i) % 8).find? fun n =>
    (ctxOf k n).st == .ready && !comingBack (ctxOf k n) && !k.saving.any fun e => e.1 == n

/-- Issue passes to a READY context (R66); the switch costs 2 CCLK cycles (R68). -/
def execIssueSwitch (core : Nat) (s : State) : Host.Outcome State Fault Refusal :=
  let k := coreOf s core
  if k.running.isSome || k.fenced then .next s
  else match nextReady k with
    | none => .next s
    | some n =>
      .next (setCore s core (coreBump { setCtx k n { ctxOf k n with st := .running, yieldTimer := 0 } with
        running := some n, lastRun := n } 0x141 2))

/-- At 4,096 the running context returns to READY (R66); CC_YIELD counts it (R476). -/
def execYieldTimerExpiry (core : Nat) (s : State) : Host.Outcome State Fault Refusal :=
  let k := coreOf s core
  match k.running with
  | none => .next s
  | some n =>
    if (ctxOf k n).yieldTimer < 4096 then .next s
    else
      let k1 := ctxBump (offSlot k n) n 0x10C 1
      .next (setCore s core (setCtx k1 n (readyCtx (ctxOf k1 n))))

/-! ## Responses and tags (R67, R81, R103, R309) -/

def removeReq (s : State) (id : Nat) : State := { s with reqs := s.reqs.filter fun q => q.id != id }

/-- The tag a response frees (R67). -/
def freeTag (s : State) (r : MemReq) : State :=
  if !r.tagged then s
  else onCore s r.core fun k =>
    if r.write then { k with writeTags := k.writeTags - 1 } else { k with readTags := k.readTags - 1 }

/-- The waiting instruction of a context completes: READY, PC + 8. -/
def completeWait (f : Ctx → Ctx) (s : State) (c n : Nat) : State :=
  onCtx s c n fun x => f { readyCtx x with pc := x.pc + 8, order := x.order + 1 }

/-- Deliver a read that ended well. -/
def deliverRead (s : State) (r : MemReq) (bytes : List Byte) : State :=
  match r.who with
  | .scalarLoad d _ sg => completeWait (fun x => writeG x d (loadValue sg bytes)) (removeReq s r.id) r.core r.ctx
  | .vectorLoad _ _ =>
    completeWait id { s with reqs := s.reqs.map fun q => if q.id == r.id then { q with tagged := false } else q }
      r.core r.ctx
  | .fetch => onCtx (onCore (removeReq s r.id) r.core fun k => icFill k r.va bytes) r.core r.ctx readyCtx
  | .tileRows _ _ _ | .tileScales _ _ _ =>
    { s with reqs := s.reqs.map fun q => if q.id == r.id then { q with tagged := false } else q }
  | _ => s

/-- Deliver a read that ended with an error: the waiting instruction faults precisely, a tload as R103 says. -/
def failRead (s : State) (r : MemReq) (c : Cause) : State :=
  let s1 := removeReq s r.id
  let x := stCtx s1 r.core r.ctx
  match r.who with
  | .tileRows mid _ _ | .tileScales mid _ _ =>
    match (coreOf s1 r.core).moves.find? (·.id == mid) with
    | some m => unitFault s1 r.core r.ctx c r.va m.pc m.order
    | none => s1
  | _ => faultCtx s1 r.core r.ctx c r.va false x.pc x.order

def isCoreRead (r : MemReq) : Bool :=
  !r.write && (match r.who with | .prefetch _ => false | .host => false | _ => true)

/-- A read's answer returns to its core (R67, R74, R81, R103, R160); the read of a faulted context is
discarded (R83). -/
def execReadResponseArrival (id : Nat) (s : State) : Host.Outcome State Fault Refusal :=
  match s.reqs.find? (fun r => r.id == id && isCoreRead r && !delivered s r) with
  | none => .next s
  | some r =>
    match r.st with
    | .done bytes =>
      let s1 := freeTag s r
      .next (settle (if r.dead then removeReq s1 id else deliverRead s1 r bytes) r.core)
    | .failed c =>
      let s1 := freeTag s r
      .next (settle (if r.dead then removeReq (onCtx s1 r.core r.ctx fun x =>
        if x.st = .faulted then { x with multi := true } else x) id else failRead s1 r c) r.core)
    | _ => .next s

/-- A write response frees its tag; a failed posted store faults its context imprecisely (R81, R309). -/
def execWriteResponseArrival (id : Nat) (s : State) : Host.Outcome State Fault Refusal :=
  match s.reqs.find? (fun r => r.id == id && r.write && (match r.who with | .host => false | _ => true)) with
  | none => .next s
  | some r =>
    match r.st with
    | .done _ => .next (settle (removeReq (freeTag s r) id) r.core)
    | .failed c =>
      .next (settle (storeFault (removeReq (freeTag s r) id) r.core r.ctx c r.va r.order) r.core)
    | _ => .next s

/-- A free tag goes to the oldest waiting requester of its kind (R519): a context in WAIT_TAG becomes READY with
it, the move unit sends with it the request that waited, and goes on with those behind it. -/
def execTagFree (core : Nat) (write : Bool) (s : State) : Host.Outcome State Fault Refusal :=
  let k := coreOf s core
  match k.tagQueue.find? (fun q => q.2 == write) with
  | none => .next s
  | some q =>
    if 64 ≤ (if write then k.writeTags else k.readTags) then .next s
    else
      let k1 := { k with tagQueue := k.tagQueue.erase q }
      if q.1 < 8 then
        let k2 := addTag k1 write
        .next (setCore s core (setCtx k2 q.1 { readyCtx (ctxOf k2 q.1) with granted := write :: (ctxOf k q.1).granted }))
      else match headMove k1 with
        | some m => match m.plan, m.load == !write && (partBuffered k1 m (m.plan.headD { segs := [] })).1.isNone with
          | p :: _, true => .next (settle (sendTagged s core (addTag k1 write) m p) core)
          | _, _ => .next (settle (setCore s core k1) core)
        | none => .next (settle (setCore s core k1) core)

/-! ## Walks, pages and invalidations (R75 to R78, R262) -/

/-- Give one waiting context the walker's answer (R76, R262); a tload or tstore issues again (R102). -/
def answerWalk (s : State) (c n va acc : Nat) (tile : Bool) (err : Option Cause) : State :=
  let x := stCtx s c n
  let t := x.tenant.toNat
  let addr := BitVec.ofNat 64 va
  match err with
  | some e => faultCtx s c n e addr false x.pc x.order
  | none => match walkOut s t va acc with
    | .fault e _ => faultCtx (noteMalformed s t va acc) c n e addr false x.pc x.order
    | .page =>
      if tile then onCtx s c n fun x => { readyCtx x with absent := some (va / Config.page2M) }
      else countPageWait (onCtx s c n fun x =>
        { x with st := .waitPage, wait := .page va, pageAt := s.ftime }) t
    | .ok l big =>
      onCtx (onCore (touchLeaf s t va acc l big) c fun k => tlbInstall k t va acc l big) c n readyCtx

/-- The answer to one context, if it waits for this walk. -/
def answerCtx (w : Walk) (err : Option Cause) (c : Nat) (s : State) (n : Nat) : State :=
  let x := stCtx s c n
  if x.st != .waitMem then s
  else match x.wait with
    | .walk va acc => if walkCovers w x.tenant.toNat va then answerWalk s c n va acc false err else s
    | .walkTile va acc => if walkCovers w x.tenant.toNat va then answerWalk s c n va acc true err else s
    | _ => s

/-- The Fold's walker answers one of its 16 running walks (R75, R76): every context of the Fold that waits for
the page takes its outcome. `err` is a page-table read that ended in an error (R262). With no root address of the tenant
the walk meets no entry (R260). -/
def execWalkComplete (fold tenant : Nat) (va : Word64) (err : Option Cause) (s : State) :
    Host.Outcome State Fault Refusal :=
  let fd : Fold := look {} s.folds fold
  match (fd.walks.take 16).find? (walkCovers · tenant va.toNat) with
  | none => .next s
  | some w =>
    let s1 := { s with folds := put s.folds fold { fd with walks := fd.walks.erase w } }
    let cs := (s.cores.map (·.1)).filter fun c => foldOf s c == fold
    let err := if (tabFind fd.roots tenant).isNone then some Cause.translation else err
    .next (cs.foldl (fun s c => (List.range 8).foldl (answerCtx w err c) s) s1)

/-- What one context waiting for the page takes from its leaf (R78, R269). A tload or tstore whose rows before SROW are still
in the move unit waits for them (R102). -/
def answerPage (t page c : Nat) (s : State) (n : Nat) : State :=
  let x := stCtx s c n
  if x.st != .waitPage || x.tenant.toNat != t then s
  else match x.wait with
    | .page va =>
      if va / Config.page2M != page then s
      else match leafOf s t va with
        | none => faultCtx s c n .translation (BitVec.ofNat 64 va) false x.pc x.order
        | some (l, _) =>
          if !pteV l.pte then faultCtx s c n .translation (BitVec.ofNat 64 va) false x.pc x.order
          else if pteBroken l.pte = 1 then faultCtx s c n .memError (BitVec.ofNat 64 va) false x.pc x.order
          else if pteBroken l.pte = 2 then faultCtx s c n .integrity (BitVec.ofNat 64 va) false x.pc x.order
          else if !pteRes l.pte then s
          else if (coreOf s c).moves.any (fun m => m.ctx == n && !m.whole) then onCtx s c n fun y => { y with wait := .rows va }
          else pgBump (onCtx s c n readyCtx) t 5 (s.ftime - x.pageAt)
    | _ => s

/-- Every context that waits for the page takes what its leaf now says. -/
def answerAllPage (s : State) (t page : Nat) : State :=
  (s.cores.map (·.1)).foldl (fun s c => (List.range 8).foldl (answerPage t page c) s) s

/-- Some access translated with the old entry is still open (R77): a request, a part of a tload or tstore that has not left
the unit, or a vld or vst to the own window in the vector unit. -/
def openIn (s : State) (c : Nat) (v : Inval) : Bool :=
  let k := coreOf s c
  let within := fun (e : Nat × Nat) => decide (v.pa ≤ e.1) && decide (e.1 < v.pa + v.len)
  let own := fun (e : VEntry) => e.own && within (lsAddr c e.s0.toNat, 256)
  s.reqs.any (fun r => r.core == c && r.tenant == v.tenant && r.segs.any within) ||
  k.moves.any (fun m => (ctxOf k m.ctx).tenant.toNat == v.tenant && m.plan.any fun p => p.segs.any within) ||
  (k.tenant == some v.tenant && ((vecOpen k).any own || k.ctxs.any (fun x => x.2.backV.any own) ||
    k.saved.any fun x => x.entries.any own))

/-! ## Semaphores and fences (R167, R168, R303, R304) -/

/-- Counts that reach one semaphore in one cycle are added, then saturated once (R304). -/
def addCount (k : Core) (q m : Nat) : Core :=
  let v := semOf k q
  setSem k q { count := min 65535 (v.count + m), ovf := v.ovf || decide (65535 < v.count + m) }

/-- Signal number `i` of those in flight may arrive at the semaphore with the others of `picks`: no earlier signal of its
sender and path to the core stays behind (R308). -/
def sigMay (l : List Sig) (core sem : Nat) (picks : List Nat) (i : Nat) : Bool :=
  match l[i]? with
  | none => false
  | some g => g.core == core && g.sem == sem &&
    (g.src.isNone || (l.take i).zipIdx.all fun e => e.1.src != g.src || e.1.core != core || picks.contains e.2)

/-- The signals in flight that stay. -/
def sigsLeft (l : List Sig) (picks : List Nat) : List Sig :=
  (l.zipIdx.filter fun e => !picks.contains e.2).map (·.1)

/-- The counts of the signals that arrive. -/
def sigCounts (l : List Sig) (picks : List Nat) : Nat :=
  ((l.zipIdx.filter fun e => picks.contains e.2).map fun e => e.1.cnt).foldl (· + ·) 0

/-- A signal crosses the mesh as one VC0 flit, but for one of a core to itself (R306). -/
def onMeshSig (g : Sig) : Bool := g.src.map (·.1) != some g.core

/-- VC0 enters neither plane: the failure of one waits for the reroute of the other (R285, R300). -/
def vc0Held (s : State) : Bool :=
  let a := look ({} : Plane) s.planes 0
  let b := look ({} : Plane) s.planes 1
  a.waiting || b.waiting || (a.rerouting && b.rerouting)

/-- Signals in flight to one semaphore, named by their places in the order of sending, arrive in one cycle (R304, R308); a
fenced core discards them (R433). While VC0 is held, those on the mesh wait (R300). Signals that R308 orders otherwise arrive together only in its order. -/
def execSignalArrival (core : Nat) (sem : SemNo) (picks : List Nat) (s : State) : Host.Outcome State Fault Refusal :=
  if picks.isEmpty || !picks.all (sigMay s.sigs core sem.toNat picks) ||
      (vc0Held s && picks.any fun i => (s.sigs[i]?).any onMeshSig) then .next s
  else
    let s1 := { s with sigs := sigsLeft s.sigs picks }
    if (coreOf s core).fenced then .next s1
    else .next (settle (onCore s1 core fun k => addCount k sem.toNat (sigCounts s.sigs picks)) core)

/-- wait (R63, R69, R167): consumes one count, or WAIT_SEM. -/
def execWait (x : Issue) (sem : SemNo) (s : State) : Host.Outcome State Fault Refusal :=
  issue x true [] [] (fun s =>
    let k := coreOf s x.core
    let v := semOf k sem.toNat
    if !ownsSem (ctxOf k x.ctx) sem.toNat then .fault .permission 0 s
    else if v.ovf then .fault .semOverflow 0 s
    else if v.count = 0 then .wait .waitSem (.sem sem.toNat) s
    else .next (onCore s x.core fun k => setSem k sem.toNat { v with count := v.count - 1 })) s

/-- tryw (R167): pd = 1 and one count fewer, or pd = 0. -/
def execTryw (x : Issue) (pd : PredNo) (sem : SemNo) (s : State) : Host.Outcome State Fault Refusal :=
  issue x true [] [pd.toNat] (fun s =>
    let k := coreOf s x.core
    let v := semOf k sem.toNat
    if !ownsSem (ctxOf k x.ctx) sem.toNat then .fault .permission 0 s
    else if v.ovf then .fault .semOverflow 0 s
    else
      let k1 := if v.count = 0 then k else setSem k sem.toNat { v with count := v.count - 1 }
      .next (setCore s x.core (setCtx k1 x.ctx (writeP (ctxOf k1 x.ctx) pd.toNat (v.count != 0))))) s

/-- fence (R168): MASK 0 is reserved. -/
def execFence (x : Issue) (mask : BitVec 4) (s : State) : Host.Outcome State Fault Refusal :=
  issue x (mask != 0) [] [] (fun s =>
    if fenceMet s x.core x.ctx mask.toNat then .next s else .wait .waitMem (.fence mask.toNat) s) s

/-- The work a fence waits for is done: its context becomes READY past the fence (R168). -/
def execFenceRelease (core ctx : Nat) (s : State) : Host.Outcome State Fault Refusal :=
  let x := stCtx s core ctx
  match x.wait with
  | .fence m =>
    if x.st = .waitMem ∧ fenceMet s core ctx m then .next (completeWait id s core ctx) else .next s
  | _ => .next s

end Sys2Proof.Machine
end

