-- ==== Sys2Proof/Machine/HostOps.lean ====
section
/-! DEFINITION. The host side of one function: MSI-X messages, cause bits, the response ring, the event
ring, and the answer of a command (R401 to R409, R425, R474). -/

namespace Sys2Proof.Machine
open Sys2Proof

def funcOf (s : State) (fn : Nat) : Func := look {} s.funcs fn

/-- Uango restarts or hands over to a new image: page-ins, task starts and task ends wait (R428, R450). -/
def uangoAway (s : State) : Bool := (funcOf s 0).fstate == .updating || (funcOf s 0).fstate == .recovery

def setFunc (s : State) (fn : Nat) (f : Func) : State := { s with funcs := put s.funcs fn f }
def onFunc (s : State) (fn : Nat) (g : Func → Func) : State := setFunc s fn (g (funcOf s fn))

/-- The PF is present, and VF n while the host has enabled it (R398). -/
def fnPresent (s : State) (fn : Nat) : Bool :=
  fn == 0 || (s.pcie.vfEnable && decide (1 ≤ fn ∧ fn ≤ s.pcie.numVfs))

/-- The tenant of a function exists: the function is present, or a PCIe-domain reset has left its tenant running unreached, or ending
(R398, R499). -/
def fnKnown (s : State) (fn : Nat) : Bool := fnPresent s fn || (tabFind s.funcs fn).isSome

/-- The functions that are present, the PF first. -/
def presentFns (s : State) : List Nat := (List.range 64).filter (fnPresent s)

/-! ## Interrupts (R403, R474) -/

/-- Send one MSI-X message: a masked vector sets its pending bit, and a function in SCRUB sends none until
the scrub ends (R474, log entry 16). -/
def sendMsg (f : Func) (vec : Nat) : Func :=
  if f.msixMask.getLsbD vec then { f with pba := f.pba ||| BitVec.ofNat 64 (2 ^ vec) }
  else if f.fstate = .scrub then
    (if f.heldMsgs.contains vec then f else { f with heldMsgs := f.heldMsgs ++ [vec] })
  else { f with messages := vec :: f.messages }

/-- The vector of a cause bit other than DMA (R401). -/
def causeVec (f : Func) (bit : Nat) : Nat :=
  match bit with
  | 0 => f.rspVec.toNat
  | 1 => f.evtVec.toNat
  | _ => f.errVec.toNat

/-- Set a cause bit: from 0 to 1 with its mask bit clear it sends one message (R403). -/
def raiseCause (f : Func) (bit : Nat) : Func :=
  let g := { f with cause := f.cause ||| BitVec.ofNat 5 (2 ^ bit) }
  if f.cause.getLsbD bit || f.mask.getLsbD bit then g else sendMsg g (causeVec f bit)

/-- Set RERR with a code and raise RING (R402). -/
def ringError (f : Func) (code : Byte) : Func := raiseCause { f with rerr := true, rerrCode := code } 3

/-- Distance of two modular 16-bit indices. -/
def idxDist (a b : Half) : Nat := (a - b).toNat

/-! ## Responses (R402, R405) -/

/-- Write a response into the slot at RSP_PI; PHASE is 1 in the first pass of the ring (R402). -/
def putResp (f : Func) (r : Resp) : Func :=
  let slot := f.rspPi.toNat % 256
  let r1 := { r with phase := f.rspPi.toNat / 256 % 2 == 0 }
  raiseCause { f with rspRing := put f.rspRing slot r1, rspPi := f.rspPi + 1 } 0

/-- A response of the function: written while the ring has room, else it waits; discarded while the rings are
not in use (R402). -/
def sendResp (f : Func) (r : Resp) : Func :=
  if !f.enable then f
  else if f.rspWait.isEmpty && decide (idxDist f.rspPi f.rspCi < 256) then putResp f r
  else { f with rspWait := f.rspWait ++ [r] }

/-! ## Events (R424, R425) -/

def evtRoom (f : Func) : Bool := decide (idxDist f.evtPi f.evtCi < 2 ^ f.evtLog2.toNat)

/-- Write an event record into the slot at EVT_PI (R405). -/
def putEvent (f : Func) (code : Half) (eseq : Half) (stamp : Nat) (body : BitVec 384) : Func :=
  let size := 2 ^ f.evtLog2.toNat
  let e : Ev := { code := code, eseq := eseq, phase := f.evtPi.toNat / size % 2 == 0, verMajor := f.sMajor,
                  verMinor := f.sMinor, stamp := stamp, body := body }
  raiseCause { f with evtRing := put f.evtRing (f.evtPi.toNat % size) e, evtPi := f.evtPi + 1 } 1

/-- Once a slot is free, one EVENT_LOST record with the count dropped since the last one (R425). -/
def flushLost (f : Func) (stamp : Nat) : Func :=
  if f.enable && decide (0 < f.dropped) && evtRoom f then
    putEvent { f with dropped := 0, eseq := f.eseq + 1 } 0x00FF f.eseq stamp (BitVec.ofNat 384 f.dropped)
  else f

/-- An event arises for a function: every event consumes one ESEQ; it is dropped while the ring is full or
not in use (R402, R425). -/
def eventTo (f : Func) (code : Half) (stamp : Nat) (body : BitVec 384) : Func :=
  let f1 := flushLost f stamp
  let f2 := { f1 with eseq := f1.eseq + 1 }
  if f2.enable && evtRoom f2 then putEvent f2 code f1.eseq stamp body
  else { f2 with dropped := f2.dropped + 1,
                 evtLost := if f2.evtLost = 0xFFFFFFFF then f2.evtLost else f2.evtLost + 1 }

/-- Build a 48-byte body from (offset, size, value) fields, little-endian. -/
def bodyOf : List (Nat × Nat × Nat) → BitVec 384
  | [] => 0
  | (off, size, v) :: t => setField (bodyOf t) (8 * off) (8 * size) v

/-- An event for one function, stamped with the copy of DCLK, Uango's domain (R317, R405). -/
def postEvent (s : State) (fn : Nat) (code : Half) (fields : List (Nat × Nat × Nat)) : State :=
  if fnPresent s fn then onFunc s fn fun f => eventTo f code (copyOf s 7) (bodyOf fields) else s

/-- An event sent to all functions. -/
def postAll (s : State) (code : Half) (fields : List (Nat × Nat × Nat)) : State :=
  (presentFns s).foldl (fun s fn => postEvent s fn code fields) s

/-- A module-level event record also stands in the emergency log: the last 60 (R401). -/
def postPf (s : State) (code : Half) (fields : List (Nat × Nat × Nat)) : State :=
  let s1 := postEvent s 0 code fields
  let e : Ev := { code := code, stamp := copyOf s 7, body := bodyOf fields }
  { s1 with drover := { s1.drover with emLog := (s1.drover.emLog ++ [e]).drop ((s1.drover.emLog.length + 1) - 60) } }

/-! ## Status codes (R409) -/

def stOK : Half := 0
def stPending : Half := 1
def stBadOpcode : Half := 0x10
def stBadVersion : Half := 0x11
def stBadLength : Half := 0x12
def stBadField : Half := 0x13
def stNoResource : Half := 0x20
def stRetryLater : Half := 0x21
def stDenied : Half := 0x30
def stMemError : Half := 0x40
def stIntegrity : Half := 0x41
def stAborted : Half := 0x50
def stUnreachable : Half := 0x60
def stInternal : Half := 0xFF

/-- The status that names a fault cause (R409). -/
def causeStatus (c : Cause) : Half := match c with | .integrity => stIntegrity | _ => stMemError

end Sys2Proof.Machine
end

