-- ==== Sys2Proof/Machine/PhysMem.lean ====
section
/-! DEFINITION. Physical memory behind the ports: checks of a read, merges of a write, Far units and wear, frames
and their keys, and the allotments (R254 to R281, R456 to R458). -/

namespace Sys2Proof.Machine
open Sys2Proof

/-! ## Frames (R256, R458) -/

def frameNo (pa : Nat) : Nat := pa / Config.page2M
def frameOf (s : State) (pa : Nat) : Frame := look {} s.frames (frameNo pa)
def setFrame (s : State) (pa : Nat) (f : Frame) : State := { s with frames := put s.frames (frameNo pa) f }

def nearStack (pa : Nat) : Nat := pa / 2 ^ 36 % 8
def nearChannel (pa : Nat) : Nat := pa / 1024 % 32
/-- The LPDDR5X package of a Mid address and the corner port that serves it (R257). -/
def midPackage (pa : Nat) : Nat := (pa - Config.midBase) / 1024 % 16
def midCorner (pa : Nat) : Nat := midPackage pa / 4
/-- The 16 KiB unit of a Far address and the corner that serves it (R258). -/
def farUnit (pa : Nat) : Nat := (pa - Config.farBase) / 16384
def farCorner (pa : Nat) : Nat := farUnit pa % 4

/-! A fabric-global address (R255): the module in bits 61:52, its physical address below. -/
def globalAddr (modid pa : Nat) : Word64 := BitVec.ofNat 64 (modid % 1024 * 2 ^ 52 + pa % 2 ^ 52)
def globalModule (g : Word64) : Nat := field g 52 10
def globalPhys (g : Word64) : Nat := field g 0 52

/-- The telemetry place of a memory error: Near stack, 8 Mid, 9 Far. -/
def tierPlace (pa : Nat) : Nat :=
  match tierOf pa with | some 0 => nearStack pa | some 1 => 8 | _ => 9

/-- The 512-byte sectors that `n` bytes at `pa` touch. -/
def sectorsOf (pa n : Nat) : List Nat := (List.range ((pa + n + 511) / 512 - pa / 512)).map (pa / 512 + ·)

/-- The page that maps a physical address: tenant, page address, leaf, and whether it is a 1 GiB page. -/
def ownerOf (s : State) (pa : Nat) : Option (Nat × Nat × Leaf × Bool) :=
  s.tenants.findSome? fun t =>
    match t.2.small.find? (fun e => pteRes e.2.pte && pteAddr e.2.pte / Config.page2M == pa / Config.page2M) with
    | some e => some (t.1, e.1 * Config.page2M, e.2, false)
    | none => match t.2.big.find? (fun e => pteAddr e.2.pte / Config.page1G == pa / Config.page1G) with
      | some e => some (t.1, e.1 * Config.page1G, e.2, true)
      | none => none

/-! ## Ranges of bytes -/

def inRange (a n x : Nat) : Bool := decide (a ≤ x) && decide (x < a + n)

/-- Zero a range of bytes. -/
def zeroRange (m : List Host.Cell) (a n : Nat) : List Host.Cell := m.filter fun c => !inRange a n c.1

/-- Copy a range of bytes to a range that does not overlap it. -/
def copyRange (m : List Host.Cell) (src dst n : Nat) : List Host.Cell :=
  (m.filter fun c => inRange src n c.1).foldl (fun m c => setByte m (dst + (c.1 - src)) c.2) (zeroRange m dst n)

/-- A range written whole: no sector or unit of it fails any longer (R278). -/
def healRange (s : State) (a n : Nat) : State :=
  { s with badSectors := s.badSectors.filter fun p => !inRange a n (p.1 * 512)
           badUnits := s.badUnits.filter fun p => !inRange a n (Config.farBase + p.1 * 16384) }

/-! ## Errors (R277, R278, R282) -/

def causeNo (c : Cause) : Nat := (causeCode c)

/-- Uango records the 2 MiB frame; a fixed page of Near or Mid is reported to its function and the PF (R278, R461). -/
def reportFrame (s : State) (pa : Nat) (c : Cause) : State :=
  let s1 := setFrame s pa { frameOf s pa with recorded := true }
  if tierOf pa = some 2 then s1
  else match ownerOf s pa with
  | some (t, va, l, big) =>
    if ptePaged l.pte then s1
    else
      let body := [(0, 8, va + pa % pageBytes big), (8, 1, causeNo c)]
      let s2 := postEvent s1 t 0x0021 body
      if t = 0 then s2 else postPf s2 0x0021 body
  | none => s1

/-- A lasting error: it is counted, of Near with its channel, frame and time (R282), and Uango records the frame (R278). -/
def recordFrame (s : State) (pa : Nat) (c : Cause) : State :=
  reportFrame { s with telem := { s.telem with
    errFrames := if tierOf pa = some 0 then s.telem.errFrames ++ [(nearStack pa * 32 + nearChannel pa, frameNo pa, s.ftime)]
                 else s.telem.errFrames
    stackLasting := bump s.telem.stackLasting (tierPlace pa) 1 } } pa c

inductive MemAns where
  | ok (bytes : List Byte)
  | err (c : Cause)
  deriving DecidableEq, Repr

/-- The state's own record of an error in `n` bytes at `pa`: the first failing sector or Far unit. -/
def stateError (s : State) (pa n : Nat) : Option Cause :=
  if tierOf pa = some 2 then
    ((List.range (farUnit (pa + n - 1) + 1 - farUnit pa)).map (farUnit pa + ·)).findSome? fun u => tabFind s.badUnits u
  else (sectorsOf pa n).findSome? fun k => tabFind s.badSectors k

/-- Mark the sector or Far unit at `pa` as failing until it is written whole (R278). -/
def markBad (s : State) (pa : Nat) (c : Cause) : State :=
  if tierOf pa = some 2 then { s with badUnits := put s.badUnits (farUnit pa) c }
  else { s with badSectors := put s.badSectors (pa / 512) c }

/-- A read at a port or the Far controller has ended with a cause that the state did not hold: its sector or unit fails from now
on, and a lasting error is recorded (R277, R278). -/
def meetError (s : State) (pa : Nat) (c : Cause) : State :=
  if inLs pa || (tierOf pa).isNone || (stateError s pa 1).isSome || (frameOf s pa).keyTag == 0xFF then s
  else match c with
  | .memError => recordFrame (markBad s pa .memError) pa .memError
  | .integrity => markBad s pa .integrity
  | _ => s

/-- The three checks of a read in order: ECC, the re-read, the tag (R277); an unassigned frame fails the tag
check (R458). `out` is what the hardware's condition makes of the request. DEDUCED (log entry 182): a transient event counts in
DIE_REPLAY whatever it met, since R430 feeds every one to Plover and R437 has no other input for it. -/
def readCheck (s : State) (pa n : Nat) (out : PortOutcome) : State × Option Cause :=
  if out = .watchdog then (s, some .watchdog)
  else match stateError s pa n with
  | some c => (s, some c)
  | none =>
    match out with
    | .lasting => (recordFrame (markBad s pa .memError) pa .memError, some .memError)
    | .corrected => ({ s with telem := { s.telem with stackCorrected := bump s.telem.stackCorrected (tierPlace pa) 1 }
                              plover := { s.plover with stackCe := bump s.plover.stackCe (tierPlace pa) 1 } },
        if (frameOf s pa).keyTag = 0xFF then some .integrity else none)
    | .transient => ({ s with telem := { s.telem with stackTransient := bump s.telem.stackTransient (tierPlace pa) 1 }
                              plover := { s.plover with dieReplay := s.plover.dieReplay + 1 } },
        if (frameOf s pa).keyTag = 0xFF then some .integrity else none)
    | .tagMismatch => (markBad s pa .integrity, some .integrity)
    | _ => (s, if (frameOf s pa).keyTag = 0xFF then some .integrity else none)

/-- A read at the unit that holds the address: a local-store window, a port, or the Far controller. Past the 640 KiB of a
window nothing is backed (R72). -/
def physRead (s : State) (pa n : Nat) (out : PortOutcome) : State × MemAns :=
  if inLs pa then
    if out = .watchdog then (s, .err .watchdog)
    else if pastLs pa n then (s, .err .bounds)
    else match lsRead s pa n out with
      | (s1, some b) => (s1, .ok b)
      | (s1, none) => (s1, .err .memError)
  else if (tierOf pa).isNone then (s, .err .memError)
  else match readCheck s pa n out with
    | (s1, some c) => (s1, .err c)
    | (s1, none) => (s1, .ok (bytesAt s1.mem pa n))

/-- Cut bytes at multiples of `size`. -/
def chunksAt (size : Nat) : Nat → Nat → List Byte → List (Nat × List Byte)
  | 0, _, _ => []
  | f + 1, pa, bs =>
    if bs.isEmpty then []
    else
      let n := size - pa % size
      (pa, bs.take n) :: chunksAt size f (pa + n) (bs.drop n)

/-- One sector of a write (R270): a partial write is a merge whose read must pass; a whole write makes the
sector readable again. -/
def writeSector (out : PortOutcome) (a : State × Option Cause) (c : Nat × List Byte) : State × Option Cause :=
  let s := a.1
  if c.2.length < 512 then
    match readCheck s (c.1 / 512 * 512) 512 out with
    | (s1, some e) => (s1, a.2.orElse fun _ => some e)
    | (s1, none) => ({ s1 with mem := setBytes s1.mem c.1 c.2 }, a.2)
  else ({ s with mem := setBytes s.mem c.1 c.2, badSectors := del s.badSectors (c.1 / 512) }, a.2)

/-- A write ended by the grant watchdog may or may not have been applied, sector by sector (R298): a free value says
which. -/
def watchWrite (s : State) (pa : Nat) (bytes : List Byte) : State :=
  let cs := chunksAt 512 (bytes.length / 512 + 2) pa bytes
  let fv := freeBits s cs.length
  if (tierOf pa).isSome && (frameOf s pa).keyTag = 0xFF then s
  else cs.zipIdx.foldl (fun s c =>
    if !fv.1 c.2 then s
    else if inLs pa then lsWrite s c.1.1 c.1.2
    else (writeSector .clean (s, none) c.1).1) fv.2

/-- A write at a local-store bank or a Near or Mid port. -/
def physWrite (s : State) (pa : Nat) (bytes : List Byte) (out : PortOutcome) : State × Option Cause :=
  if out = .watchdog then (watchWrite s pa bytes, some .watchdog)
  else if inLs pa then
    if pastLs pa bytes.length then (s, some .bounds)
    else if (coreOf s ((pa - Config.lsBase) / 0x100000)).fenced then (s, none) else (lsWrite s pa bytes, none)
  else if (frameOf s pa).keyTag = 0xFF then (s, some .integrity)
  else (chunksAt 512 (bytes.length / 512 + 2) pa bytes).foldl (writeSector out) (s, none)

/-! ## The Far tier (R278 to R281) -/

/-- 1/10,000 of the rated endurance of 60,000 TiB (R280). -/
def wearStep : Nat := 6 * 2 ^ 40

/-- FAR_LIFE_USED (R280). -/
def lifeUsed (s : State) : Nat := min 65535 (s.far.media / wearStep)

/-- Wear events at 8,000 and at 9,500, and the read-only Far tier below 100 of FAR_SPARE (R281). -/
def wearCheck (s : State) : State :=
  let due := if 9500 ≤ lifeUsed s then 2 else if 8000 ≤ lifeUsed s then 1 else 0
  let s1 := { s with far := { s.far with readOnly := s.far.readOnly || decide (s.far.spare < 100) } }
  let one := fun (s : State) => postPf s 0x0022 [(0, 2, lifeUsed s), (2, 2, s.far.spare)]
  let s2 := if s1.far.wearPosted < due then
      (List.range (due - s1.far.wearPosted)).foldl (fun s _ => one s) s1 else s1
  { s2 with far := { s2.far with wearPosted := max s2.far.wearPosted due } }

/-- Media writes of the last 24 h, with one more (R280). -/
def recentMedia (s : State) (n : Nat) : List (Nat × Nat) :=
  (s.far.recent.filter fun e => decide (s.ftime < e.1 + 86400000000000)) ++ [(s.ftime, n)]

/-- `n` units programmed for `host` bytes of requests (R280). The counts of bytes saturate (R13). -/
def mediaWrite (s : State) (n host : Nat) : State :=
  wearCheck { s with far := { s.far with media := satAdd s.far.media (n * 16384), host := satAdd s.far.host host
                                         recent := recentMedia s (n * 16384) } }

/-- Program `n` units from `u` on; a unit with a lasting error is remapped to a spare block (R278). -/
def programUnits (s : State) (u n host : Nat) : State :=
  let hit := fun (e : Nat × Cause) => decide (u ≤ e.1) && decide (e.1 < u + n)
  let worn := (s.badUnits.filter fun e => hit e && e.2 == .memError).length
  mediaWrite { s with badUnits := s.badUnits.filter fun e => !hit e, far := { s.far with spare := s.far.spare - worn } } n host

/-- Data that Uango writes to Far for itself, in whole units (R279, R280). -/
def storeBytes (s : State) (host : Nat) : State := mediaWrite s ((host + 16383) / 16384) host

/-- Uango rewrites one of its Far records; a read-only Far tier keeps the old one (R281). -/
def storeRecord (s : State) (far : FarRecords) (host : Nat) : State :=
  if s.far.readOnly then s else storeBytes { s with far := far } host

/-- Uango erases the salt record of a tenant (R455): media blocks are erased, which a read-only Far tier does too (log entry 184). -/
def eraseSalt (s : State) (t : Nat) : State :=
  if !s.far.salts.contains t then s
  else
    let s1 := { s with far := { s.far with salts := s.far.salts.filter (· != t) } }
    if s.far.readOnly then s1 else storeBytes s1 Config.farRecordBytes

/-- Program one unit. -/
def programUnit (s : State) (u host : Nat) : State := programUnits s u 1 host

/-- Bytes of a 16 KiB unit that a list of pieces covers. -/
def covered (u : Nat) (ps : List (Nat × List Byte)) : Bool :=
  (List.range 16384).all fun i =>
    ps.any fun p => decide (p.1 ≤ Config.farBase + u * 16384 + i) && decide (Config.farBase + u * 16384 + i < p.1 + p.2.length)

/-- One unit of Far writes merged in the controller's queue (R279): whole together, or merged into what the
unit holds. -/
def writeUnit (s : State) (u : Nat) (ps : List (Nat × List Byte)) (out : PortOutcome) : State × Option Cause :=
  let base := Config.farBase + u * 16384
  let host := ps.foldl (fun n p => n + p.2.length) 0
  let apply := fun (s : State) => { s with mem := ps.foldl (fun m p => setBytes m p.1 p.2) s.mem }
  let fv := freeValue s
  if s.far.readOnly then (s, some .memError)
  else if out = .watchdog then
    (if fv.1.getLsbD 0 && (covered u ps || (readCheck s base 16384 .clean).2.isNone) then programUnit (apply fv.2) u host
     else fv.2, some .watchdog)
  else if covered u ps then (programUnit (apply s) u host, none)
  else match readCheck s base 16384 out with
    | (s1, some .integrity) => (s1, some .integrity)
    | (s1, some .watchdog) => (s1, some .watchdog)
    | (s1, some _) => (s1, some .memError)
    | (s1, none) => (programUnit (apply s1) u host, none)

/-- A Far write of Uango or an engine, unit by unit. -/
def farWriteBytes (s : State) (pa : Nat) (bytes : List Byte) (out : PortOutcome) : State × Option Cause :=
  if (frameOf s pa).keyTag = 0xFF then (s, some .integrity)
  else (chunksAt 16384 (bytes.length / 16384 + 2) pa bytes).foldl (fun a c =>
    match writeUnit a.1 (farUnit c.1) [c] out with
    | (s1, e) => (s1, a.2.orElse fun _ => e)) (s, none)

/-- A write of any tier. -/
def anyWrite (s : State) (pa : Nat) (bytes : List Byte) (out : PortOutcome) : State × Option Cause :=
  if (tierOf pa).isNone then (s, some .memError)
  else if tierOf pa = some 2 then farWriteBytes s pa bytes out
  else physWrite s pa bytes out

/-! ## Frame pools and allotments (R263 to R267) -/

/-- Physical frames in use: resident pages, backing copies, page-ins and evictions under way, frames that wait for an
invalidation, Uango's own and those of checkpoints, and retired frames. -/
def leafFrames (e : Leaf) (n : Nat) : List Nat :=
  (if pteRes e.pte && pteTier e.pte != 3 then (List.range n).map (frameNo (pteAddr e.pte) + ·) else []) ++
  (match e.backing with | some b => [b] | none => [])

def jobFrame (w : PageWork) : List Nat :=
  match w with | .queued => [] | .copying f => [f] | .evicting f => [f] | .writing f => [f]

def usedFrames (s : State) : List Nat :=
  s.tenants.flatMap (fun t => t.2.small.flatMap (fun e => leafFrames e.2 1) ++
    t.2.big.flatMap (fun e => leafFrames e.2 512)) ++
  s.jobsPg.flatMap (fun j => jobFrame j.work) ++ s.invals.flatMap (·.frames) ++
  (s.frames.filter fun f => f.2.retired || f.2.keyTag == 0x80 || f.2.keyTag == 0x81 || decide (0x40 ≤ f.2.keyTag.toNat ∧ f.2.keyTag.toNat < 0x80)).map (·.1)

/-- First frame and number of frames of a pool: Near stacks 0 to 7, Mid, Far. -/
def poolOf (tier stack : Nat) : Nat × Nat :=
  match tier with
  | 0 => (stack * 32768, 32768)
  | 1 => (262144, 262144)
  | _ => (524288, 1572864)

/-- The lowest free frame of a pool (log entry 18). -/
def freeFrame (used : List Nat) (tier stack : Nat) : Option Nat :=
  let p := poolOf tier stack
  ((List.range (min p.2 (used.length + 1))).map (p.1 + ·)).find? fun f => !used.contains f

/-- The lowest aligned range of 512 free frames of a pool (R263). -/
def freeRange (used : List Nat) (tier stack : Nat) : Option Nat :=
  let p := poolOf tier stack
  ((List.range (min (p.2 / 512) (used.length + 1))).map (p.1 + 512 * ·)).find? fun f =>
    !used.any fun u => decide (f ≤ u) && decide (u < f + 512)

/-- The leaves of a tenant with their page addresses and sizes in frames. -/
def leavesOf (x : Tenant) : List (Nat × Leaf × Nat) :=
  x.small.map (fun e => (e.1 * Config.page2M, e.2, 1)) ++ x.big.map (fun e => (e.1 * Config.page1G, e.2, 512))

/-- The stack a page of Near lies on (R265). -/
def stackOf (va : Nat) (l : Leaf) (big : Bool) : Nat :=
  if l.place = 0 then va / pageBytes big % 8 else (l.place - 1) % 8

/-- Same pool: tier, and the stack in Near. -/
def samePool (tier stack va : Nat) (l : Leaf) (n : Nat) : Bool :=
  pteTier l.pte == tier && (tier != 0 || stackOf va l (n == 512) == stack)

/-- Frames of the pool that the tenant occupies: resident pages, page-ins and evictions under way. -/
def poolUsed (s : State) (t tier stack : Nat) : Nat :=
  ((leavesOf (tenantOf s t)).filter fun e => pteRes e.2.1.pte && !e.2.1.dist && samePool tier stack e.1 e.2.1 e.2.2).foldl
    (fun n e => n + e.2.2) 0 +
  (s.jobsPg.filter fun j => j.tenant == t && j.work != .queued &&
    (match leafOf s t j.va with | some (l, big) => samePool tier stack j.va l (if big then 512 else 1) | none => false)).length

/-- Frames held back for pinned paged pages that are not resident (R264). -/
def pinnedOut (s : State) (t tier stack skip : Nat) : Nat :=
  ((leavesOf (tenantOf s t)).filter fun e =>
    ptePaged e.2.1.pte && ptePin e.2.1.pte && !pteRes e.2.1.pte && e.1 != skip && samePool tier stack e.1 e.2.1 e.2.2 &&
    !s.jobsPg.any (fun j => j.tenant == t && j.va == e.1 && j.work != .queued)).length

/-- The tenant's share of a pool: an eighth of Near per stack (R264). -/
def poolShare (x : Tenant) (tier : Nat) : Nat :=
  match tier with | 0 => x.nearFrames / 8 | 1 => x.midFrames | _ => x.farUnits

/-- Frames of the allotment not available for paging: fixed pages and pinned paged pages (R264). -/
def heldFrames (x : Tenant) (tier : Nat) : Nat :=
  ((leavesOf x).filter fun e => pteTier e.2.1.pte == tier && !e.2.1.dist && (!ptePaged e.2.1.pte || ptePin e.2.1.pte)).foldl
    (fun n e => n + e.2.2) 0

/-- 2 MiB of Far in use: fixed Far pages and backing copies (R415). -/
def farUsed (x : Tenant) : Nat :=
  (leavesOf x).foldl (fun n e => n + (if pteTier e.2.1.pte = 2 then e.2.2 else 0) + b2n e.2.1.backing.isSome) 0

/-- Frames of a tier a tenant uses (R415 TENANT_QUERY). -/
def tierUsed (s : State) (t tier : Nat) : Nat :=
  match tier with
  | 0 => ((List.range 8).map fun k => poolUsed s t 0 k).foldl (· + ·) 0
  | 1 => poolUsed s t 1 0
  | _ => farUsed (tenantOf s t)

/-- Give a frame to a key; it reads as zero (R418, R458). -/
def giveFrame (s : State) (t f : Nat) : State :=
  { s with frames := put s.frames f { look {} s.frames f with keyTag := BitVec.ofNat 8 t, gen := (tenantOf s t).keys.gen }
           mem := zeroRange s.mem (f * Config.page2M) Config.page2M }

/-- The first Far unit of a frame, which holds 128. -/
def frameUnit (f : Nat) : Nat := farUnit (f * Config.page2M)

/-- Give a frame to a key and zero it (R458): the zeros of a Far frame go to the media as whole writes (R278, R279). -/
def assignFrame (s : State) (t f : Nat) : State :=
  if tierOf (f * Config.page2M) = some 2 then programUnits (giveFrame s t f) (frameUnit f) 128 Config.page2M
  else healRange (giveFrame s t f) (f * Config.page2M) Config.page2M

/-- Free a frame: its key goes, and a recorded Near or Mid frame is retired (R278). -/
def releaseFrame (s : State) (f : Nat) : State :=
  let e := look ({} : Frame) s.frames f
  let gone := e.recorded && decide (f < 524288)
  if gone then { s with frames := put s.frames f { retired := true } } else { s with frames := del s.frames f }

/-! ## Invalidations (R77) -/

/-- Send an invalidation to every core bound to the tenant, the Fold walkers, and the DMA engines that hold a
channel of the tenant. -/
def sendInval (s : State) (t va len pa : Nat) : Nat × State :=
  let cores := (s.cores.filter fun c => c.2.tenant == some t).map (·.1)
  let engines := ((s.dma.filter fun d => d.2.held && d.2.tenant.toNat == t).map fun d => 2000 + d.1 / 8).eraseDups
  let id := s.nextId
  (id, { s with nextId := id + 1
                invals := s.invals ++ [{ id := id, tenant := t, va := va, len := len, pa := pa,
                                         left := cores ++ (List.range 48).map (1000 + ·) ++ engines }] })

end Sys2Proof.Machine
end

