-- ==== Sys2Proof/Machine/MemPort.lean ====
section
/-! DEFINITION. The memory ports and Uango's paging: reads, writes and Far writes (R270, R277, R279), prefetch
fills (R273), page-ins and evictions (R266 to R269). -/

namespace Sys2Proof.Machine
open Sys2Proof

/-! ## Requests at their unit -/

def setReq (s : State) (id : Nat) (st : ReqState) : State :=
  { s with reqs := s.reqs.map fun q => if q.id == id then { q with st := st } else q }

/-- Two requests name a byte in common. -/
def overlaps (a b : List (Nat × Nat)) : Bool :=
  a.any fun x => b.any fun y => decide (x.1 < y.1 + y.2) && decide (y.1 < x.1 + x.2)

/-- The requests of ld, st, vld and vst, which keep program order at one address (R161, R165, R310), and the fills of pf, from
which a later load of the context is served. -/
def inOrder (w : Requester) : Bool :=
  match w with
  | .scalarLoad _ _ _ => true
  | .store => true
  | .vectorLoad _ _ => true
  | .vectorStore _ => true
  | .prefetch _ => true
  | _ => false

/-- An earlier st or vst of the same context to the same address is still on its way, a vst in its queue among them (R161,
R165, R310). -/
def storeAhead (s : State) (r : MemReq) : Bool :=
  inOrder r.who && s.reqs.any fun q => q.core == r.core && q.ctx == r.ctx && q.write && inOrder q.who &&
    (q.st == .waiting || q.st == .held) && decide (q.order < r.order) && overlaps q.segs r.segs

/-! The limits of R272: a port that is full holds a request back until an earlier one has been answered. -/

/-- The port or controller that serves an address: Near stacks 0 to 7, Mid corners 8 to 11, Far 12, local stores 13. -/
def portAt (pa : Nat) : Nat :=
  match tierOf pa with
  | some 0 => nearStack pa
  | some 1 => 8 + midCorner pa
  | some 2 => 12
  | _ => 13

def portOf (r : MemReq) : Nat := portAt (r.segs.headD (0, 0)).1

def portLimit (p : Nat) : Option Nat := if p < 8 then some 2048 else if p < 12 then some 384 else if p = 12 then some 2048 else none

/-- Requests a burst of `n` bytes makes. -/
def tagNeed (far : Bool) (n : Nat) : Nat := if far then (n + 16383) / 16384 else (n + 1023) / 1024

/-- Requests that a burst has outstanding at a port. -/
def burstAt (p : Nat) (b : Burst) : Nat :=
  if (b.st == .reading && b.rport == p) || (b.st == .writing && b.wport == p) then tagNeed (p == 12) b.len else 0

/-- Requests of the DMA engines outstanding at a port. -/
def dmaAt (s : State) (p : Nat) : Nat :=
  s.dma.foldl (fun n d =>
    d.2.late.foldl (fun n e => n + burstAt p e.2.2) (d.2.work.foldl (fun n x => x.bursts.foldl (fun n b => n + burstAt p b) n) n)) 0

/-- A port takes `n` more requests beside those of `l` and of the DMA engines. -/
def portRoom (s : State) (l : List MemReq) (p n : Nat) : Bool :=
  match portLimit p with
  | none => true
  | some m => decide ((l.filter fun q => q.st == .waiting && portOf q == p).length + dmaAt s p + n ≤ m)

/-- The port has accepted the request: fewer than its limit of earlier ones are outstanding there. -/
def portTakes (s : State) (r : MemReq) : Bool := portRoom s (s.reqs.takeWhile fun q => q.id != r.id) (portOf r) 1

/-- Read every run of a request; the first error ends it (R277). -/
def readSegs (s : State) (out : PortOutcome) : List (Nat × Nat) → State × MemAns
  | [] => (s, .ok [])
  | e :: t =>
    match physRead s e.1 e.2 out with
    | (s1, .err c) => (s1, .err c)
    | (s1, .ok b) => match readSegs s1 .clean t with
      | (s2, .ok b2) => (s2, .ok (b ++ b2))
      | (s2, .err c) => (s2, .err c)

/-- A port, a local store or the Far controller serves a read (R277, R309). -/
def execMemoryReadRequest (id : Nat) (out : PortOutcome) (s : State) : Host.Outcome State Fault Refusal :=
  match s.reqs.find? (fun r => r.id == id && !r.write && r.st == .waiting) with
  | none => .next s
  | some r =>
    if storeAhead s r || !portTakes s r then .next s
    else match readSegs s out r.segs with
      | (s1, .ok b) => .next (setReq s1 id (.done b))
      | (s1, .err c) => .next (setReq s1 id (.failed c))

/-- The runs of a write with their bytes. -/
def cutSegs : List (Nat × Nat) → List Byte → List (Nat × List Byte)
  | [], _ => []
  | e :: t, b => (e.1, b.take e.2) :: cutSegs t (b.drop e.2)

def isFar (r : MemReq) : Bool := r.segs.any fun e => tierOf e.1 == some 2

/-- A local store or a Near or Mid port performs a write (R270, R309). -/
def execMemoryWriteRequest (id : Nat) (out : PortOutcome) (s : State) : Host.Outcome State Fault Refusal :=
  match s.reqs.find? (fun r => r.id == id && r.write && r.st == .waiting && !isFar r) with
  | none => .next s
  | some r =>
    if storeAhead s r || !portTakes s r then .next s
    else
      let a := (cutSegs r.segs r.wdata).foldl (fun (a : State × Option Cause) p =>
        match physWrite a.1 p.1 p.2 out with
        | (s1, e) => (s1, a.2.orElse fun _ => e)) (s, none)
      match a with
      | (s1, none) => .next (setReq s1 id (.done []))
      | (s1, some c) => .next (setReq s1 id (.failed c))

/-- The units of Far that runs of bytes reach. -/
def unitsOf (l : List (Nat × Nat)) : List Nat :=
  (l.flatMap fun e => (List.range ((e.1 + e.2 - 1) / 16384 - e.1 / 16384 + 1)).map (farUnit e.1 + ·)).eraseDups

/-- The part of written bytes that lies in a unit. -/
def inUnit (u : Nat) (p : Nat × List Byte) : Option (Nat × List Byte) :=
  let lo := max p.1 (Config.farBase + u * 16384)
  let hi := min (p.1 + p.2.length) (Config.farBase + (u + 1) * 16384)
  if lo < hi then some (lo, (p.2.drop (lo - p.1)).take (hi - lo)) else none

/-- The writes to units `us` that stand in the controller's queue, in order of arrival; one behind an earlier store of its
context that is not among them stays (R161, R279). -/
def farGroup (s : State) (us : List Nat) : List MemReq :=
  s.reqs.foldl (fun g q =>
    if q.write && q.st == .waiting && isFar q && (unitsOf q.segs).all us.contains &&
        !storeAhead { s with reqs := s.reqs.filter fun o => !g.any (·.id == o.id) } q then g ++ [q] else g) []

/-- Program the units in turn with what the group writes to them: the units that failed, with their causes. -/
def farParts (ps : List (Nat × List Byte)) (out : PortOutcome) : List Nat → State → State × List (Nat × Cause)
  | [], s => (s, [])
  | u :: us, s =>
    match writeUnit s u (ps.filterMap (inUnit u)) out with
    | (s1, none) => farParts ps .clean us s1
    | (s1, some c) => match farParts ps .clean us s1 with
      | (s2, l) => (s2, (u, c) :: l)

/-- The Far controller programs the units of a write: the writes to them that stand in its queue are merged, in order (R279). -/
def execFarWrite (id : Nat) (out : PortOutcome) (s : State) : Host.Outcome State Fault Refusal :=
  match s.reqs.find? (fun r => r.id == id && r.write && r.st == .waiting && isFar r) with
  | none => .next s
  | some r =>
    if storeAhead s r || s.power.farWait || !portTakes s r then .next s
    else
      let us := unitsOf r.segs
      let group := farGroup s us
      let fin := fun (s : State) (st : MemReq → ReqState) =>
        { s with reqs := s.reqs.map fun q => if group.any (·.id == q.id) then { q with st := st q } else q }
      if out = .watchdog then .next (setReq s id (.failed .watchdog))
      else if us.any fun u => (frameOf s (Config.farBase + u * 16384)).keyTag = 0xFF then .next (fin s fun _ => .failed .integrity)
      else match farParts (group.flatMap fun q => cutSegs q.segs q.wdata) out us s with
        | (s1, bad) => .next (fin s1 fun q => match bad.find? fun e => (unitsOf q.segs).contains e.1 with
          | some e => .failed e.2
          | none => .done [])

/-! ## Prefetch fills (R273, R274, R276) -/

/-- Give a held request of the core its bytes if the line now has them; one whose bytes will not come goes to
memory (log entry 21). -/
def pfServeHeld (c blk : Nat) (l : PfLine) (q : MemReq) : MemReq :=
  if q.core == c && !q.write && !q.tagged && q.st == .held && q.tenant == l.tenant &&
      q.segs.all (fun e => e.1 / 1024 == blk) then
    let m := BitVec.ofNat 16 (q.segs.foldl (fun m e => m ||| pfMask e.1 e.2) 0)
    if m &&& l.valid = m ∧ m &&& l.awaitMask = 0 then
      { q with st := .done (q.segs.flatMap fun e => bytesAt l.data (e.1 % 1024) e.2) }
    else if m &&& l.awaitMask = 0 then { q with st := .waiting }
    else q
  else q

/-- The bytes of a line's data with those 64-byte parts of `b`, which begins at `off`, that a mask names. -/
def fillData (m : Half) (off : Nat) (b : List Byte) (data : List Host.Cell) : List Host.Cell :=
  (List.range 16).foldl (fun d i =>
    if m.getLsbD i ∧ off ≤ 64 * i then setBytes d (64 * i) ((b.drop (64 * i - off)).take 64) else d) data

/-- What request `id` still brings to the line: none where the line does not await it. -/
def awaited (l : PfLine) (id : Nat) : Option Half := (l.await.find? fun e => e.1 == id).map (·.2)

/-- A line gets the bytes of one of its requests, but for those a newer request fetches; a fill that failed leaves the bytes
invalid (R273). -/
def fillLine (l : PfLine) (id pa : Nat) (bytes : Option (List Byte)) : PfLine :=
  let m := (awaited l id).getD 0
  let l1 := { l with awaitMask := l.awaitMask &&& ~~~m, await := l.await.filter fun e => e.1 != id }
  match bytes with
  | some b => { l1 with valid := l.valid ||| m, data := fillData m (pa % 1024) b l.data }
  | none => l1

/-- The data of a prefetch reaches its line; the tag is free, and a line whose line was invalidated meanwhile
discards it (R273, R275). -/
def execPrefetchFill (id : Nat) (s : State) : Host.Outcome State Fault Refusal :=
  match s.reqs.find? (fun r => r.id == id && isPrefetch r.who) with
  | none => .next s
  | some r =>
    let go := fun (bytes : Option (List Byte)) =>
      let s1 := removeReq (freeTag s r) id
      let k := coreOf s1 r.core
      let e := r.segs.headD (0, 0)
      match k.pf.find? (fun l => (awaited l id).isSome) with
      | none => { s1 with reqs := s1.reqs.map (pfServeHeld r.core (e.1 / 1024) { blk := e.1 / 1024, tenant := r.tenant }) }
      | some l =>
        let l1 := fillLine l id e.1 bytes
        let k1 := { k with pf := k.pf.map fun o => if (awaited o id).isSome then l1 else o }
        let k2 := if bytes.isSome then coreBump k1 0x15A 1 else k1
        let s2 := setCore s1 r.core k2
        { s2 with reqs := s2.reqs.map (pfServeHeld r.core l.blk l1) }
    match r.st with
    | .done b => .next (go (some b))
    | .failed _ => .next (go none)
    | _ => .next s

/-! ## Page-ins (R266) -/

def jobAt (s : State) (t page : Nat) : Option PageJob :=
  s.jobsPg.find? fun j => j.tenant == t && j.va / Config.page2M == page

def setJob (s : State) (t page : Nat) (w : PageWork) (inv : Nat) : State :=
  { s with jobsPg := s.jobsPg.map fun j =>
      if j.tenant == t && j.va / Config.page2M == page then { j with work := w, invId := inv } else j }

def dropJob (s : State) (t page : Nat) : State :=
  { s with jobsPg := s.jobsPg.filter fun j => !(j.tenant == t && j.va / Config.page2M == page) }

def copyingJobs (s : State) : List PageJob :=
  s.jobsPg.filter fun j => match j.work with | .copying _ => true | _ => false

/-- A free frame of the allotment for a page of the tenant (R264, R266). -/
def frameFor (s : State) (t va : Nat) (l : Leaf) : Option Nat :=
  let tier := pteTier l.pte
  let st := stackOf va l false
  if poolUsed s t tier st + pinnedOut s t tier st (va / Config.page2M * Config.page2M) < poolShare (tenantOf s t) tier then
    freeFrame (usedFrames s) tier st
  else none

/-- Start one waiting page-in if the limits and a frame allow it: 64 at once per module, 8 per tenant (R266). -/
def startPageIn (s : State) (j : PageJob) : State :=
  if j.work != .queued || decide (64 ≤ (copyingJobs s).length) ||
      decide (8 ≤ ((copyingJobs s).filter fun o => o.tenant == j.tenant).length) then s
  else match leafOf s j.tenant j.va with
    | none => s
    | some (l, _) => match frameFor s j.tenant j.va l with
      | none => s
      | some f => assignFrame (setJob s j.tenant (j.va / Config.page2M) (.copying f) 0) j.tenant f

/-- Start what can start, in order of first fault. -/
def pumpPages (s : State) : State := s.jobsPg.foldl startPageIn s

/-- The leaf after an abandoned eviction (R268). -/
def restoreLeaf (l : Leaf) (f : Nat) : Leaf :=
  { l with pte := setField (setField (setField (setPteAddr l.pte (f * Config.page2M)) 5 1 1) 9 1 1) 10 1 1 }

/-- Unit `i` of a frame is written to its backing copy, if it reads and Far takes writes (R268, R279, R281). -/
def writeBack (f b : Nat) (s : State) (i : Nat) : State :=
  if s.far.readOnly || (stateError s (f * Config.page2M + 16384 * i) 16384).isSome then s
  else programUnit { s with mem := copyRange s.mem (f * Config.page2M + 16384 * i) (b * Config.page2M + 16384 * i) 16384 }
    (frameUnit b + i) 16384

/-- The writes of an abandoned write-back that had been issued complete, and their media wear counts: which of the 128 they
are is open, so free bits say (R268). -/
def issuedWrites (s : State) (f b : Nat) : State :=
  ((List.range 128).filter (freeBits s 128).1).foldl (writeBack f b) (freeBits s 128).2

def abandonEviction (s : State) (t va f : Nat) : State :=
  match leafOf s t va with
  | none => dropJob s t (va / Config.page2M)
  | some (l, big) =>
    let s1 := setLeaf (dropJob s t (va / Config.page2M)) t va big (restoreLeaf l f)
    pgBump { s1 with invals := s1.invals.filter fun v => !(v.tenant == t && v.va == va / Config.page2M * Config.page2M) } t 4 1

/-- A page that is not resident was touched: an eviction of it that has not ended is abandoned (R268), else its
page-in starts or is joined (R266). -/
def execPageFault (tenant : Nat) (va : Word64) (s : State) : Host.Outcome State Fault Refusal :=
  let page := va.toNat / Config.page2M
  match leafOf s tenant va.toNat with
  | none => .next s
  | some (l, big) =>
    if uangoAway s || big || !pteV l.pte || pteRes l.pte || pteBroken l.pte != 0 || !ptePaged l.pte then .next s
    else match jobAt s tenant page with
      | some j => match j.work with
        | .evicting f => .next (abandonEviction s tenant va.toNat f)
        | .writing f =>
          .next (abandonEviction (match l.backing with | some b => issuedWrites s f b | none => s) tenant va.toNat f)
        | _ => .next s
      | none =>
        .next (pumpPages { s with jobsPg := s.jobsPg ++
          [{ tenant := tenant, va := page * Config.page2M, work := .queued, since := s.ftime }] })

/-- A failed unit of a backing copy (R269). -/
def backingError (s : State) (b : Nat) : Option Cause :=
  ((List.range 128).map fun i => (b * Config.page2M - Config.farBase) / 16384 + i).findSome? fun u => tabFind s.badUnits u

/-- A page-in fails: BROKEN, the frame is free, PAGE_LOST, and every waiting instruction faults (R269). -/
def losePage (s : State) (t va : Nat) (c : Cause) : State :=
  match leafOf s t va with
  | none => s
  | some (l, big) =>
    let code := if c = .integrity then 2 else 1
    let cc := if c = .integrity then Cause.integrity else Cause.memError
    let s1 := setLeaf s t va big { l with pte := setField (setField l.pte 52 2 code) 5 1 0 }
    let s2 := postEvent s1 t 0x0020 [(0, 8, va / Config.page2M * Config.page2M), (8, 1, causeNo cc)]
    answerAllPage s2 t (va / Config.page2M)

/-- A read of the backing copy in frame `b` met an error its units did not hold: which of the 128 fails is open, so a free
value says, and the unit fails from now on (R277, R278). -/
def farReadError (s : State) (b : Nat) (c : Cause) : State :=
  if (backingError s b).isSome then s
  else
    let pa := b * Config.page2M + 16384 * ((Config.freeWord s.free).toNat % 128)
    meetError { s with free := s.free + 1 } pa c

/-- The last write response of a page-in: the leaf becomes resident (R266 steps 2 and 3). `err` is how a read of
the backing copy ended, after its second attempt where the first ended with WATCHDOG (R269). -/
def pageInDone (tenant : Nat) (va : Word64) (err : Option Cause) (s : State) : State :=
  let page := va.toNat / Config.page2M
  match jobAt s tenant page, leafOf s tenant va.toNat with
  | some j, some (l, big) =>
    match j.work with
    | .copying f =>
      if (look ({} : Frame) s.frames f).rot || uangoAway s then s
      else
        let bad := match l.backing with
          | some b => if l.backWritten then err.orElse fun _ => backingError s b else none
          | none => none
        let s0 := dropJob s tenant page
        match bad with
        | some c => pumpPages (losePage (releaseFrame (farReadError s0 (l.backing.getD 0) c) f) tenant va.toNat c)
        | none =>
          let mem := match l.backing with
            | some b => if l.backWritten then copyRange s0.mem (b * Config.page2M) (f * Config.page2M) Config.page2M
                        else zeroRange s0.mem (f * Config.page2M) Config.page2M
            | none => zeroRange s0.mem (f * Config.page2M) Config.page2M
          let p := setField (setField (setField (setPteAddr l.pte (f * Config.page2M)) 5 1 1) 9 1 0) 10 1 0
          let s1 := setLeaf { s0 with mem := mem, nextId := s0.nextId + 1 } tenant va.toNat big
            { l with pte := p, inAge := s0.nextId }
          pumpPages (pgBump s1 tenant 1 1)
    | _ => s
  | _, _ => s

/-! ## Evictions (R267) -/

/-- The victim: the oldest page-in among unpinned resident paged pages whose ACC is clear, else the oldest of
all. -/
def victim (s : State) (t tier stack : Nat) : Option (Nat × Leaf) :=
  let c := (tenantOf s t).small.filter fun e =>
    ptePaged e.2.pte && pteRes e.2.pte && !ptePin e.2.pte && samePool tier stack (e.1 * Config.page2M) e.2 1
  let clear := c.filter fun e => !pteAcc e.2.pte
  let pool := if clear.isEmpty then c else clear
  (pool.foldl (fun (b : Option (Nat × Leaf)) e => match b with
    | none => some e
    | some o => if e.2.inAge < o.2.inAge then some e else b) none).map fun e => (e.1 * Config.page2M, e.2)

/-- Uango takes a page out to make room for a waiting page-in for which no frame is free: RES is cleared and the invalidation
goes out (R266 step 1, R267 step 1). -/
def execEvictionStart (tenant : Nat) (mid : Bool) (stack : Nat) (s : State) : Host.Outcome State Fault Refusal :=
  let tier := b2n mid
  let st := if mid then 0 else stack % 8
  let wants := s.jobsPg.filter fun j => j.tenant == tenant && j.work == .queued &&
    (match leafOf s tenant j.va with
      | some (l, _) => samePool tier st j.va l 1 && (frameFor s tenant j.va l).isNone
      | none => false)
  let going := s.jobsPg.filter fun j => j.tenant == tenant &&
    (match j.work with | .evicting _ => true | .writing _ => true | _ => false) &&
    (match leafOf s tenant j.va with | some (l, _) => samePool tier st j.va l 1 | none => false)
  if wants.length ≤ going.length then .next s
  else match victim s tenant tier st with
    | none => .next s
    | some (va, l) =>
      let f := frameNo (pteAddr l.pte)
      if (look ({} : Frame) s.frames f).rot then .next s
      else
        let s1 := setLeaf s tenant va false { l with pte := setField l.pte 5 1 0 }
        let r := sendInval s1 tenant va Config.page2M (f * Config.page2M)
        let s2 := { r.2 with jobsPg := r.2.jobsPg ++
          [{ tenant := tenant, va := va, work := .evicting f, invId := r.1, since := s.ftime }] }
        .next (setTenant s2 tenant { tenantOf s2 tenant with evicted := true })

/-- The frame of an evicted page becomes free (R267 step 3). -/
def endEviction (s : State) (t page f i : Nat) : State :=
  pumpPages (pgBump (releaseFrame (dropJob s t page) f) t i 1)

/-- Every acknowledgement has arrived: a dirty page is written back, a clean one leaves its backing copy (R267 step
2). -/
def execEvictionAcksReceived (tenant : Nat) (va : Word64) (s : State) : Host.Outcome State Fault Refusal :=
  let page := va.toNat / Config.page2M
  match jobAt s tenant page, leafOf s tenant va.toNat with
  | some j, some (l, _) =>
    match j.work with
    | .evicting f =>
      if s.invals.any (fun v => v.id == j.invId) then .next s
      else if pteDirty l.pte then .next (setJob s tenant page (.writing f) 0)
      else .next (endEviction s tenant page f 3)
    | _ => .next s
  | _, _ => .next s

/-- A read of frame `f`, which is written back, met an error its sectors did not hold: which of the 4,096 fails is open, so a free
value says, and it fails from now on (R277, R278). -/
def frameReadError (s : State) (f : Nat) (c : Cause) : State :=
  if (stateError s (f * Config.page2M) Config.page2M).isSome then s
  else meetError { s with free := s.free + 1 } (f * Config.page2M + 512 * ((Config.freeWord s.free).toNat % 4096)) c

/-- Every write response of the write-back has arrived (R267 step 2). A write-back that fails, or whose frame cannot be read
(R277), is abandoned: the page stays on its frame (log entry 19). -/
def execEvictionWritebackDone (tenant : Nat) (va : Word64) (err : Option Cause) (s : State) :
    Host.Outcome State Fault Refusal :=
  let page := va.toNat / Config.page2M
  match jobAt s tenant page, leafOf s tenant va.toNat with
  | some j, some (l, big) =>
    match j.work, l.backing with
    | .writing f, some b =>
      if s.power.farWait then .next s
      else if err.isSome || s.far.readOnly || (stateError s (f * Config.page2M) Config.page2M).isSome then
        .next (abandonEviction (issuedWrites (match err with | some c => frameReadError s f c | none => s) f b) tenant va.toNat f)
      else
        let s1 := { s with mem := copyRange s.mem (f * Config.page2M) (b * Config.page2M) Config.page2M }
        let s2 := programUnits s1 (frameUnit b) 128 Config.page2M
        let s3 := setLeaf s2 tenant va.toNat big
          { l with backWritten := true, written := true, pte := setField l.pte 10 1 0 }
        .next (endEviction s3 tenant page f 2)
    | _, _ => .next s
  | _, _ => .next s

/-- Clear ACC on the paged pages of one tenant and invalidate those entries. -/
def clearAcc (s : State) (t : Nat) : State :=
  let hot := (tenantOf s t).small.filter fun e => ptePaged e.2.pte && pteAcc e.2.pte
  let s1 := hot.foldl (fun s e =>
    (sendInval (setLeaf s t (e.1 * Config.page2M) false { e.2 with pte := setField e.2.pte 9 1 0 })
      t (e.1 * Config.page2M) Config.page2M (pteAddr e.2.pte)).2) s
  setTenant s1 t { tenantOf s1 t with evicted := false }

/-- Every 10 ms, ACC is cleared on the paged pages of the tenants that evicted in the window (R267). -/
def execAccClearTick (s : State) : Host.Outcome State Fault Refusal :=
  .next (((s.tenants.filter fun t => t.2.evicted).map (·.1)).foldl clearAcc s)

/-- The Far controller relocates: media bytes, and a spare block where one is used (R280, R281, log entry 20). -/
def execFarRelocation (bytes : Nat) (spareUsed : Bool) (s : State) : Host.Outcome State Fault Refusal :=
  .next (wearCheck { s with far := { s.far with media := satAdd s.far.media bytes, recent := recentMedia s bytes,
                                                spare := s.far.spare - b2n spareUsed } })

end Sys2Proof.Machine
end

