-- ==== Sys2Proof/Machine/Mailbox.lean ====
section
/-! DEFINITION. How a mailbox command is read, checked and answered (R402, R405 to R409, R413, R426), with the
specification of every opcode of R414 to R422. -/

namespace Sys2Proof.Machine
open Sys2Proof

/-- What the command tables say of one opcode: payload form and size, the named body fields with their offsets and
sizes, and who may send it. -/
structure CmdSpec where
  op : Nat
  data : Bool := false                    -- D: INDIRECT, data in host memory
  size : Nat := 0                         -- PAYLOAD_LENGTH of an inline command
  fields : List (Nat × Nat) := []         -- @offset, size of each named field
  pfAny : Bool := false                   -- the PF may name any tenant
  pfOnly : Bool := false
  quiet : Bool := false                   -- a session or query command (R407 step 7)
  deriving DecidableEq, Repr

/-- Field @off:size of a body. -/
def fld (b : BitVec 384) (off size : Nat) : Nat := field b (8 * off) (8 * size)

/-- The bits of the named fields, HOST_PTR of a D command included. -/
def namedMask (sp : CmdSpec) : BitVec 384 :=
  ((if sp.data then (0, 8) :: sp.fields else sp.fields)).foldl
    (fun m f => m ||| BitVec.ofNat 384 ((2 ^ (8 * f.2) - 1) * 2 ^ (8 * f.1))) 0

/-- The tenant a command acts on (R413). -/
def targetOf (e : Entry) : Nat := if e.tenantTag = 0xFF then e.fn else e.tenantTag.toNat

/-- What a command's own part decides. -/
inductive Res where
  | done (st : Half) (len : Nat) (body : BitVec 384) (data : Option (List Byte))   -- its effect is whole
  | wait (obj : Nat)                                                              -- P: its effect goes on
  deriving DecidableEq, Repr

def resOk : Res := .done stOK 0 0 none
def resFail (st : Half) : Res := .done st 0 0 none
def resBody (len : Nat) (fields : List (Nat × Nat × Nat)) : Res := .done stOK len (bodyOf fields) none

/-- A response to the command of an entry under the session's version (R405). -/
def responseOf (f : Func) (op : Nat) (seq : Half) (st : Half) (len : Nat) (body : BitVec 384)
    (data : Option (List Byte)) : Resp :=
  { opcode := BitVec.ofNat 16 op, seq := seq, indirect := data.isSome, verMajor := f.sMajor, verMinor := f.sMinor,
    length := (match data with | some d => d.length | none => len), status := st, body := body,
    data := data.getD [] }

def respond (s : State) (fn op : Nat) (seq : Half) (st : Half) (len : Nat) (body : BitVec 384)
    (data : Option (List Byte)) : State :=
  onFunc s fn fun f => sendResp f (responseOf f op seq st len body data)

/-- Uango can read the entry at CMD_CI: the rings are in use, an entry has been handed over, the function is past
its boot and not in recovery, no read of an entry has failed, and an ORDERED entry has no earlier command open (R402, R405,
R426). -/
def slotReady (s : State) (e : Entry) : Bool :=
  let f := funcOf s e.fn
  fnPresent s e.fn && f.enable && !f.stopped && f.cmdPi != f.cmdCi && f.fstate != .booting && f.fstate != .recovery &&
  !(e.ordered && !(f.owed.isEmpty && f.rspWait.isEmpty))

/-- Firmware switches over or Uango restarts (R407). -/
def switching (s : State) (f : Func) : Bool := f.fstate == .updating || s.drover.switching || s.drover.restarting

/-- The SEQ of a command of the function that has no final response yet (R407 step 4). -/
def seqOpen (f : Func) (seq : Half) : Bool :=
  f.owed.any (·.seq == seq) || f.rspWait.any fun r => r.seq == seq && r.status != stPending

/-- Steps 1 to 4 of R407. `hello` marks HELLO; `lenBad` is the command's own length rule. -/
def headerCheck (f : Func) (e : Entry) (hello : Bool) (sp : Option CmdSpec) (lenBad : Bool) : Option Half :=
  if hello && e.verMajor == 0 then some stBadVersion
  else if !hello && (f.sMajor == 0 || e.verMajor != f.sMajor || decide (f.sMinor.toNat < e.verMinor.toNat)) then
    some stBadVersion
  else match sp with
  | none => some stBadOpcode
  | some p =>
    if e.indirect != p.data then some stBadLength
    else if (if p.data then e.payloadLength == 0 || decide (1048576 < e.payloadLength.toNat)
             else e.payloadLength.toNat != p.size) then some stBadLength
    else if lenBad then some stBadLength
    else if e.rsv13 != 0 || e.rsv24 != 0 || (e.reset && !hello) || (hello && f.sMajor != 0 && !e.reset) ||
        (decide (64 ≤ e.tenantTag.toNat) && e.tenantTag != 0xFF) || seqOpen f e.seq then some stBadField
    else none

/-- Steps 5 to 7 of R407; a lost module then answers ABORTED outside groups 0x00 and 0x07 to 0x09 (R426, log
entry 17). -/
def bodyCheck (s : State) (e : Entry) (p : CmdSpec) (fieldBad : Bool) : Option Half :=
  let t := targetOf e
  let ending := fun (n : Nat) => (funcOf s n).fstate == .ending || (funcOf s n).fstate == .scrub
  if e.body &&& ~~~(namedMask p) != 0 || (p.data && fld e.body 0 8 % 64 != 0) || fieldBad then some stBadField
  else if e.fn != 0 && (t != e.fn || p.pfOnly) then some stDenied
  else if e.fn == 0 && t != 0 && !(p.pfAny && fnKnown s t) then some stDenied
  else if (ending e.fn || ending t) && !p.quiet then some stRetryLater
  else if (funcOf s e.fn).fstate == .lost && !(p.op / 256 == 0 || decide (7 ≤ p.op / 256)) then some stAborted
  else none

/-- Commands of the function that stand PENDING (R408). -/
def pendingCount (f : Func) : Nat := f.owed.length

/-- An INTERNAL answer is counted in telemetry (R409, log entry 195). -/
def countFailed (s : State) (st : Half) : State :=
  if st = stInternal then { s with telem := { s.telem with failed := s.telem.failed + 1 } } else s

/-- Answer a command whose own part has run: at once, or PENDING first. -/
def answerRes (e : Entry) (op : Nat) (late : Bool) (r : Res) (s : State) : State :=
  match r with
  | .wait obj =>
    let s1 := respond s e.fn op e.seq stPending 0 0 none
    onFunc s1 e.fn fun f => { f with owed := f.owed ++ [{ opcode := BitVec.ofNat 16 op, seq := e.seq, obj := obj }] }
  | .done st len body data =>
    -- a read whose data exceeds the buffer writes nothing (R406)
    let tooLong := match data with | some d => decide (e.payloadLength.toNat < d.length) | none => false
    let st1 := if tooLong then stBadLength else st
    let len1 := if tooLong then 4 else len
    let body1 := if tooLong then bodyOf [(0, 4, (data.getD []).length)] else body
    let data1 := if tooLong then none else data
    if late then
      let s1 := respond s e.fn op e.seq stPending 0 0 none
      onFunc (countFailed s1 st1) e.fn fun f => { f with owed := f.owed ++
        [{ opcode := BitVec.ofNat 16 op, seq := e.seq, status := some st1, length := len1, body := body1, data := data1 }] }
    else respond (countFailed s st1) e.fn op e.seq st1 len1 body1 data1

/-- How a command may answer: at once; P, as the entry says; P, its effect going on. -/
inductive Pend where
  | never | may | long
  deriving DecidableEq, Repr

/-- The read of the entry at CMD_CI fails in host memory: consumption stops at that entry (R402). -/
def readFailed (s : State) (e : Entry) : State := onFunc s e.fn fun f => ringError { f with stopped := true } 3

/-- Read one entry, check it in the order of R407, and run the command's own part. A command that Uango cannot read
changes nothing (log entry 11). `stateBad` is a field rule of the command that looks at what the tenant holds: it is tested once
the command is known to be permitted, before the resource checks of step 8 (log entry 194). -/
def runCmd (p : CmdSpec) (pend : Pend) (lenBad fieldBad stateBad : Bool) (run : Nat → State → Res × State) (e : Entry)
    (s : State) : State :=
  if !slotReady s e then s
  else if e.readFails then readFailed s e
  else
    let f := funcOf s e.fn
    let s1 := setFunc s e.fn { f with cmdCi := f.cmdCi + 1 }
    let refuse := fun (st : Half) => respond s1 e.fn p.op e.seq st 0 0 none
    if switching s f then refuse stRetryLater
    else match headerCheck f e (p.op == 0) (some p) lenBad with
    | some st => refuse st
    | none => match bodyCheck s e p fieldBad with
      | some st => refuse st
      | none =>
        if stateBad then refuse stBadField
        else
        let late := match pend with | .never => false | .may => e.late | .long => false
        if (late || pend == .long) && decide (64 ≤ pendingCount f) then refuse stRetryLater
        else
          let r := run (targetOf e) s1
          answerRes e p.op late r.1 r.2

def cmdIn (p : CmdSpec) (pend : Pend) (lenBad fieldBad stateBad : Bool) (run : Nat → State → Res × State) (e : Entry)
    (s : State) : Host.Outcome State Fault Refusal :=
  .next (runCmd p pend lenBad fieldBad stateBad run e s)

/-- A command without a field rule that looks at the state. -/
def cmd (p : CmdSpec) (pend : Pend) (lenBad fieldBad : Bool) (run : Nat → State → Res × State) (e : Entry)
    (s : State) : Host.Outcome State Fault Refusal :=
  cmdIn p pend lenBad fieldBad false run e s

/-- The work of owed commands is whole: their final responses may be written (R408). -/
def completeObj (s : State) (op obj : Nat) (st : Half) (len : Nat) (body : BitVec 384) : State :=
  { s with funcs := s.funcs.map fun f => (f.1, { f.2 with owed := f.2.owed.map fun c =>
      if c.opcode.toNat == op && c.obj == obj && c.status.isNone then
        { c with status := some st, length := len, body := body } else c }) }

/-- Every command of a function that is still open ends ABORTED, but for one opcode (R427). -/
def abortOwed (s : State) (fn keepOp : Nat) : State :=
  onFunc s fn fun f => { f with owed := f.owed.map fun c =>
    if c.opcode.toNat == keepOp then c else { c with status := some stAborted, length := 0, body := 0, data := none } }

/-! ## The switch-over of firmware (R427, R451) -/

/-- A function shows UPDATING, and later returns to the state it had. -/
def toUpdating (f : Func) : Func :=
  if f.fstate == .updating || f.fstate == .recovery then { f with fstate := .updating }
  else { f with prior := f.fstate, fstate := .updating }

/-- Every function whose tenant exists, reached or not. -/
def onPresent (g : Func → Func) (s : State) : State :=
  ((List.range 64).filter (fnKnown s)).foldl (fun s fn => onFunc s fn g) s

/-- FW_ACTIVATE's switch-over begins once every outstanding command of every function has its final response. -/
def settleSwitch (s : State) : State :=
  let quiet := s.funcs.all fun f => f.2.owed.all (fun c => c.opcode == 0x0901 && c.status.isNone) && f.2.rspWait.isEmpty
  if s.drover.switching && quiet && (funcOf s 0).fstate != .updating then onPresent toUpdating s else s

/-- A command that answered PENDING gets its one final response (R408). -/
def execFinalResponse (fn : Nat) (seq : Half) (s : State) : Host.Outcome State Fault Refusal :=
  match (funcOf s fn).owed.find? (fun c => c.seq == seq && c.status.isSome) with
  | none => .next s
  | some c =>
    let s1 := onFunc s fn fun f => { f with owed := f.owed.erase c }
    .next (settleSwitch (respond s1 fn c.opcode.toNat seq (c.status.getD 0) c.length c.body c.data))

/-! ## The opcodes of major version 1 (R414 to R422) -/

def spHello : CmdSpec := { op := 0x0000, size := 8, fields := [(0, 8)], quiet := true }
def spBye : CmdSpec := { op := 0x0001, quiet := true }
def spPing : CmdSpec := { op := 0x0002, size := 8, fields := [(0, 8)], quiet := true }
def spTenantConfig : CmdSpec :=
  { op := 0x0100, size := 18, fields := [(0, 4), (4, 4), (8, 4), (12, 2), (14, 2), (16, 2)], pfAny := true, pfOnly := true }
def spTenantQuery : CmdSpec := { op := 0x0101, pfAny := true, quiet := true }
def spTenantEnd : CmdSpec := { op := 0x0102, pfAny := true }
def spCoreBind : CmdSpec := { op := 0x0110, size := 44, fields := [(0, 44)] }
def spCoreUnbind : CmdSpec := { op := 0x0111, size := 44, fields := [(0, 44)] }
def spCtxOpen : CmdSpec := { op := 0x0120, size := 3, fields := [(0, 2), (2, 1)] }
def spCtxCtrl : CmdSpec := { op := 0x0121, size := 3, fields := [(0, 2), (2, 1)] }
def spCtxQuery : CmdSpec := { op := 0x0122, size := 2, fields := [(0, 2)], pfAny := true, quiet := true }
def spCtxSignal : CmdSpec := { op := 0x0123, size := 4, fields := [(0, 2), (2, 1), (3, 1)] }
def spMemMap : CmdSpec :=
  { op := 0x0200, size := 22, fields := [(0, 8), (8, 8), (16, 1), (17, 1), (18, 1), (19, 1), (20, 2)] }
def spMemUnmap : CmdSpec := { op := 0x0201, size := 16, fields := [(0, 8), (8, 8)] }
def spMemPin : CmdSpec := { op := 0x0202, size := 17, fields := [(0, 8), (8, 8), (16, 1)] }
def spMemWrite : CmdSpec := { op := 0x0203, data := true, fields := [(8, 8)] }
def spMemRead : CmdSpec := { op := 0x0204, data := true, fields := [(8, 8)] }
def spApertureMap : CmdSpec := { op := 0x0205, size := 24, fields := [(0, 8), (8, 8), (16, 8)] }
def spApertureUnmap : CmdSpec := { op := 0x0206, size := 16, fields := [(0, 8), (8, 8)] }
def spMemQuery : CmdSpec := { op := 0x0207, size := 8, fields := [(0, 8)], quiet := true }
def spDistMap : CmdSpec := { op := 0x0208, size := 8, fields := [(0, 8)] }
def spProgLoad : CmdSpec := { op := 0x0300, data := true, fields := [(8, 4), (12, 1), (16, 4)] }
def spProgUnload : CmdSpec := { op := 0x0301, size := 4, fields := [(0, 4)] }
def spWeightLoad : CmdSpec := { op := 0x0302, data := true, fields := [(8, 4), (12, 1), (16, 8), (24, 8)] }
def spTableCreate : CmdSpec := { op := 0x0310, data := true }
def spTableInstall : CmdSpec := { op := 0x0311, size := 16, fields := [(0, 2), (2, 2), (4, 2), (8, 8)] }
def spTableCommit : CmdSpec := { op := 0x0312, size := 16, fields := [(0, 2), (2, 2), (8, 8)] }
def spTableDestroy : CmdSpec := { op := 0x0313, size := 2, fields := [(0, 2)] }
def spJobCreate : CmdSpec := { op := 0x0400, data := true, fields := [(8, 8), (16, 8), (24, 8), (32, 4)] }
def spJobScale : CmdSpec := { op := 0x0401, data := true, fields := [(8, 2), (10, 1), (11, 1)] }
def spJobOpt : CmdSpec := { op := 0x0402, data := true, fields := [(8, 2), (12, 4), (16, 4)] }
def spJobMask : CmdSpec := { op := 0x0403, data := true, fields := [(8, 2), (12, 4)] }
def spJobStart : CmdSpec := { op := 0x0404, size := 16, fields := [(0, 2), (8, 8)] }
def spJobStop : CmdSpec := { op := 0x0405, size := 3, fields := [(0, 2), (2, 1)] }
def spJobQuery : CmdSpec := { op := 0x0406, size := 2, fields := [(0, 2)], quiet := true }
def spJobDestroy : CmdSpec := { op := 0x0407, size := 2, fields := [(0, 2)] }
def spTaskSubmit : CmdSpec :=
  { op := 0x0410, size := 48, fields := [(0, 2), (8, 8), (16, 8), (24, 8), (32, 8), (40, 8)] }
def spChanSetup : CmdSpec :=
  { op := 0x0500, size := 18
    fields := [(0, 1), (1, 1), (2, 1), (3, 1), (4, 2), (6, 1), (7, 1), (8, 4), (12, 4), (16, 2)] }
def spChanGroup : CmdSpec :=
  { op := 0x0501, data := true
    fields := [(8, 1), (9, 1), (10, 1), (11, 1), (12, 1), (16, 4), (20, 4), (24, 2), (26, 2)] }
def spChanTeardown : CmdSpec := { op := 0x0502, size := 2, fields := [(0, 2)] }
def spChanQuery : CmdSpec := { op := 0x0503, size := 2, fields := [(0, 2)], quiet := true }
def spDmaAllot : CmdSpec :=
  { op := 0x0510, size := 24, fields := [(0, 2), (2, 1), (3, 1), (4, 1), (8, 8), (16, 8)] }
def spDmaRelease : CmdSpec := { op := 0x0511, size := 2, fields := [(0, 2)] }
def spDmaCtrl : CmdSpec := { op := 0x0512, size := 10, fields := [(0, 2), (2, 1), (8, 2)] }
def spDmaStatus : CmdSpec := { op := 0x0513, size := 2, fields := [(0, 2)], quiet := true }
def spCkptConfig : CmdSpec := { op := 0x0600, size := 12, fields := [(0, 2), (2, 1), (4, 2), (8, 4)] }
def spCkptSecure : CmdSpec := { op := 0x0601, size := 2, fields := [(0, 2)] }
def spCkptList : CmdSpec := { op := 0x0602, data := true, fields := [(8, 2)], quiet := true }
def spCkptRestore : CmdSpec := { op := 0x0603, size := 16, fields := [(0, 2), (2, 1), (8, 8)] }
def spCkptDelete : CmdSpec := { op := 0x0604, size := 16, fields := [(0, 2), (8, 8)] }
def spAttestGet : CmdSpec := { op := 0x0700, data := true, fields := [(8, 32)] }
def spKeyRotate : CmdSpec := { op := 0x0701, size := 1, fields := [(0, 1)] }
def spTelemRead : CmdSpec := { op := 0x0800, data := true, fields := [(8, 2), (10, 1)], quiet := true }
def spTelemRate : CmdSpec := { op := 0x0801, size := 1, fields := [(0, 1)], pfOnly := true }
def spCoreMap : CmdSpec := { op := 0x0802, data := true, quiet := true }
def spPloverSet : CmdSpec := { op := 0x0803, size := 3, fields := [(0, 1), (1, 1), (2, 1)], pfOnly := true }
def spTimeSet : CmdSpec := { op := 0x0804, size := 8, fields := [(0, 8)], pfOnly := true }
def spFwStage : CmdSpec := { op := 0x0900, data := true, fields := [(8, 4), (12, 1)], pfOnly := true }
def spFwActivate : CmdSpec := { op := 0x0901, pfOnly := true }
def spFwQuery : CmdSpec := { op := 0x0902, quiet := true }
def spLinkCtrl : CmdSpec := { op := 0x0903, size := 2, fields := [(0, 1), (1, 1)], pfOnly := true }
def spModEvacuate : CmdSpec := { op := 0x0904, pfOnly := true }

/-- Every opcode of the command tables. -/
def allSpecs : List CmdSpec :=
  [spHello, spBye, spPing, spTenantConfig, spTenantQuery, spTenantEnd, spCoreBind, spCoreUnbind, spCtxOpen,
   spCtxCtrl, spCtxQuery, spCtxSignal, spMemMap, spMemUnmap, spMemPin, spMemWrite, spMemRead, spApertureMap,
   spApertureUnmap, spMemQuery, spDistMap, spProgLoad, spProgUnload, spWeightLoad, spTableCreate, spTableInstall,
   spTableCommit, spTableDestroy] ++
  [spJobCreate, spJobScale, spJobOpt, spJobMask, spJobStart, spJobStop, spJobQuery, spJobDestroy, spTaskSubmit,
   spChanSetup, spChanGroup, spChanTeardown, spChanQuery, spDmaAllot, spDmaRelease, spDmaCtrl, spDmaStatus,
   spCkptConfig, spCkptSecure, spCkptList, spCkptRestore, spCkptDelete, spAttestGet, spKeyRotate, spTelemRead,
   spTelemRate, spCoreMap, spPloverSet, spTimeSet, spFwStage, spFwActivate, spFwQuery, spLinkCtrl, spModEvacuate]

/-- An opcode outside the command tables: BAD_OPCODE after the version check (R407, R410). -/
def execUndefinedOpcode (e : Entry) (opcode : Half) (s : State) : Host.Outcome State Fault Refusal :=
  let defined := allSpecs.any (·.op == opcode.toNat) || decide (0x0F00 ≤ opcode.toNat ∧ opcode.toNat ≤ 0x0FFF)
  if defined || !slotReady s e then .next s
  else if e.readFails then .next (readFailed s e)
  else
    let f := funcOf s e.fn
    let s1 := setFunc s e.fn { f with cmdCi := f.cmdCi + 1 }
    let st := if switching s f then stRetryLater else (headerCheck f e false none false).getD stBadOpcode
    .next (respond s1 e.fn opcode.toNat e.seq st 0 0 none)

/-- A vendor diagnostic opcode: DENIED after the header checks (R407, R423), unless a diagnostic session is unlocked:
its contents are not part of the manual, and the model refuses it. -/
def execVendorDiagnostic (e : Entry) (opcode : Half) (s : State) : Host.Outcome State Fault Refusal :=
  if opcode.toNat < 0x0F00 || 0x0FFF < opcode.toNat || !slotReady s e then .next s
  else if e.readFails then .next (readFailed s e)
  else
    let f := funcOf s e.fn
    let s1 := setFunc s e.fn { f with cmdCi := f.cmdCi + 1 }
    let sp : CmdSpec := { op := opcode.toNat, data := e.indirect, size := e.payloadLength.toNat }
    if switching s f then .next (respond s1 e.fn opcode.toNat e.seq stRetryLater 0 0 none)
    else match headerCheck f e false (some sp) false with
    | some st => .next (respond s1 e.fn opcode.toNat e.seq st 0 0 none)
    | none =>
      if s.drover.diagUnlocked.isEmpty then .next (respond s1 e.fn opcode.toNat e.seq stDenied 0 0 none)
      else .refused .vendorDiagnostic

end Sys2Proof.Machine
end

