-- ==== Sys2Proof/Machine/HostRegs.lean ====
section
/-! DEFINITION. BAR0 and BAR2 (R401 to R404, R425): doorbells, the rings, interrupts, and host access to tenant
memory. -/

namespace Sys2Proof.Machine
open Sys2Proof

/-! ## Virtual access by Uango (R404, R418) -/

/-- The physical address of a resident page's byte. -/
def vaPlace (s : State) (t va : Nat) : Option Nat :=
  match leafOf s t va with
  | some (l, big) => if pteV l.pte && pteRes l.pte then some (pteAddr l.pte + va % pageBytes big) else none
  | none => none

/-- Read virtual bytes piece by piece, whatever the permissions; TRANSLATION where a piece has no place. -/
def vaReadGo (t : Nat) (out : PortOutcome) : List (Nat × Nat) → State → State × MemAns
  | [], s => (s, .ok [])
  | (va, n) :: rest, s =>
    match vaPlace s t va with
    | none => (s, .err .translation)
    | some pa =>
      match physRead s pa n out with
      | (s1, .err c) => (s1, .err c)
      | (s1, .ok b) => match vaReadGo t .clean rest s1 with
        | (s2, .ok b2) => (s2, .ok (b ++ b2))
        | (s2, .err c) => (s2, .err c)

/-- Pieces of a virtual range at 512-byte boundaries. -/
def pieces (size : Nat) : Nat → Nat → Nat → List (Nat × Nat)
  | 0, _, _ => []
  | f + 1, va, n =>
    if n = 0 then []
    else
      let k := min n (size - va % size)
      (va, k) :: pieces size f (va + k) (n - k)

def vaRead (s : State) (t va n : Nat) (out : PortOutcome) : State × MemAns :=
  vaReadGo t out (pieces 512 (n / 512 + 2) va n) s

def vaWriteGo (t : Nat) (out : PortOutcome) : List (Nat × List Byte) → State → State × Option Cause
  | [], s => (s, none)
  | (va, bs) :: rest, s =>
    match leafOf s t va, vaPlace s t va with
    | some (l, big), some pa =>
        let s1 := setLeaf s t va big { l with pte := setField l.pte 10 1 1 }
        match anyWrite s1 pa bs out with
        | (s2, some c) => (s2, some c)
        | (s2, none) => vaWriteGo t out rest s2
    | _, _ => (s, some .translation)

/-- Write virtual bytes, whatever the permissions; the pages become dirty (R418). Far pages are written by whole
units. -/
def vaWrite (s : State) (t va : Nat) (bs : List Byte) (out : PortOutcome) : State × Option Cause :=
  vaWriteGo t out (chunksAt 16384 (bs.length / 16384 + 2) va bs) s

/-! ## Doorbells (R402) -/

/-- The function is present and its registers answer: in RECOVERY only the identity registers and the emergency page do (R399). -/
def fnAnswers (s : State) (fn : Nat) : Bool := fnPresent s fn && (funcOf s fn).fstate != .recovery

def onFn (fn : Nat) (g : Func → Func) (s : State) : Host.Outcome State Fault Refusal :=
  if fnAnswers s fn then .next (onFunc s fn g) else .next s

/-- Command doorbell (R402). -/
def doorCmd (n : Half) (f : Func) : Func :=
  let d := idxDist n f.cmdCi
  if idxDist f.cmdPi f.cmdCi ≤ d ∧ d ≤ 256 then { f with cmdPi := n } else ringError f 1

/-- Response consumer doorbell: between the old consumer index and the producer index (R402). -/
def doorRsp (n : Half) (f : Func) : Func :=
  if idxDist n f.rspCi ≤ idxDist f.rspPi f.rspCi then { f with rspCi := n } else ringError f 1

/-- Event consumer doorbell: a slot that frees after drops takes an EVENT_LOST record first (R402, R425). -/
def doorEvt (stamp : Nat) (n : Half) (f : Func) : Func :=
  if idxDist n f.evtCi ≤ idxDist f.evtPi f.evtCi then flushLost { f with evtCi := n } stamp else ringError f 1

def execCmdPi (fn : Nat) (n : Half) (s : State) : Host.Outcome State Fault Refusal := onFn fn (doorCmd n) s
def execRspCi (fn : Nat) (n : Half) (s : State) : Host.Outcome State Fault Refusal := onFn fn (doorRsp n) s
def execEvtCi (fn : Nat) (n : Half) (s : State) : Host.Outcome State Fault Refusal := onFn fn (doorEvt (copyOf s 7) n) s

/-- A waiting response is written once the ring has room (R402). -/
def execResponseRingSpace (fn : Nat) (s : State) : Host.Outcome State Fault Refusal :=
  if !fnPresent s fn then .next s
  else .next (settleSwitch (onFunc s fn fun f => match f.rspWait with
    | [] => f
    | r :: t => if f.enable && decide (idxDist f.rspPi f.rspCi < 256) then putResp { f with rspWait := t } r else f))

/-! ## Enabling (R402) -/

/-- ENABLE from 0 to 1: the alignments are checked, and an EVT_LOG2 outside 8 to 12 fails the check (log entry 22). -/
def enableRings (stamp : Nat) (f : Func) : Func :=
  if f.enable then f
  else
    let g := { f with rerr := false, rerrCode := 0, stopped := false }
    let lg := f.evtLog2.toNat
    if f.cmdBase.toNat % 2 ^ 14 ≠ 0 ∨ f.rspBase.toNat % 2 ^ 14 ≠ 0 ∨ lg < 8 ∨ 12 < lg ∨
        f.evtBase.toNat % (64 * 2 ^ lg) ≠ 0 then ringError g 2
    else flushLost { g with enable := true, cmdPi := 0, cmdCi := 0, rspPi := 0, rspCi := 0, evtPi := 0, evtCi := 0 } stamp

/-- ENABLE from 1 to 0: responses not yet written are discarded; commands already read run on. -/
def disableRings (f : Func) : Func := if f.enable then { f with enable := false, rspWait := [] } else f

def execRingEnable (fn : Nat) (s : State) : Host.Outcome State Fault Refusal := onFn fn (enableRings (copyOf s 7)) s
/-- Disabling discards responses, which a switch-over of firmware may have waited for (R402, R427). -/
def execRingDisable (fn : Nat) (s : State) : Host.Outcome State Fault Refusal :=
  if fnAnswers s fn then .next (settleSwitch (onFunc s fn disableRings)) else .next s

/-! ## Interrupt mask and the other registers (R8, R9, R401, R403) -/

/-- The vectors of the DMA channels whose cause bit is set (R340). Where the driver has cleared them all and cause bit 2 stands, the
vector of its one message is stated nowhere: a free value names it (log entry 193). -/
def dmaVecs (s : State) (f : Func) : List Nat :=
  let cs := (List.range 256).filter fun c => (look (0 : Word64) f.dmaCause (c / 64)).getLsbD (c % 64)
  if cs.isEmpty then [(freeValue s).1.toNat % 64] else (cs.map fun c => (look ({} : DmaChan) s.dma c).ivec.toNat).eraseDups

/-- Clearing a mask bit while its cause bit is set sends one message, for cause bit 2 one on each vector of `dv` (R403). -/
def writeMask (dv : List Nat) (v : BitVec 5) (f : Func) : Func :=
  let go := fun (f : Func) (bit : Nat) =>
    if f.mask.getLsbD bit && !v.getLsbD bit && f.cause.getLsbD bit then
      (if bit = 2 then dv.foldl sendMsg f else sendMsg f (causeVec f bit))
    else f
  { (List.range 5).foldl go f with mask := v }

def execIntMask (fn : Nat) (v : Word64) (s : State) : Host.Outcome State Fault Refusal :=
  onFn fn (fun f => writeMask (dmaVecs s f) (v.setWidth 5) f) s

/-- A write into the MSI-X table: the mask bit of a vector stands at bit 32 of its second word; unmasking sends a
pending message (R401: as PCIe lays down). -/
def writeMsix (off : Nat) (v : Word64) (f : Func) : Func :=
  let f1 := { f with msixTable := put f.msixTable off v }
  if off % 16 ≠ 8 then f1
  else
    let vec := (off - 0x2000) / 16
    let f2 := { f1 with msixMask := setField f1.msixMask vec 1 (field v 32 1) }
    if !f2.msixMask.getLsbD vec && f2.pba.getLsbD vec then sendMsg { f2 with pba := setField f2.pba vec 1 0 } vec else f2

/-- The control register at 0x0218: EVT_LOG2 while the rings are off, a reserved value leaves it (R9); then ENABLE. -/
def writeCtl (stamp : Nat) (v : Word64) (f : Func) : Func :=
  let lg := field v 0 4
  let f1 := if !f.enable && decide (8 ≤ lg ∧ lg ≤ 12) then { f with evtLog2 := BitVec.ofNat 4 lg } else f
  if v.getLsbD 4 then enableRings stamp f1 else disableRings f1

/-- A write to a register of BAR0; offsets that hold no writable field ignore it (R8, R401). -/
def writeReg0 (s : State) (off : Nat) (v : Word64) (f : Func) : Func :=
  if off = 0x0100 then doorCmd (v.setWidth 16) f
  else if off = 0x0108 then doorRsp (v.setWidth 16) f
  else if off = 0x0110 then doorEvt (copyOf s 7) (v.setWidth 16) f
  else if off = 0x0200 then (if f.enable then f else { f with cmdBase := v })
  else if off = 0x0208 then (if f.enable then f else { f with rspBase := v })
  else if off = 0x0210 then (if f.enable then f else { f with evtBase := v })
  else if off = 0x0218 then writeCtl (copyOf s 7) v f
  else if off = 0x0400 then { f with cause := f.cause &&& ~~~(v.setWidth 5) }
  else if off = 0x0408 then writeMask (dmaVecs s f) (v.setWidth 5) f
  else if off = 0x0410 then { f with rspVec := BitVec.ofNat 6 (field v 0 6), evtVec := BitVec.ofNat 6 (field v 8 6)
                                     errVec := BitVec.ofNat 6 (field v 16 6) }
  else if 0x0420 ≤ off ∧ off < 0x0440 ∧ off % 8 = 0 then
    { f with dmaCause := put f.dmaCause ((off - 0x0420) / 8) (look (0 : Word64) f.dmaCause ((off - 0x0420) / 8) &&& ~~~v) }
  else if 0x2000 ≤ off ∧ off < 0x2400 ∧ off % 8 = 0 then writeMsix off v f
  else f

def execRegisterWrite (fn off : Nat) (v : Word64) (s : State) : Host.Outcome State Fault Refusal :=
  if !fnAnswers s fn then .next s
  else
    let s1 := onFunc s fn (writeReg0 s off v)
    .next (if off = 0x0218 then settleSwitch s1 else s1)

/-! ## BAR2 (R404) -/

/-- The virtual address of a BAR2 offset, if a region covers the whole access. -/
def apertureVa (x : Tenant) (off n : Nat) : Option Nat :=
  (x.apertures.find? fun a => decide (a.1 ≤ off) && decide (off + n ≤ a.1 + a.2.1)).map fun a => a.2.2 + (off - a.1)

/-- A host read through BAR2: Unsupported Request outside a region, Completer Abort and APERTURE_ERROR on an error. One past the size
of BAR2 does not reach the function (R397). -/
def execBar2Read (fn off len : Nat) (out : PortOutcome) (s : State) : Host.Outcome State Fault Refusal :=
  if !fnAnswers s fn || decide (2 ^ (funcOf s fn).barLog2 < off + len) then .next s
  else
    let log := fun (s : State) (k : Nat) (b : List Byte) => { s with hostReads := s.hostReads ++ [(off, k, b)] }
    match apertureVa (tenantOf s fn) off len with
    | none => .next (log s 1 [])
    | some va =>
      match vaRead s fn va len out with
      | (s1, .ok b) => .next (log s1 0 b)
      | (s1, .err c) => .next (log (postEvent s1 fn 0x0024 [(0, 8, off), (8, 1, causeNo c)]) 2 [])

/-- A host write through BAR2; outside a region it is discarded. -/
def execBar2Write (fn off : Nat) (bytes : List Byte) (s : State) : Host.Outcome State Fault Refusal :=
  if !fnAnswers s fn || decide (2 ^ (funcOf s fn).barLog2 < off + bytes.length) then .next s
  else match apertureVa (tenantOf s fn) off bytes.length with
  | none => .next s
  | some va => .next (vaWrite s fn va bytes .clean).1

end Sys2Proof.Machine
end

