-- ==== Sys2Proof/Machine/Chan.lean ====
section
/-! DEFINITION. Channel endpoints, the injection of frames by the routes, and the end of a channel (R307, R316, R351,
R355, R362 to R375). -/

namespace Sys2Proof.Machine
open Sys2Proof

def chanOf (s : State) (c : Nat) : Chan := look {} s.chans c
def setChan (s : State) (c : Nat) (x : Chan) : State := { s with chans := put s.chans c x }
def linkOf (s : State) (l : Nat) : Link := look {} s.links l
def setLink (s : State) (l : Nat) (x : Link) : State := { s with links := put s.links l x }
def dieOf (s : State) (b : Bool) : LinkDie := look {} s.dies (b2n b)
def setDie (s : State) (b : Bool) (x : LinkDie) : State := { s with dies := put s.dies (b2n b) x }

/-- Link counters of R382. -/
def lnkTx : Nat := 0
def lnkRx : Nat := 1
def lnkParErr : Nat := 2
def lnkTagErr : Nat := 3
def lnkReplay : Nat := 4
def lnkLasting : Nat := 5
def lnkRetrain : Nat := 6
def lnkLaneDrop : Nat := 7
def lnkFailed : Nat := 8
def lnkFailover : Nat := 9
def lnkUncorr : Nat := 10
/-- Link-die counters. -/
def dieBadFrame : Nat := 0
def dieAgeDiscard : Nat := 1
/-- Channel counters of R382. -/
def chSeqDiscard : Nat := 0
def chEndedDiscard : Nat := 1
def chSigDiscard : Nat := 2
def chRedAdded : Nat := 3
def chHeadroom : Nat := 4
def chMismatch : Nat := 5
def dieRedAdded : Nat := 2

def linkBump (s : State) (l i n : Nat) : State := setLink s l { linkOf s l with counters := bump (linkOf s l).counters i n }
def dieBump (s : State) (b : Bool) (i : Nat) : State := setDie s b { dieOf s b with counters := bump (dieOf s b).counters i 1 }
def chanBump (s : State) (c i : Nat) : State := setChan s c { chanOf s c with counters := bump (chanOf s c).counters i 1 }

/-- The channel is held by the tenant and in use (R166, R328, R214). -/
def chanHeld (s : State) (t c : Nat) : Bool :=
  let x := chanOf s c
  decide (c < 4096) && x.valid && !x.ended && x.cfg.tenant.toNat == t

/-! ## Injection (R349, R351, R355, R363) -/

/-- The current route of a plane to a module (R363). -/
def routeTo (s : State) (plane : Bool) (dest : Nat) : Option Route :=
  let r := look ({} : Route) (dieOf s plane).cur dest
  if r.valid then some r else none

/-- The link numbers of a route, on the plane's die. -/
def routeLinks (plane : Bool) (r : Route) : List Nat :=
  ((List.range 16).filter fun i => r.links.getLsbD i).map (16 * b2n plane + ·)

def vcCredit (l : Link) (vc : Nat) : Nat := l.creds.getD vc 0

/-- A frame type carries a sequence number (R346). -/
def sequenced (kind : BitVec 4) : Bool := !(kind == 0 || kind == 7 || kind == 8 || kind == 10)

def laneCount (x : Link) : Nat := popCount 4 x.lanes.toNat

/-- Frame slots of a link since its last entry into UP: one every 2.56 ns on four lanes, three quarters of them on three (R344, R463). -/
def slotsSince (x : Link) (now : Nat) : Nat := (now - x.upAt) * laneCount x * 100 / 1024

/-- The key of a frame, and the entries into UP under it: during a rekey the old one before the switch point, and for an unsequenced
frame up to it (R464). -/
def frameKey (x : Link) (seq : Bool) : BitVec 256 × Nat :=
  match x.oldKey with
  | some k => if x.ownSwitch < x.sent || (seq && x.sent == x.ownSwitch) then (x.txKey, x.upCount) else k
  | none => (x.txKey, x.upCount)

/-- The nonce of a frame (R463); bits 63:0 of that of a sequenced frame are its extended number. -/
def nonceOf (x : Link) (now : Nat) (f : TxFrame) : BitVec 96 :=
  let seq := sequenced f.kind
  BitVec.ofNat 96 (f.chan.toNat * 2 ^ 64 + (frameKey x seq).2 % 2 ^ 20 * 2 ^ 44 +
    (if seq then x.sent % 2 ^ 44 else 2 ^ 95 + slotsSince x now % 2 ^ 44))

/-- Header bits 40:0, the associated data (R345, R348). -/
def hdrBits (f : TxFrame) : Nat :=
  f.fseq.toNat + 2 ^ 12 * f.kind.toNat + 2 ^ 16 * f.vc.toNat + 2 ^ 18 * b2n f.rv + 2 ^ 19 * f.dest.toNat + 2 ^ 29 * f.chan.toNat

/-- The 240 bytes of a body: CSEQ where the type has one, then the rest, then zeros; a HELLO record begins at byte 8 (R347, R357). -/
def bodyBytes (f : TxFrame) : List Byte :=
  let b := if f.kind = 7 then f.body else toBytes 4 f.cseq.toNat ++ f.body
  (b ++ List.replicate 240 0).take 240

/-- A frame as a link sends it now: its number, ACK, the credits it returns, and its sealed body; a HELLO goes in the clear with a zero
tag (R345, R348, R357). -/
def formed (x : Link) (now : Nat) (back : Option Nat) (f : TxFrame) : TxFrame :=
  let g := { f with fseq := if sequenced f.kind then x.txSeq else 0, ack := x.rxE - 1
                    cred := match back with | some v => BitVec.ofNat 3 (4 + v) | none => 0 }
  { g with cipher := if f.kind = 7 then bodyBytes g ++ List.replicate 8 0
                   else Config.sealFrame (frameKey x (sequenced f.kind)).1 (nonceOf x now g) (BitVec.ofNat 41 (hdrBits g)) (bodyBytes g) }

/-- The 256 bytes of a formed frame, PAR among them (R345). -/
def frameBytes (f : TxFrame) : List Byte :=
  let h := toBytes 7 (hdrBits f + 2 ^ 41 * f.ack.toNat + 2 ^ 53 * f.cred.toNat)
  h ++ [(h ++ f.cipher).foldl (· ^^^ ·) 0] ++ f.cipher

/-- Input buffers of a link and VC whose frames still wait in the die (R351). -/
def buffersHeld (s : State) (l v : Nat) : Nat :=
  let d := dieOf s (decide (16 ≤ l))
  let mine := fun (f : TxFrame) => f.src == some l && f.vc.toNat == v
  (d.queue.filter fun e => mine e.2).length + (d.mcWait.filter fun e => mine e.2).length +
  (d.parked.filter fun p => p.src == some l && p.vc.toNat == v).length

/-- The VC whose credits the next frame on a link returns: eight of its buffers are free again (R345, R351). -/
def credDue (s : State) (l : Nat) : Option Nat :=
  (List.range 4).find? fun v => decide (buffersHeld s l v + 8 ≤ (linkOf s l).rxTaken.getD v 0)

/-- The link after a frame that returns credits. -/
def givenBack (back : Option Nat) (x : Link) : Link :=
  match back with | some v => { x with rxTaken := x.rxTaken.set v (x.rxTaken.getD v 0 - 8) } | none => x

/-- Send a sequenced frame on a link: it takes the next FSEQ and a credit, and stands in the replay buffer (R349, R351). -/
def sendOn (s : State) (l : Nat) (f : TxFrame) : State :=
  let x := linkOf s l
  let back := credDue s l
  let bulk := f.vc != 0
  setLink s l { givenBack back x with
    txBuf := x.txBuf ++ [formed x s.ftime back f], txSeq := x.txSeq + 1, frames := x.frames + 1, sent := x.sent + 1
    creds := x.creds.set f.vc.toNat (vcCredit x f.vc.toNat - 1), counters := bump x.counters lnkTx 1
    lastVc := if bulk then f.vc.toNat else x.lastVc, bulk := if bulk then x.bulk + 1 else x.bulk }

/-- A frame without a sequence number goes out on a link. -/
def sendOut (s : State) (l : Nat) (f : TxFrame) : State :=
  let x := linkOf s l
  let back := credDue s l
  setLink s l { givenBack back x with out := x.out ++ [formed x s.ftime back f] }

/-- A frame of the replay buffer goes out again: its seal stands, ACK and CRED are fresh (R348). -/
def sendAgain (s : State) (l : Nat) (f : TxFrame) : State :=
  let x := linkOf s l
  let back := credDue s l
  let g := formed x s.ftime back f
  setLink s l { givenBack back x with out := x.out ++ [{ f with ack := g.ack, cred := g.cred }] }

/-- The link can take a frame of the VC now (R349, R351). -/
def linkTakes (l : Link) (vc : Nat) : Bool :=
  l.st == .up && !l.failover && decide (l.txBuf.length < 2047) && decide (0 < vcCredit l vc)

/-- A new frame of the VC can go out at once: none of its VC waits for the link. -/
def canSend (s : State) (l vc : Nat) : Bool :=
  linkTakes (linkOf s l) vc && !(dieOf s (decide (16 ≤ l))).queue.any fun e => e.2.vc.toNat == vc && e.1.contains l

/-- The links of the die that join the same module as link `l` (R355). -/
def groupLinks (s : State) (l : Nat) : List Nat :=
  ((List.range 16).map (16 * (l / 16) + ·)).filter fun k =>
    k == l || ((linkOf s l).peer.isSome && (linkOf s k).peer.map (·.serial) == (linkOf s l).peer.map (·.serial))

/-- Of two links the one that lies further behind its share, which is in proportion to its lanes (R363). -/
def lighter (s : State) (a b : Nat) : Nat :=
  let x := linkOf s a
  let y := linkOf s b
  if (y.bulk + 1) * laneCount x < (x.bulk + 1) * laneCount y then b else a

/-- Of a link group: VC0 takes the lowest-numbered UP link (R355), the others a link that can take the frame (R363). -/
def pickLink (s : State) (ls : List Nat) (vc : Nat) : Option Nat :=
  let up := ls.filter fun l => (linkOf s l).st == .up
  if vc = 0 then up.head?
  else match up.filter fun l => canSend s l vc with
    | [] => none
    | l :: t => some (t.foldl (lighter s) l)

/-- Hand a frame to a link group: it is sent, or waits in the die. -/
def toLinks (s : State) (ls : List Nat) (f : TxFrame) : State :=
  match ls with
  | [] => s
  | k :: _ =>
    let b := decide (16 ≤ k)
    match (pickLink s ls f.vc.toNat).filter fun l => canSend s l f.vc.toNat with
    | some l => sendOn s l f
    | none => setDie s b { dieOf s b with queue := (dieOf s b).queue ++ [(ls, { f with since := s.ftime, cipher := [] })] }

/-- The waiting frame that goes out next on a link: VC0, which takes the lowest-numbered UP link of its group, has strict priority;
VC1 to VC3 take turns (R351, R355). -/
def nextFor (s : State) (l : Nat) : Option (List Nat × TxFrame) :=
  let x := linkOf s l
  let q := (dieOf s (decide (16 ≤ l))).queue
  let turns := (List.range 3).map fun i => (x.lastVc + i) % 3 + 1
  (q.find? fun e => e.2.vc == 0 && linkTakes x 0 && pickLink s e.1 0 == some l).orElse fun _ =>
    turns.findSome? fun v => if linkTakes x v then q.find? fun e => e.2.vc.toNat == v && e.1.contains l else none

/-- Send the frames that wait for a link, as far as it takes them. -/
def drainLink (l : Nat) : Nat → State → State
  | 0, s => s
  | n + 1, s =>
    match nextFor s l with
    | none => s
    | some e =>
      let b := decide (16 ≤ l)
      drainLink l n (sendOn (setDie s b { dieOf s b with queue := (dieOf s b).queue.erase e }) l e.2)

/-- Copy a multicast frame to every output of its group in one step, once each has a credit; the copy for this module stands at the
LOCAL output (R372). -/
def mcOut (s : State) (die : Bool) (key : Nat) (f : TxFrame) : State :=
  let all := look [] (dieOf s die).groups key
  let outs := (all.filter (· < 16)).map (16 * b2n die + ·)
  if outs.all fun l => ((pickLink s (groupLinks s l) f.vc.toNat).filter fun k => canSend s k f.vc.toNat).isSome then
    let s1 := outs.foldl (fun s l => toLinks s (groupLinks s l) f) s
    if all.contains 16 then setDie s1 die { dieOf s1 die with toLocal := (dieOf s1 die).toLocal ++ [f] } else s1
  else setDie s die { dieOf s die with mcWait := (dieOf s die).mcWait ++ [(key, { f with since := s.ftime, cipher := [] })] }

/-- The key of a tree or multicast group in the link dies (R371). -/
def treeKey (rootMod rootChan : Nat) : Nat := rootMod * 4096 + rootChan

/-- Inject a frame for a module on a plane by the current route (R363), and one of a root's own group by its multicast group (R372).
During HOLD new frames of VC1 to VC3 are kept back (R364). -/
def inject (s : State) (plane : Bool) (f : TxFrame) : State :=
  if s.fabric.holding && f.vc != 0 then { s with fabric := { s.fabric with held := s.fabric.held ++ [(plane, f)] } }
  else
    let f1 := { f with rv := (dieOf s plane).version.getLsbD 0 }
    if f.dest.toNat = s.fabric.modid then mcOut s plane (treeKey f.dest.toNat f.chan.toNat) f1
    else match routeTo s plane f.dest.toNat with
      | none => s
      | some r => toLinks s (routeLinks plane r) f1

/-- Numbers of a channel source that are unfinished (R316): of frames in the link dies and of those kept back, and the next of each
transfer whose data are still to come. -/
def openNumbers (s : State) (c : Nat) : List Word32 :=
  let x := chanOf s c
  let mine := fun (f : TxFrame) => f.chan == x.cfg.peerChan && f.dest == x.cfg.peer
  let d := dieOf s x.cfg.plane
  let frames := s.links.flatMap (fun l => l.2.txBuf) ++ d.queue.map (·.2) ++ s.fabric.held.map (·.2) ++ d.mcWait.map (·.2)
  (frames.filter mine).map (·.cseq) ++
  s.dma.flatMap fun d => (d.2.work.filter fun w => field w.word 170 2 == 1 && field w.word 172 12 == c && w.status.isNone).map fun w =>
    w.first + BitVec.ofNat 32 (w.sent / 236)

/-- A number may go out: no number 65,536 or more before it is unfinished (R316). -/
def numberFree (s : State) (c : Nat) (n : Word32) : Bool :=
  (openNumbers s c).all fun m => decide ((n - m).toNat < 65536) || decide (2 ^ 31 ≤ (n - m).toNat)

/-- Put a frame among those of its channel that wait for credit, in the order of their numbers. -/
def addLater (f : TxFrame) : List TxFrame → List TxFrame
  | [] => [f]
  | g :: t => if (g.cseq - f.cseq).toNat < 2 ^ 31 then f :: g :: t else g :: addLater f t

/-- A numbered frame of a channel to a module; where numbers far before its own are unfinished it waits for credit (R316). -/
def chanSendTo (s : State) (c : Nat) (dest : BitVec 10) (seq : Word32) (kind : BitVec 4) (vc : BitVec 2) (body : List Byte)
    (core : Option Nat := none) : State :=
  let x := chanOf s c
  let f : TxFrame := { fseq := 0, vc := vc, chan := x.cfg.peerChan, dest := dest, kind := kind, cseq := seq, body := body
                       core := core }
  if numberFree s c seq && !x.later.any fun g => decide ((seq - g.cseq).toNat < 2 ^ 31) then inject s x.cfg.plane f
  else setChan s c { x with later := addLater f x.later }

/-- A numbered frame to the channel's peer. -/
def chanSend (s : State) (c : Nat) (seq : Word32) (kind : BitVec 4) (vc : BitVec 2) (body : List Byte) : State :=
  chanSendTo s c (chanOf s c).cfg.peer seq kind vc body

/-- A frame through a channel to a module, with the next channel sequence number (R316). -/
def chanFrameTo (s : State) (c : Nat) (dest : BitVec 10) (kind : BitVec 4) (vc : BitVec 2) (body : List Byte)
    (core : Option Nat := none) : State :=
  let x := chanOf s c
  chanSendTo (setChan s c { x with txSeq := x.txSeq + 1 }) c dest x.txSeq kind vc body core

/-- A frame of a channel to its peer. -/
def chanFrame (s : State) (c : Nat) (kind : BitVec 4) (vc : BitVec 2) (body : List Byte) (core : Option Nat := none) : State :=
  chanFrameTo s c (chanOf s c).cfg.peer kind vc body core

/-- Frames of a channel that waited for credit go out. -/
def refillChan (c : Nat) : Nat → State → State
  | 0, s => s
  | n + 1, s =>
    let x := chanOf s c
    match x.later with
    | [] => s
    | f :: t =>
      if numberFree s c f.cseq then refillChan c n (inject (setChan s c { x with later := t }) x.cfg.plane f) else s

/-- The same on every channel. -/
def refillAll (s : State) : State :=
  ((s.chans.filter fun c => !c.2.later.isEmpty).map (·.1)).foldl (fun s c => refillChan c (chanOf s c).later.length s) s

/-- Accept a channel sequence number: ahead, or late and not yet delivered; none where it is discarded (R316). -/
def acceptSeq (x : Chan) (n : Word32) : Option Chan :=
  let a := (n - x.rxH).toNat
  let b := (x.rxH - n).toNat
  if 1 ≤ a ∧ a ≤ 2 ^ 31 - 1 then
    some { x with rxH := n, rxSeen := (n :: x.rxSeen).filter fun m => decide ((n - m).toNat < 65536) }
  else if b < 65536 ∧ !x.rxSeen.contains n then some { x with rxSeen := n :: x.rxSeen }
  else none

/-! ## Fabric-control records of Uango (R346, R347, R360)

Kinds: 0 ELECT, 1 MAP, 2 JOIN, 3 ROUTES, 4 READY, 5 HOLD, 6 DRAINED, 7 COMMIT, 8 CSETUP, 9 CINSTALL, 10 CEND, 11 LOST. -/

/-- The frame of a record: CSEQ numbers the records of this Uango to the destination. -/
def fabFrame (s : State) (kind dest : Nat) (args : List Nat) : TxFrame :=
  { fseq := 0, vc := 0, chan := 0, dest := BitVec.ofNat 10 dest, kind := 9, cseq := BitVec.ofNat 32 (look 0 s.fabric.sentTo dest)
    body := Config.fabRecord (kind :: args) }

/-- One more record has gone to a destination. -/
def countFab (s : State) (dest : Nat) : State :=
  { s with fabric := { s.fabric with sentTo := put s.fabric.sentTo dest (look 0 s.fabric.sentTo dest + 1) } }

/-- The UP links of both dies. -/
def upLinks (s : State) : List Nat := (List.range 32).filter fun l => (linkOf s l).st == .up

/-- The links by which a frame of Uango's reaches a module: by the routes of plane A, else of plane B, else straight to a neighbour
(log entry 189). -/
def wayTo (s : State) (dest : Nat) : List Nat :=
  match routeTo s false dest, routeTo s true dest with
  | some r, _ => routeLinks false r
  | none, some r => routeLinks true r
  | none, none =>
    match (upLinks s).find? fun l => (linkOf s l).peer.any fun p => p.idv && p.modid.toNat % 1024 == dest with
    | some l => groupLinks s l
    | none => []

/-- A record to a module; one that has no way yet is kept until it has. -/
def fabSend (s : State) (kind dest : Nat) (args : List Nat) : State :=
  if dest = s.fabric.modid then s
  else match wayTo s dest with
    | [] => { s with fabric := { s.fabric with out := s.fabric.out ++ [(kind, dest, args)] } }
    | k :: ls =>
      toLinks (countFab s dest) (k :: ls)
        { fabFrame s kind dest args with rv := (dieOf s (decide (16 ≤ k))).version.getLsbD 0 }

/-- A record to the neighbour at the end of a link. -/
def fabOn (s : State) (l kind : Nat) (args : List Nat) : State :=
  let dest := match (linkOf s l).peer with | some p => p.modid.toNat % 1024 | none => 0
  toLinks (countFab s dest) [l] (fabFrame s kind dest args)

/-- Modules present in the fabric map (R360). -/
def present (s : State) : List Nat := (s.fabric.map.filter (·.present)).map (·.modid)

/-- The module ID of a serial in the map. -/
def idOf (s : State) (serial : Word64) : Option Nat :=
  (s.fabric.map.find? fun e => e.present && e.serial == serial).map (·.modid)

/-- A record to every other module of the fabric. -/
def fabAll (s : State) (kind : Nat) (args : List Nat) : State := (present s).foldl (fun s m => fabSend s kind m args) s

/-- A record to the Bellwether: by its ID, or toward the neighbour through which its serial was learnt. -/
def fabBw (s : State) (kind : Nat) (args : List Nat) : State :=
  match s.fabric.bwSerial.bind (idOf s), s.fabric.bwLink with
  | some m, _ => fabSend s kind m args
  | none, some l => fabOn s l kind args
  | none, none => s

/-- The kept records go out, as far as they have a way. -/
def fabFlush (s : State) : State :=
  s.fabric.out.foldl (fun s r => fabSend s r.1 r.2.1 r.2.2) { s with fabric := { s.fabric with out := [] } }

/-! ## Records of transfers (R369) -/

/-- Bytes 12 to 31 of an XFER frame: OP 0 WRITE, 1 READ, 2 DONE. -/
def xferBody (op : Nat) (bar : Bool) (len doneb addr status first : Nat) : List Byte :=
  toBytes 20 (op + 4 * b2n bar + len * 2 ^ 16 + doneb * 2 ^ 40 + addr * 2 ^ 64 + status * 2 ^ 112 + first * 2 ^ 128)

/-! ## Reduction (R55 to R57, R294, R371) -/

/-- The key of a tree entry (R371). -/
def chanTreeKey (s : State) (c : Nat) : Nat :=
  let x := (chanOf s c).cfg
  if x.root then treeKey s.fabric.modid c else treeKey x.peer.toNat x.peerChan.toNat

/-- A block waits in its input buffer: its slot has this input's contribution already, or the reservation of its tree
is full (R294). -/
def redWaits (slots : List RedSlot) (reserve inp : Nat) (q : RedSlot) : Bool :=
  match slots.find? (fun r => r.tree == q.tree && r.seq == q.seq) with
  | some r => r.arrived.contains inp
  | none => decide (reserve ≤ (slots.filter fun r => r.tree == q.tree).length)

/-- Add a block into its slot, opening one where none matches (R57, R294). -/
def redPut (slots : List RedSlot) (inp : Nat) (q : RedSlot) : List RedSlot × RedSlot :=
  match slots.find? (fun r => r.tree == q.tree && r.seq == q.seq) with
  | some r =>
    let r1 := { r with arrived := inp :: r.arrived, sum := addBlocks r.sum q.sum (r.poison || q.poison)
                       poison := r.poison || q.poison }
    (slots.map fun o => if o.tree == q.tree && o.seq == q.seq then r1 else o, r1)
  | none =>
    let r1 := { q with arrived := [inp], sum := addBlocks q.sum [] q.poison }
    (slots ++ [r1], r1)

/-- The channel of this module that belongs to a tree or multicast group. -/
def chanByKey (s : State) (key : Nat) : Option Nat :=
  (s.chans.find? fun c => c.2.valid && !c.2.ended && (c.2.cfg.red || c.2.cfg.mc) && chanTreeKey s c.1 == key).map (·.1)

/-- The frame of a reduction block: RED, or REDP where it is poisoned (R346, R347). -/
def blockFrame (key : Nat) (vc : BitVec 2) (q : RedSlot) : TxFrame :=
  { fseq := 0, vc := vc, chan := BitVec.ofNat 12 (key % 4096), dest := BitVec.ofNat 10 (key / 4096)
    kind := if q.poison then 4 else 3, cseq := q.seq
    body := if q.poison then [] else q.sum.flatMap fun e => toBytes 4 (lowBits 32 e) }

/-- A sum reaches the consumer of a channel of this module, if its number is accepted there (R315, R316). -/
def deliverSum (s : State) (key : Nat) (q : RedSlot) : State :=
  match chanByKey s key with
  | some c => match acceptSeq (chanOf s c) q.seq with
    | some x => setChan s c { x with sums := x.sums ++ [(q.seq, q.sum, q.poison)] }
    | none => chanBump s c chSeqDiscard
  | none => s

/-- A sum leaves its slot: at the root to its consumer, and back to every member with MCBACK; elsewhere by the link group that the
tree entry names (R371, R372). -/
def redForward (s : State) (die : Bool) (key : Nat) (vc : BitVec 2) (out : Nat) (q : RedSlot) : State :=
  if out = 16 then
    let s1 := deliverSum s key q
    match chanByKey s key with
    | some c => if (chanOf s c).cfg.mcback then mcOut s1 die key (blockFrame key vc q) else s1
    | none => s1
  else
    let f := { blockFrame key vc q with rv := (dieOf s die).version.getLsbD 0 }
    if s.fabric.holding && vc != 0 then { s with fabric := { s.fabric with held := s.fabric.held ++ [(die, f)] } }
    else toLinks s (groupLinks s (16 * b2n die + out)) f

/-- One block at the adder of a link die: it is added, or it waits. -/
def treeOne (s : State) (die : Bool) (inp : Nat) (vc : BitVec 2) (src : Option Nat) (q : RedSlot) : State :=
  match tabFind (dieOf s die).trees q.tree with
  | none => s
  | some e =>
    let d := dieOf s die
    if redWaits d.slots e.reserve inp q then setDie s die { d with parked := d.parked ++ [{ inp := inp, block := q, vc := vc, src := src, since := s.ftime }] }
    else
      let r := redPut d.slots inp q
      let d1 := { d with counters := bump d.counters dieRedAdded 1 }
      let s1 := match chanByKey s q.tree with | some c => chanBump s c chRedAdded | none => s
      if e.inMask.all fun i => r.2.arrived.contains i then
        redForward (setDie s1 die { d1 with slots := r.1.filter fun o => !(o.tree == q.tree && o.seq == q.seq) }) die q.tree vc
          e.out r.2
      else setDie s1 die { d1 with slots := r.1 }

/-- Parked blocks that no longer wait are added. -/
def treePump (die : Bool) : Nat → State → State
  | 0, s => s
  | n + 1, s =>
    let d := dieOf s die
    match d.parked.find? (fun p => match tabFind d.trees p.block.tree with
      | some e => !redWaits d.slots e.reserve p.inp p.block
      | none => false) with
    | none => s
    | some p => treePump die n (treeOne (setDie s die { d with parked := d.parked.erase p }) die p.inp p.vc p.src p.block)

/-- A block at the adder, and those that it lets go on. -/
def treeStep (s : State) (die : Bool) (inp : Nat) (vc : BitVec 2) (src : Option Nat) (q : RedSlot) : State :=
  let s1 := treeOne s die inp vc src q
  treePump die (dieOf s1 die).parked.length s1

/-- Blocks of a tree whose sums have not left the die: the unfinished numbers of its source (R316). -/
def openBlocks (s : State) (die : Bool) (key : Nat) : Nat :=
  let d := dieOf s die
  (d.slots.filter fun r => r.tree == key).length + (d.parked.filter fun p => p.inp == 16 && p.block.tree == key).length

/-- Blocks of a channel that waited for credit go to the adder. -/
def redRefill (die : Bool) (vc : BitVec 2) (c : Nat) : Nat → State → State
  | 0, s => s
  | n + 1, s =>
    let x := chanOf s c
    match x.redLater with
    | [] => s
    | q :: t =>
      if openBlocks s die q.tree < 65536 then redRefill die vc c n (treeStep (setChan s c { x with redLater := t }) die 16 vc none q)
      else s

/-- A reduction block arrives at a link die: input 0 to 15 a link, 16 LOCAL (R371). -/
def treeAdd (s : State) (die : Bool) (inp : Nat) (vc : BitVec 2) (q : RedSlot) (src : Option Nat := none) : State :=
  let s1 := treeStep s die inp vc src q
  match chanByKey s1 q.tree with
  | some c => redRefill die vc c (chanOf s1 c).redLater.length s1
  | none => s1

/-- A block injected into a reduction channel: poison where an element fails the headroom of the fan-in, or the exponent
is not the agreed one (R55, R56). With 65,536 numbers of the source unfinished it waits for credit (R316). -/
def injectBlock (s : State) (c : Nat) (aexp : Option Int) (elems : List Int) (poison : Bool) : State :=
  let x := chanOf s c
  let hf := headroomFails (x.cfg.fanin.toNat + 1) elems
  let sm := match aexp with | some a => a != signed 10 x.cfg.aexp.toNat | none => false
  let p := poison || hf || sm
  let q : RedSlot := { tree := chanTreeKey s c, seq := x.txSeq, arrived := [], sum := addBlocks elems [] p, poison := p }
  let s1 := setChan s c { x with txSeq := x.txSeq + 1 }
  let s2 := if hf then chanBump s1 c chHeadroom else s1
  let s3 := if sm then chanBump s2 c chMismatch else s2
  if x.redLater.isEmpty && decide (openBlocks s3 x.cfg.plane q.tree < 65536) then treeAdd s3 x.cfg.plane 16 x.cfg.vc q
  else setChan s3 c { chanOf s3 c with redLater := x.redLater ++ [q] }

/-- The 32 elements of 128 bytes. -/
def blockElemsOf (bs : List Byte) : List Int := (List.range 32).map fun i => signed 32 (ofBytes ((bs.drop (4 * i)).take 4))

/-- The data of a transfer on its way: reduction blocks on a reduction channel, else DATA frames of 236 bytes on VC3, numbered from
`first` on (R330, R347, R369, R371). -/
def sendData (s : State) (c : Nat) (first : Word32) (bytes : List Byte) : State :=
  if (chanOf s c).cfg.red then
    (chunksAt 128 (bytes.length / 128 + 2) 0 bytes).foldl (fun s p => injectBlock s c none (blockElemsOf p.2) false) s
  else
    (chunksAt 236 (bytes.length / 236 + 2) 0 bytes).zipIdx.foldl (fun s p =>
      chanSend s c (first + BitVec.ofNat 32 p.2) 1 3 p.1.2) s

/-- The numbers that the DATA frames of a transfer of `len` bytes take: they follow that of its XFER record without a gap, so
that the receiver finds each frame's place by its number (R369; log entry 156). -/
def drawNumbers (s : State) (c len : Nat) : State :=
  let x := chanOf s c
  if x.cfg.red then s else setChan s c { x with txSeq := x.txSeq + BitVec.ofNat 32 ((len + 235) / 236) }

/-! ## The end of a channel (R375) -/

def dmaOf (s : State) (c : Nat) : DmaChan := look {} s.dma c
def setDma (s : State) (c : Nat) (x : DmaChan) : State := { s with dma := put s.dma c x }

def dRmode (w : BitVec 512) : Nat := field w 170 2
def dFchan (w : BitVec 512) : Nat := field w 172 12

/-- Outstanding bursts of transfers through the channel end with MEM_ERROR (R375). -/
def failBursts (c : Nat) (d : DmaChan) : DmaChan :=
  { d with work := d.work.map fun x =>
      if dRmode x.word != 0 && dFchan x.word == c && x.status.isNone then
        let bs := x.bursts.map fun b => if b.st == .performed then b else { b with st := .failed .memError }
        { x with checked := true
                 bursts := if bs.any (fun b => b.st != .performed) then bs
                           else bs ++ [{ idx := 0, off := x.issued, len := 0, st := .failed .memError }] }
      else x }

/-- Every router of a plane. -/
def onRouters (s : State) (p : Bool) (f : Router → Router) : State :=
  { s with planes := s.planes.map fun e => (e.1, if e.1 == b2n p then { e.2 with routers := e.2.routers.map fun r => (r.1, f r.2) } else e.2) }

/-- The planes of the mesh that the tree and the group of a channel stand on: the one recorded in the channel, and for VC0
plane 0, and plane 1 for the time that plane 0 is rerouted (R285). -/
def meshPlanes (g : ChanCfg) : List Bool := if g.vc = 0 then [false, true] else [g.plane]

/-- Every router of a channel's planes. -/
def onMesh (s : State) (g : ChanCfg) (f : Router → Router) : State := (meshPlanes g).foldl (fun s p => onRouters s p f) s

/-- A router discards the slots and waiting blocks of a tree (R295). -/
def clearTree (t : Nat) (r : Router) : Router :=
  { r with slots := r.slots.filter (·.tree != t), inbuf := r.inbuf.filter (·.2.dest != .tree t) }

/-- A tree has ended: its slots and blocks go, and its reservation stays until it is removed (R295). -/
def dropTree (t : Nat) (r : Router) : Router :=
  match tabFind r.trees t with
  | some e => { clearTree t r with trees := put r.trees t { e with ended := true } }
  | none => clearTree t r

/-- A tree is removed. -/
def removeTree (t : Nat) (r : Router) : Router := { clearTree t r with trees := del r.trees t }

/-- A link die without the entries of a tree or multicast group. -/
def dropKey (s : State) (die : Bool) (key : Nat) : State :=
  let d := dieOf s die
  setDie s die { d with trees := del d.trees key, slots := d.slots.filter (fun q => q.tree != key)
                        parked := d.parked.filter (fun q => q.block.tree != key), groups := del d.groups key }

/-- What a channel leaves when it ends: its transfers, its entries in the link die, its tree and group on the mesh (R375). -/
def leaveChan (s : State) (c : Nat) : State :=
  let x := chanOf s c
  let key := chanTreeKey s c
  let s1 := setChan s c { x with ended := true, endedAt := s.ftime, open_ := [], early := [], later := [], redLater := [] }
  let s2 := if x.cfg.red || x.cfg.mc then dropKey s1 x.cfg.plane key else s1
  let s3 := { s2 with dma := s2.dma.map fun d => (d.1, failBursts c d.2) }
  let s4 := match x.tree with
    | some t => onMesh s3 x.cfg (dropTree t)
    | none => s3
  match x.mcast with
  | some g => onMesh s4 x.cfg fun r => { r with groups := del r.groups g }
  | none => s4

/-- End a channel on this module (R375): ENDED, and CHAN_ENDED to the holder. Reasons are numbered in the order of R375 (log
entry 25). -/
def endLocal (s : State) (c reason : Nat) : State :=
  let x := chanOf s c
  if !x.valid || x.ended then s
  else postEvent (leaveChan s c) x.cfg.tenant.toNat 0x0031 [(0, 2, c), (2, 1, reason)]

/-- The modules to which a record about a channel goes, with their channel IDs: from a root to all, from another end to its peer, which
is the root of a group and passes it on (R366, R375). -/
def chanModules (x : Chan) : List (Nat × Nat) := if x.cfg.root then x.via else [(x.cfg.peer.toNat, x.cfg.peerChan.toNat)]

/-- End a channel and send CEND to every module of it (R375). -/
def endChan (s : State) (c reason : Nat) : State :=
  let x := chanOf s c
  if !x.valid || x.ended then s
  else
    (chanModules x).foldl (fun s m => fabSend s 10 m.1 [m.2, reason])
      (endLocal s c reason)

/-- End every channel that satisfies a test. -/
def endChans (s : State) (p : Nat → Chan → Bool) (reason : Nat) : State :=
  ((s.chans.filter fun c => p c.1 c.2).map (·.1)).foldl (fun s c => endChan s c reason) s

end Sys2Proof.Machine
end

