-- ==== Sys2Proof/Machine/Dma.lean ====
section
/-! DEFINITION. The DMA engines (15): descriptors and their checks, bursts, completion, records, signals, and the
control commands' effect on a channel (R320 to R341). -/

namespace Sys2Proof.Machine
open Sys2Proof

/-! ## CRC-32C (R334) -/

def crcBit (c : Word32) : Word32 := if c.getLsbD 0 then (c >>> 1) ^^^ 0x82F63B78 else c >>> 1
def crcByte (c : Word32) (b : Byte) : Word32 :=
  (List.range 8).foldl (fun c _ => crcBit c) (c ^^^ b.setWidth 32)
/-- CRC_STATE after more bytes. -/
def crc32c (st : Word32) (bs : List Byte) : Word32 := bs.foldl crcByte st

/-! ## Fields of a descriptor (R325) -/

def dSrc (w : BitVec 512) : Nat := field w 0 64
def dDst (w : BitVec 512) : Nat := field w 64 64
def dLen (w : BitVec 512) : Nat := field w 128 24
def dSfmt (w : BitVec 512) : Nat := field w 152 4
def dDfmt (w : BitVec 512) : Nat := field w 156 4
def dS (w : BitVec 512) : Int := signed 10 (field w 160 10)
def dBar (w : BitVec 512) : Bool := w.getLsbD 184
def dIrq (w : BitVec 512) : Bool := w.getLsbD 185
def dCrcc (w : BitVec 512) : Bool := w.getLsbD 186
def dSe (w : BitVec 512) : Bool := w.getLsbD 187
def dSem (w : BitVec 512) : Nat := field w 188 6
def dScore (w : BitVec 512) : Nat := field w 194 9
def dOwn (w : BitVec 512) : Bool := w.getLsbD 511

/-- Stored size of a tile of a format (R39, R327). -/
def storedSize (fmt : Nat) : Nat := 4096 + 64 * blocksPerRow fmt 16

/-- Elements per stored row (R326). -/
def rowCount (fmt : Nat) : Nat := match fmt with | 1 => 64 | 2 => 128 | 3 => 32 | _ => 16

/-- The kinds of R326: 0 byte copy, 1 tile copy, 2 widening; none for a refused pair. -/
def dmaKind (sf df : Nat) : Option Nat :=
  if sf = 0 ∧ df = 0 then some 0
  else if sf = df ∧ sf ≤ 4 then some 1
  else match sf, df with
    | 2, 1 => some 2 | 2, 3 => some 2 | 1, 3 => some 2
    | 1, 4 => some 2 | 2, 4 => some 2 | 3, 4 => some 2
    | _, _ => none

def kindOf (w : BitVec 512) : Nat := (dmaKind (dSfmt w) (dDfmt w)).getD 0
def isTile (w : BitVec 512) : Bool := kindOf w != 0

/-- Tiles per page of a packed run (R174, R327). -/
def perPage (size : Nat) : Nat := Config.page2M / size

/-- Virtual address of tile `t` of the packed run that starts at `base` (R327). -/
def tileVa (base size t : Nat) : Nat :=
  let page := base / Config.page2M
  let slot := base % Config.page2M / size + t
  (page + slot / perPage size) * Config.page2M + slot % perPage size * size

/-- Source tile size, destination tile size, and destination tiles per source tile. -/
def srcSize (w : BitVec 512) : Nat := storedSize (dSfmt w)
def dstSize (w : BitVec 512) : Nat := storedSize (dDfmt w)
def tileRatio (w : BitVec 512) : Nat := rowCount (dSfmt w) / rowCount (dDfmt w)

/-- The virtual source and destination ranges of a descriptor: first address and length. -/
def srcRange (w : BitVec 512) : Nat × Nat :=
  if isTile w then
    let n := dLen w / srcSize w
    (dSrc w, tileVa (dSrc w) (srcSize w) (n - 1) + srcSize w - dSrc w)
  else (dSrc w, dLen w)

def dstRange (w : BitVec 512) : Nat × Nat :=
  if isTile w then
    let n := dLen w / srcSize w * tileRatio w
    (dDst w, tileVa (dDst w) (dstSize w) (n - 1) + dstSize w - dDst w)
  else (dDst w, dLen w)

/-- Bytes of a descriptor's stream on a fabric channel: its destination tiles where the engine widens, else its source bytes. -/
def streamLen (w : BitVec 512) : Nat :=
  if kindOf w = 2 then dLen w / srcSize w * tileRatio w * dstSize w else dLen w

/-- Destination bytes of `n` source bytes. -/
def wideBytes (w : BitVec 512) (n : Nat) : Nat := if kindOf w = 2 then n / srcSize w * tileRatio w * dstSize w else n

/-- A descriptor in the formats that its two ends hold: through a channel that widens, the channel's pair (R330). -/
def wideWord (s : State) (w : BitVec 512) : BitVec 512 :=
  let g := (chanOf s (dFchan w)).cfg
  if dRmode w != 0 && g.nfmt != g.wfmt then setField (setField w 152 4 g.nfmt.toNat) 156 4 g.wfmt.toNat else w

/-! ## The checks of R328 -/

/-- Pages a range touches. -/
def pagesOf (va n : Nat) : List Nat :=
  (List.range ((va + n - 1) / Config.page2M + 1 - va / Config.page2M)).map fun i => (va / Config.page2M + i) * Config.page2M

/-- The part of a range in one page: first address and length. -/
def pagePart (va n p : Nat) : Nat × Nat :=
  let lo := max va p
  let hi := min (va + n) (p + Config.page2M)
  (lo, hi - lo)

/-- A range is mapped whole, no part of it past the backed bytes of a local-store window (R328 step 5). -/
def mappedWhole (s : State) (t : Nat) (r : Nat × Nat) : Bool :=
  decide (r.1 + r.2 ≤ 2 ^ 48) && (pagesOf r.1 r.2).all fun p =>
    match leafOf s t p with
    | none => false
    | some (l, big) => pteV l.pte &&
      (pteTier l.pte != 3 ||
        (let q := pagePart r.1 r.2 p
         let a := pteAddr l.pte + q.1 % pageBytes big
         (pieces 0x100000 4 a q.2).all fun e => !pastLs e.1 e.2))

def permitted (s : State) (t acc : Nat) (r : Nat × Nat) : Bool :=
  (pagesOf r.1 r.2).all fun p => match leafOf s t p with | some (l, _) => l.pte.getLsbD (acc + 1) | none => false

/-- The static checks, steps 1 to 3 (R328); `v` is the descriptor in the formats that its ends hold. -/
def staticCheck (v w : BitVec 512) : Option Cause :=
  let i32w := dDfmt w == 4 && dSfmt w != 4
  if field w 203 308 ≠ 0 ∨ field w 48 16 ≠ 0 ∨ field w 112 16 ≠ 0 ∨ dRmode w = 3 ∨ dLen w = 0 ∨
      (dmaKind (dSfmt w) (dDfmt w)).isNone ∨ (dmaKind (dSfmt v) (dDfmt v)).isNone ∨ (field w 160 10 ≠ 0 ∧ !i32w) ∨ (dRmode w = 0 ∧ dFchan w ≠ 0) ∨
      (!dSe w ∧ (dSem w ≠ 0 ∨ dScore w ≠ 0)) then some .bounds
  else if isTile v ∧ dLen w % srcSize v ≠ 0 then some .bounds
  else if isTile v ∧
      (dSrc w % 128 ≠ 0 ∨ dDst w % 128 ≠ 0 ∨
       dSrc w % Config.page2M % srcSize v ≠ 0 ∨ perPage (srcSize v) ≤ dSrc w % Config.page2M / srcSize v ∨
       dDst w % Config.page2M % dstSize v ≠ 0 ∨ perPage (dstSize v) ≤ dDst w % Config.page2M / dstSize v) then some .align
  else none

/-- A core that a signal may name: bound to the tenant and not retired (R166, R328 step 4). -/
def coreUsable (s : State) (t c : Nat) : Bool :=
  decide (c < Config.nCores) && !s.grid.retired.contains c && (coreOf s c).tenant == some t

/-- Steps 4 to 7 on the local ranges (R328). -/
def rangeCheck (s : State) (t : Nat) (w : BitVec 512) : Option Cause :=
  let src := dRmode w != 2
  let dst := dRmode w != 1
  let v := wideWord s w
  if dSe w && !coreUsable s t (dScore w) then some .permission
  else if dRmode w != 0 && !(chanHeld s t (dFchan w) && (chanOf s (dFchan w)).cfg.dma) then some .permission
  else if (src && !mappedWhole s t (srcRange v)) || (dst && !mappedWhole s t (dstRange v)) then some .bounds
  else if (src && !permitted s t 0 (srcRange v)) || (dst && !permitted s t 1 (dstRange v)) then some .permission
  else if src && dst && decide ((srcRange v).1 < (dstRange v).1 + (dstRange v).2) &&
      decide ((dstRange v).1 < (srcRange v).1 + (srcRange v).2) then some .bounds
  else none

/-- Step 8: every source scale strip is read first; none waits for a page (R328). A failing read has its address. -/
inductive StripAns where
  | ok
  | wait (va : Nat)
  | bad (c : Cause) (va : Nat)
  deriving DecidableEq, Repr

def stripGo (t : Nat) (s : State) : List Nat → StripAns × List Byte
  | [] => (.ok, [])
  | va :: rest =>
    match leafOf s t va with
    | some (l, _) =>
      if pteBroken l.pte = 1 then (.bad .memError va, [])
      else if pteBroken l.pte = 2 then (.bad .integrity va, [])
      else if !pteRes l.pte then (.wait va, [])
      else match (vaRead s t va 64 .clean).2 with
        | .err c => (.bad c va, [])
        | .ok b => match stripGo t s rest with
          | (.ok, bs) => (.ok, b ++ bs)
          | r => r
    | none => (.bad .bounds va, [])

def stripCheck (s : State) (t : Nat) (w : BitVec 512) : StripAns :=
  if dDfmt w = 4 ∧ dSfmt w ≠ 4 ∧ dRmode w ≠ 2 then
    let b := blocksPerRow (dSfmt w) 16
    let vas := (List.range (dLen w / srcSize w)).flatMap fun i =>
      (List.range b).map fun j => tileVa (dSrc w) (srcSize w) i + 4096 + 64 * j
    match stripGo t s vas with
    | (.ok, es) =>
      if es.any (fun e => e != 255 && decide (widenShift (dSfmt w) e.toNat (dS w) < 0)) then .bad .bounds 0
      else if es.contains 255 then .bad .poison 0
      else .ok
    | (r, _) => r
  else .ok

/-! ## Interrupts, signals and stops (R335, R336, R340) -/

/-- Counters of R341: 0 BYTES_READ, 1 BYTES_WRITTEN, 2 DESC_DONE, 3 DESC_ERR, 4 ABORTS, 5 PAUSES, 6 OWN_STALLS,
7 PAGE_WAIT_NS, 8 LATE_ERR. -/
def dmaBump (s : State) (c i n : Nat) : State := setDma s c { dmaOf s c with counters := bump (dmaOf s c).counters i n }

/-- A channel interrupt (R340): the DMA cause bit of the holding function, and its vector unless masked. -/
def dmaIrq (s : State) (c : Nat) : State :=
  let d := dmaOf s c
  if !(d.held && d.hostirq) then s
  else onFunc s d.tenant.toNat fun f =>
    let old := look (0 : Word64) f.dmaCause (c / 64)
    let f1 := { f with dmaCause := put f.dmaCause (c / 64) (old ||| BitVec.ofNat 64 (2 ^ (c % 64)))
                       cause := f.cause ||| 4 }
    if old.getLsbD (c % 64) || f.mask.getLsbD 2 then f1 else sendMsg f1 d.ivec.toNat

/-- The reference of a dsub in its core's list of open engine commands. -/
def dsubRef (c idx : Nat) : Nat := c * 65536 + idx

/-- One signal leaves an engine for a semaphore (R335); it arrives by SIGNAL_ARRIVAL. -/
def sendSig (s : State) (core sem n : Nat) (src : Option (Nat × Nat) := none) : State :=
  { s with sigs := s.sigs ++ [{ core := core, sem := sem, cnt := n, src := src }] }

/-- Engine commands have completed (R168): contexts that waited for them go on, an exit among them (R153). -/
def closeEngine (s : State) (p : Nat → Bool) : State :=
  ((s.cores.filter fun k => k.2.engOpen.any fun e => p e.2.2).map (·.1)).foldl settle
    { s with cores := s.cores.map fun k => (k.1, { k.2 with engOpen := k.2.engOpen.filter fun e => !p e.2.2 }) }

/-- Wait for a page-in, counted from its begin (R341). -/
def noteWait (s : State) (c : Nat) : State :=
  let d := dmaOf s c
  setDma s c { d with waitFrom := d.waitFrom.orElse fun _ => some s.ftime }

def endWait (s : State) (c : Nat) : State :=
  let d := dmaOf s c
  match d.waitFrom with
  | none => s
  | some f => dmaBump (setDma s c { d with waitFrom := none }) c 7 (s.ftime - f)

/-- The object of a DMA_CTRL command: channel and operation. -/
def dmaObj (c op : Nat) : Nat := c + 256 * op

/-- Add the pending dsub counts that satisfy a test (R335). -/
def fireCounts (s : State) (c : Nat) (p : Nat → Bool) : State :=
  let d := dmaOf s c
  let s1 := setDma s c { d with counts := d.counts.filter fun e => !p e.1.toNat }
  let s2 := (d.counts.filter fun e => p e.1.toNat).foldl (fun s e => sendSig s e.2.1 e.2.2 1) s1
  closeEngine s2 fun r => r / 65536 == c && p (r % 65536)

/-- The channel stops (R322, R336): the first cause is kept, every count is added whose descriptor has not been read (R335), and a
PAUSE that has not taken effect ends (R408). -/
def stopChan (s : State) (c : Nat) (code : Nat) : State :=
  let s0 := endWait s c
  let d := dmaOf s0 c
  let s1 := setDma s0 c { d with st := .stopped, err := if d.err = 0 then BitVec.ofNat 8 code else d.err }
  completeObj (fireCounts s1 c fun i => !d.work.any fun x => x.index.toNat == i) 0x0512 (dmaObj c 0) stAborted 0 0

/-- Posted writes of the descriptors in work: they finish, whatever becomes of those (R331, R337). -/
def posted (d : DmaChan) : List (Half × BitVec 512 × Burst) :=
  d.work.flatMap fun x => (x.bursts.filter fun b => b.st == .writing).map fun b => (x.index, x.word, b)

/-- The channel without its descriptors, whose posted writes run on. -/
def shedWork (d : DmaChan) : DmaChan := { d with work := [], late := d.late ++ posted d }

/-- The reset of R336. -/
def resetChan (s : State) (c : Nat) : State :=
  let s1 := fireCounts (endWait s c) c fun _ => true
  let d := shedWork (dmaOf s1 c)
  setDma s1 c { d with ci := d.pi, done := 0, err := 0, crc := 0xFFFFFFFF, st := .idle, aborting := false, resetAfter := false }

/-- What follows once an abort has put the channel in STOPPED: a reset or a release that asked for it, and the answers
(R321, R336, R337, R339). A release waits for the posted writes of completed descriptors. -/
def afterStop (s : State) (c : Nat) : State :=
  let d := dmaOf s c
  let s0 := setDma s c { d with aborting := false }
  let s1 := completeObj s0 0x0512 (dmaObj c 2) stOK 0 0
  let s2 := if d.resetAfter then completeObj (resetChan s1 c) 0x0512 (dmaObj c 3) stOK 0 0 else s1
  if d.releaseAfter then
    if (shedWork (dmaOf s2 c)).late.isEmpty then
      let s3 := resetChan s2 c
      completeObj { s3 with dma := del s3.dma c } 0x0511 c stOK 0 0
    else setDma s2 c { dmaOf s2 c with aborting := true }
  else s2

/-! ## Progress of the descriptors (R324, R331) -/

def ringSize (d : DmaChan) : Nat := 2 ^ d.ringLog2.toNat

/-- A descriptor completes as if BAR were 1 in slot N − 1 (R332). -/
def barOf (d : DmaChan) (x : DmaCur) : Bool := dBar x.word || x.index.toNat % ringSize d == ringSize d - 1

def burstDone (b : Burst) : Bool := b.st == .performed
def burstFailed (b : Burst) : Bool := match b.st with | .failed _ => true | _ => false
def burstRead (b : Burst) : Bool := match b.st with | .writing => true | .performed => true | _ => false
def burstEnded (b : Burst) : Bool := burstDone b || burstFailed b

/-- Some burst of the channel has failed: no further burst issues (R336). -/
def chanFailing (d : DmaChan) : Bool := d.work.any fun x => x.bursts.any burstFailed
def chanQuiet (d : DmaChan) : Bool := d.work.all fun x => x.bursts.all burstEnded

/-- DONE: the longest prefix of performed bursts (R336). -/
def doneBytes (x : DmaCur) : Nat := (x.bursts.takeWhile burstDone).foldl (fun n b => n + b.len) 0

/-- The index of the next descriptor to read. -/
def nextIndex (d : DmaChan) : Half :=
  match d.work.getLast? with | some x => x.index + 1 | none => d.ci

/-- The next descriptor may start: the last one read has issued its last read, has sent what its fabric channel takes in order
(R369), and has BAR = 0, or has completed (R331). -/
def mayStart (d : DmaChan) : Bool :=
  match d.work.getLast? with
  | none => true
  | some x => x.status == some 0 || (x.status.isNone && !barOf d x && decide (x.issued = dLen x.word) && x.checked &&
    (dRmode x.word != 1 || decide (x.sent = streamLen x.word)))

/-- The descriptor at CI: the oldest not yet completed (R322). -/
def ciOf (d : DmaChan) : Half :=
  match d.work.find? (fun x => x.status.isNone) with
  | some x => x.index
  | none => nextIndex d

/-- DMA_STATE.DONE: of the descriptor at CI. -/
def doneNow (d : DmaChan) : Nat :=
  match d.work.find? (fun x => x.status.isNone) with | some x => doneBytes x | none => 0

/-- Where a virtual access of the channel stands. -/
inductive Spot where
  | ok (pa : Nat)
  | wait
  | bad (c : Cause)
  deriving DecidableEq, Repr

def spot (s : State) (t va acc : Nat) : Spot :=
  match walkOut s t va acc with
  | .fault c _ => .bad c
  | .page => .wait
  | .ok l big => .ok (pteAddr l.pte + va % pageBytes big)

/-- The channel stops at its ring (R324): no record, an interrupt. -/
def ringStop (s : State) (c : Nat) (e : Cause) : State := dmaIrq (stopChan s c (causeCode e)) c

/-- The far module of a descriptor has a route on the plane of its channel (R363). -/
def farReachable (s : State) (w : BitVec 512) : Bool :=
  let g := (chanOf s (dFchan w)).cfg
  (routeTo s g.plane g.peer.toNat).isSome

/-- Take the descriptor just read: OWN, then the checks (R324, R328); one for a module that has no route ends with UNREACHABLE
(R363, log entry 192). -/
def takeDesc (s : State) (c : Nat) (w : BitVec 512) : State :=
  let d := dmaOf s c
  let t := d.tenant.toNat
  if !dOwn w then dmaBump (setDma s c { d with st := .starved }) c 6 1
  else
    let x : DmaCur := { index := nextIndex d, word := w, checked := dRmode w == 0 }
    let endWith := fun (code va : Nat) =>
      setDma s c { d with work := d.work ++ [{ x with checked := true, status := some (BitVec.ofNat 8 code),
                                                      residue := dLen w, faultAddr := BitVec.ofNat 64 va, stamp := copyOf s 6 }] }
    let fail := fun (e : Cause) (va : Nat) => endWith (causeCode e) va
    match (staticCheck (wideWord s w) w).orElse fun _ => rangeCheck s t w with
    | some e => fail e 0
    | none => match stripCheck s t w with
      | .bad e va => fail e va
      | .wait _ => noteWait s c
      | .ok =>
        let first := (chanOf s (dFchan w)).txSeq + 1
        let s1 := endWait (setDma s c { d with work := d.work ++ [{ x with first := first }] }) c
        if dRmode w = 0 then s1
        else if !farReachable s w then endWith 0x60 0
        else if dRmode w = 1 then
          drawNumbers (chanFrame s1 (dFchan w) 2 1 (xferBody 0 (dBar w) (streamLen w) 0 (dDst w) 0 first.toNat)) (dFchan w) (streamLen w)
        else chanFrame s1 (dFchan w) 2 1 (xferBody 1 (dBar w) (dLen w) 0 (dSrc w) 0 first.toNat)

/-- A running channel reads its next descriptor (R324). `err` is how the read at memory ended. -/
def execDmaDescriptorFetch (chan : Nat) (err : Option Cause) (s : State) : Host.Outcome State Fault Refusal :=
  let d := dmaOf s chan
  let i := nextIndex d
  if !d.held || d.st != .run || d.aborting || i == d.pi || !mayStart d || chanFailing d ||
      d.work.any (fun x => x.status.isSome && x.status != some 0) then .next s
  else
    let va := d.ringVa.toNat + i.toNat % ringSize d * 64
    match spot s d.tenant.toNat va 0 with
    | .wait => .next (noteWait s chan)
    | .bad e => .next (ringStop (noteMalformed s d.tenant.toNat va 0) chan e)
    | .ok pa => match err with
      | some e => .next (ringStop (meetError s pa e) chan e)
      | none => match vaRead s d.tenant.toNat va 64 .clean with
        | (s1, .err e) => .next (ringStop s1 chan e)
        | (s1, .ok b) => .next (takeDesc (endWait s1 chan) chan (BitVec.ofNat 512 (ofBytes b)))

/-! ## Bursts (R320, R326, R336) -/

/-- Tier of a virtual page. -/
def vaFar (s : State) (t va : Nat) : Bool :=
  match leafOf s t va with | some (l, _) => pteTier l.pte == 2 | none => false

/-- The next burst of a descriptor: its source bytes, source address and destination addresses with sizes (R326). -/
def burstPlan (s : State) (t : Nat) (x : DmaCur) : Nat × Nat × List (Nat × Nat) :=
  let w := x.word
  if isTile w then
    let k := x.issued / srcSize w
    (srcSize w, tileVa (dSrc w) (srcSize w) k,
     (List.range (tileRatio w)).map fun m => (tileVa (dDst w) (dstSize w) (tileRatio w * k + m), dstSize w))
  else
    let sv := dSrc w + x.issued
    let dv := dDst w + x.issued
    let g := if (dRmode w != 2 && vaFar s t sv) || (dRmode w != 1 && vaFar s t dv) then 16384 else 1024
    let n := min (dLen w - x.issued) (min (g - dv % g) (min (Config.page2M - sv % Config.page2M) (Config.page2M - dv % Config.page2M)))
    (n, sv, [(dv, n)])

/-- The addresses of the local side of a burst whose pages it needs, each with its access: 0 a read, 1 a write. -/
def burstAccs (w : BitVec 512) (sv n : Nat) (outs : List (Nat × Nat)) : List (Nat × Nat) :=
  (if dRmode w = 2 then [] else [(sv, 0), (sv + n - 1, 0)]) ++
  (if dRmode w = 1 then [] else outs.flatMap fun o => [(o.1, 1), (o.1 + o.2 - 1, 1)])

/-- Every page of the local side of a burst is resident, or the first that is not says how it stands. -/
def burstSpot (s : State) (t : Nat) (w : BitVec 512) (sv n : Nat) (outs : List (Nat × Nat)) : Spot :=
  (burstAccs w sv n outs).foldl (fun a e => match a with | .ok _ => spot s t e.1 e.2 | o => o) (.ok 0)

/-- The access of a burst that does not translate, where one does not. -/
def burstBad (s : State) (t : Nat) (l : List (Nat × Nat)) : Option (Nat × Nat) :=
  l.find? fun e => match spot s t e.1 e.2 with | .bad _ => true | _ => false

/-- Read tags that the engine's bursts hold: of 1 KiB, and of the Far tier (R320). -/
def readsHeld (s : State) (e : Nat) (far : Bool) : Nat :=
  (List.range 8).foldl (fun n k =>
    let d := dmaOf s (8 * e + k)
    d.work.foldl (fun n x => x.bursts.foldl (fun n b =>
      if b.st == .reading && vaFar s d.tenant.toNat (dSrc x.word + b.off) == far then n + tagNeed far b.len else n) n) n) 0

/-- The destination ranges of a burst. -/
def burstDst (w : BitVec 512) (b : Burst) : List (Nat × Nat) :=
  if isTile w then
    (List.range (tileRatio w)).map fun m => (tileVa (dDst w) (dstSize w) (tileRatio w * (b.off / srcSize w) + m), dstSize w)
  else [(dDst w + b.off, b.len)]

/-- Write tags of a kind that a burst holds, or would hold; what goes to another module holds none (R320). -/
def writeTags (s : State) (t : Nat) (far : Bool) (w : BitVec 512) (b : Burst) : Nat :=
  if dRmode w = 1 then 0
  else (burstDst w b).foldl (fun n o => if vaFar s t o.1 == far then n + tagNeed far o.2 else n) 0

/-- Write tags that the engine's posted writes hold: of 1 KiB, and of the Far tier (R320). -/
def writesHeld (s : State) (e : Nat) (far : Bool) : Nat :=
  (List.range 8).foldl (fun n k =>
    let d := dmaOf s (8 * e + k)
    (d.late ++ posted d).foldl (fun n x => n + writeTags s d.tenant.toNat far x.2.1 x.2.2) n) 0

/-- The port that a write of a burst goes to. -/
def writePort (s : State) (t : Nat) (w : BitVec 512) (b : Burst) : Nat :=
  if dRmode w = 1 then 13
  else match spot s t ((burstDst w b).headD (0, 0)).1 1 with | .ok pa => portAt pa | _ => 13

/-- The write of a burst whose data have come can be posted: its engine has the tags (R320), and its port takes it (R272). -/
def canPost (s : State) (c : Nat) (w : BitVec 512) (b : Burst) : Bool :=
  let t := (dmaOf s c).tenant.toNat
  ([false, true].all fun far => decide (writesHeld s (c / 8) far + writeTags s t far w b ≤ (if far then 128 else 64))) &&
  portRoom s s.reqs (writePort s t w b) (tagNeed (writePort s t w b == 12) b.len)

/-- The port that the read of a burst goes to. -/
def readPort (s : State) (t : Nat) (w : BitVec 512) (sv : Nat) : Nat :=
  if dRmode w = 2 then 13 else match spot s t sv 0 with | .ok pa => portAt pa | _ => 13

/-- The descriptor of a channel that can issue a burst now. -/
def issuing (s : State) (c : Nat) : Option DmaCur :=
  let d := dmaOf s c
  if !d.held || !(d.st == .run || d.st == .starved) || d.aborting || chanFailing d then none
  else match d.work.getLast? with
    | none => none
    | some x =>
      if x.status.isSome || !x.checked || decide (dLen x.word ≤ x.issued) then none
      else
        let p := burstPlan s d.tenant.toNat x
        let far := vaFar s d.tenant.toNat p.2.1
        match burstSpot s d.tenant.toNat x.word p.2.1 p.1 p.2.2 with
        | .wait => none
        | _ =>
          let port := readPort s d.tenant.toNat x.word p.2.1
          if readsHeld s (c / 8) far + tagNeed far p.1 ≤ (if far then 128 else 64) && portRoom s s.reqs port (tagNeed (port == 12) p.1) then
            some x
          else none

def setLast (d : DmaChan) (f : DmaCur → DmaCur) : DmaChan :=
  { d with work := match d.work.reverse with | [] => [] | x :: t => (f x :: t).reverse }

/-- The next channel with work, in ascending order after the one served last, issues one burst (R320). A translation
that no longer holds fails the burst. -/
def execDmaBurstIssue (engine : Nat) (s : State) : Host.Outcome State Fault Refusal :=
  let last := look 7 s.dmaLast engine
  match ((List.range 8).map fun i => 8 * engine + (last + 1 + i) % 8).find? fun c => (issuing s c).isSome with
  | none =>
    .next ((List.range 8).foldl (fun s k =>
      let c := 8 * engine + k
      let d := dmaOf s c
      match d.work.getLast? with
      | some x =>
        let p := burstPlan s d.tenant.toNat x
        if d.held && d.st == .run && x.status.isNone && x.checked && decide (x.issued < dLen x.word) &&
            burstSpot s d.tenant.toNat x.word p.2.1 p.1 p.2.2 == .wait then noteWait s c else s
      | none => s) s)
  | some c =>
    match issuing s c with
    | none => .next s
    | some x =>
      let d := dmaOf s c
      let t := d.tenant.toNat
      let p := burstPlan s t x
      let st := match burstSpot s t x.word p.2.1 p.1 p.2.2 with | .bad e => BurstSt.failed e | _ => .reading
      let bad := burstBad s t (burstAccs x.word p.2.1 p.1 p.2.2)
      let b : Burst := { idx := s.nextId, off := x.issued, len := p.1, st := st, rport := readPort s t x.word p.2.1
                         addr := (bad.map (·.1)).getD 0 }
      let s0 := match bad with | some e => noteMalformed s t e.1 e.2 | none => s
      let s1 := setDma { s0 with nextId := s.nextId + 1, dmaLast := put s.dmaLast engine (c % 8) } c
        (setLast d fun x => { x with issued := x.issued + p.1, bursts := x.bursts ++ [b] })
      .next (endWait s1 c)

/-- The source address of a burst. -/
def burstSrc (w : BitVec 512) (b : Burst) : Nat :=
  if isTile w then tileVa (dSrc w) (srcSize w) (b.off / srcSize w) else dSrc w + b.off

/-- Widen one stored tile (R58, R326): the bytes of its output tiles. -/
def widenTile (w : BitVec 512) (bytes : List Byte) : List (List Byte) :=
  let sf := dSfmt w
  let df := dDfmt w
  let bs := blocksPerRow sf 16
  let size := blockSize sf
  let rows := (List.range 64).map fun r =>
    let xs := rowElems sf ((bytes.drop (64 * r)).take 64)
    (List.range bs).map fun j => ((bytes.getD (4096 + r * bs + j) 0).toNat, (xs.drop (size * j)).take size)
  let kd := rowCount df
  let out := rows.map fun r =>
    if df = 4 then
      ([], r.flatMap fun b => b.2.map fun x => wideElem (x * 2 ^ (widenShift sf b.1 (dS w)).toNat))
    else
      let wide := r.flatMap fun b => widenBlock sf df b.1 b.2
      (wide.map (·.1), wide.flatMap (·.2))
  (List.range (tileRatio w)).map fun m =>
    (out.flatMap fun r => elemBytes df 64 ((r.2.drop (kd * m)).take kd)) ++
    (out.flatMap fun r => ((r.1.drop (blocksPerRow df 16 * m)).take (blocksPerRow df 16)).map fun e => BitVec.ofNat 8 e)

/-- The destination pieces of a burst with their bytes. -/
def burstOut (w : BitVec 512) (b : Burst) : List (Nat × List Byte) :=
  if isTile w then
    let k := b.off / srcSize w
    let tiles := if kindOf w = 1 then [b.bytes] else widenTile w b.bytes
    tiles.zipIdx.map fun e => (tileVa (dDst w) (dstSize w) (tileRatio w * k + e.2), e.1)
  else [(dDst w + b.off, b.bytes)]

/-- Change a burst of the channel by its number. -/
def mapBurst (idx : Nat) (f : Burst → Burst) (d : DmaChan) : DmaChan :=
  { d with work := d.work.map fun x => { x with bursts := x.bursts.map fun b => if b.idx == idx then f b else b } }

def findBurst (d : DmaChan) (idx : Nat) : Option (DmaCur × Burst) :=
  d.work.findSome? fun x => (x.bursts.find? (·.idx == idx)).map fun b => (x, b)

/-- A burst fails with a cause at an address (R333). -/
def failBurst (idx va : Nat) (e : Cause) (d : DmaChan) : DmaChan := mapBurst idx (fun b => { b with st := .failed e, addr := va }) d

/-- The bytes of a descriptor's stream that have been read without a gap, as its fabric channel carries them. -/
def streamRead (x : DmaCur) : List Byte :=
  (x.bursts.takeWhile burstRead).flatMap fun b => if kindOf x.word = 2 then (burstOut x.word b).flatMap (·.2) else b.bytes

/-- What the fabric channel of a descriptor can take now: the stream goes out in its order, whatever the order in which reads
return (R60), in whole frames or reduction blocks but for its end (R369, R371). -/
def sendPrefix (s : State) (c : Nat) (x : DmaCur) : State :=
  let b := streamRead x
  let unit := if (chanOf s (dFchan x.word)).cfg.red then 128 else 236
  let upto := if b.length = streamLen x.word then b.length else b.length / unit * unit
  if upto ≤ x.sent then s
  else
    sendData (setDma s c { dmaOf s c with work := (dmaOf s c).work.map fun o => if o.index == x.index then { o with sent := upto } else o })
      (dFchan x.word) (x.first + BitVec.ofNat 32 (x.sent / 236)) ((b.drop x.sent).take (upto - x.sent))

/-- The read data of a burst returns; its write is posted (R331, R336), once the engine has the tags and the port takes it (R272,
R320). -/
def execDmaReadReturn (chan burst : Nat) (out : PortOutcome) (s : State) : Host.Outcome State Fault Refusal :=
  let d := dmaOf s chan
  match findBurst d burst with
  | none => .next s
  | some (x, b) =>
    if b.st != .reading || dRmode x.word == 2 || !canPost s chan x.word b then .next s
    else
      let va := burstSrc x.word b
      match spot s d.tenant.toNat va 0 with
      | .wait => .next s
      | .bad e => .next (setDma (noteMalformed s d.tenant.toNat va 0) chan (failBurst burst va e d))
      | .ok _ => match vaRead s d.tenant.toNat va b.len out with
        | (s1, .err e) => .next (setDma s1 chan (failBurst burst va e (dmaOf s1 chan)))
        | (s1, .ok bs) =>
          let b1 := { b with bytes := bs, st := .writing, wport := writePort s d.tenant.toNat x.word b }
          let s2 := setDma s1 chan (mapBurst burst (fun _ => b1) (dmaOf s1 chan))
          let s3 := dmaBump s2 chan 0 b.len
          .next (match findBurst (dmaOf s3 chan) burst with
            | some (y, _) => if dRmode x.word = 1 then sendPrefix s3 chan y else s3
            | none => s3)

/-- Perform the destination writes of a burst. -/
def writeOuts (t : Nat) (out : PortOutcome) (ps : List (Nat × List Byte)) (s : State) : State × Option (Cause × Nat) :=
  ps.foldl (fun (a : State × Option (Cause × Nat)) p =>
    match vaWrite a.1 t p.1 p.2 out with
    | (s1, none) => (s1, a.2)
    | (s1, some e) => (s1, a.2.orElse fun _ => some (e, p.1))) (s, none)

/-- One output tile of a widening: whole or untouched (R336). One that the grant watchdog ended is either, as a free value says
(R298). -/
def writeTile (t : Nat) (out : PortOutcome) (a : State × Option (Cause × Nat)) (p : Nat × List Byte) :
    State × Option (Cause × Nat) :=
  let whole := fun (s : State) (o : PortOutcome) => match vaWrite s t p.1 p.2 o with
    | (s1, none) => (s1, (none : Option Cause))
    | (s1, some e) => ({ s1 with mem := s.mem }, some e)
  if out = .watchdog then
    let fv := freeValue a.1
    ((if fv.1.getLsbD 0 then (whole fv.2 .clean).1 else fv.2), a.2.orElse fun _ => some (.watchdog, p.1))
  else
    let r := whole a.1 out
    (r.1, a.2.orElse fun _ => r.2.map fun e => (e, p.1))

/-- Perform the destination writes of a burst of a descriptor: of a widening, tile by tile. -/
def writeBurst (t : Nat) (out : PortOutcome) (w : BitVec 512) (ps : List (Nat × List Byte)) (s : State) : State × Option (Cause × Nat) :=
  if kindOf w = 2 then ps.foldl (writeTile t out) (s, none) else writeOuts t out ps s

/-! A gathered copy and the snapshots that tasks read (R31, R391). -/

/-- The tasks of a core, on contexts and saved. -/
def coreTasks (k : Core) : List TaskRun := k.ctxs.filterMap (fun x => x.2.task) ++ k.saved.map (·.task)

/-- An evaluation task of the job reads the snapshot in buffer `k` (R31). -/
def pins (s : State) (t j k : Nat) : Bool :=
  s.cores.any fun c => (coreTasks c.2).any fun r => r.tenant == t && r.desc.job.toNat == j && r.pin == some k

/-- The gather buffer of a tenant that holds an address: job and buffer (R391). -/
def bufferAt (s : State) (t va : Nat) : Option (Nat × Nat) :=
  (tenantOf s t).jobs.findSome? fun j => [0, 1].findSome? fun k =>
    let g := Config.gatherBuffer j.2.uid k
    if inRange g.1 g.2 va then some (j.1, k) else none

/-- A gathered copy is not written over a pinned snapshot (R31, R391). -/
def snapshotHeld (s : State) (t va : Nat) : Bool :=
  match bufferAt s t va with | some (j, k) => pins s t j k | none => false

/-- The buffer that a gather writes into holds the working copy from the next boundary on. -/
def noteGather (t : Nat) (s : State) (va : Nat) : State :=
  match bufferAt s t va with
  | some (j, k) => setTenant s t { tenantOf s t with jobs := (tenantOf s t).jobs.map fun e =>
      if e.1 == j then (e.1, { e.2 with gather := some k }) else e }
  | none => s

/-- A posted write of a completed BAR = 0 descriptor has ended in error (R331): CHAN_ERROR and DMA_LATE_ERR. -/
def lateError (s : State) (chan : Nat) (i : Half) (w : BitVec 512) (e : Cause) : State :=
  let s1 := dmaBump s chan 8 1
  postEvent s1 (dmaOf s1 chan).tenant.toNat 0x0032
    [(0, 2, if dRmode w = 0 then 0xFFFF else dFchan w), (2, 1, causeCode e), (4, 2, chan), (6, 2, i.toNat)]

/-- The write of a burst is performed and its response returns (R309, R331). What goes to another module is answered by DONE
(R369). A failed write of a descriptor that has completed is a late error. -/
def execDmaWriteResponse (chan burst : Nat) (out : PortOutcome) (s : State) : Host.Outcome State Fault Refusal :=
  let d := dmaOf s chan
  let t := d.tenant.toNat
  let held := fun (ps : List (Nat × List Byte)) => ps.any fun p => spot s t p.1 1 == .wait || snapshotHeld s t p.1
  let size := fun (ps : List (Nat × List Byte)) => ps.foldl (fun n p => n + p.2.length) 0
  match findBurst d burst with
  | some (x, b) =>
    let ps := burstOut x.word b
    if b.st != .writing || dRmode x.word = 1 || held ps then .next s
    else match writeBurst t out x.word ps s with
      | (s1, none) =>
        let s2 := (ps.map (·.1)).foldl (noteGather t) s1
        .next (dmaBump (setDma s2 chan (mapBurst burst (fun b => { b with st := .performed }) (dmaOf s2 chan))) chan 1 (size ps))
      | (s1, some (e, va)) =>
        if x.status.isSome then
          .next (lateError (setDma s1 chan (mapBurst burst (fun b => { b with st := .performed }) (dmaOf s1 chan))) chan x.index x.word e)
        else .next (setDma s1 chan (failBurst burst va e (dmaOf s1 chan)))
  | none =>
    match d.late.find? (fun e => e.2.2.idx == burst) with
    | none => .next s
    | some (i, w, b) =>
      let ps := burstOut w b
      if dRmode w = 1 || held ps then .next s
      else
        let r := writeBurst t out w ps s
        let d1 := dmaOf r.1 chan
        let s1 := setDma r.1 chan { d1 with late := d1.late.erase (i, w, b) }
        match r.2 with
        | none => .next (dmaBump ((ps.map (·.1)).foldl (noteGather t) s1) chan 1 (size ps))
        | some (e, _) => .next (lateError s1 chan i w e)

/-- Write each 512-byte part of a range or not, as free bits say (R331: each sector holds its old or its new
contents). -/
def halfWrite (t : Nat) (ps : List (Nat × List Byte)) (s : State) : State :=
  let cs := ps.flatMap fun p => chunksAt 512 (p.2.length / 512 + 2) p.1 p.2
  let fb := freeBits s cs.length
  cs.zipIdx.foldl (fun s c => if fb.1 c.2 then (vaWrite s t c.1.1 c.1.2 .clean).1 else s) fb.2

/-- A posted write of a completed BAR = 0 descriptor ends in error (R331): CHAN_ERROR, DMA_LATE_ERR, and bytes that are
undefined. -/
def execDmaLateWriteError (chan burst : Nat) (cause : Cause) (s : State) : Host.Outcome State Fault Refusal :=
  let d := dmaOf s chan
  match d.late.find? (fun e => e.2.2.idx == burst) with
  | none => .next s
  | some (i, w, b) =>
    let s1 := if dRmode w = 1 then s else halfWrite d.tenant.toNat (burstOut w b) s
    let d1 := dmaOf s1 chan
    .next (lateError (setDma s1 chan { d1 with late := d1.late.erase (i, w, b) }) chan i w cause)

/-- The far module answers the checks on its range (R330): the first burst may issue, or the descriptor ends. -/
def execDmaFarCheckAnswer (chan : Nat) (cause : Option Cause) (s : State) : Host.Outcome State Fault Refusal :=
  let d := dmaOf s chan
  match d.work.getLast? with
  | none => .next s
  | some x =>
    if x.checked || x.status.isSome then .next s
    else match cause with
      | none => .next (setDma s chan (setLast d fun x => { x with checked := true }))
      | some e =>
        .next (setDma s chan (setLast d fun x => { x with checked := true, residue := dLen x.word, stamp := copyOf s 6,
                                                          status := some (BitVec.ofNat 8 (causeCode e)) }))

/-! ## Completion (R331, R333 to R337) -/

/-- The cause of the first failed burst of a descriptor. -/
def failCause (x : DmaCur) : Option Cause :=
  x.bursts.findSome? fun b => match b.st with | .failed c => some c | _ => none

/-- Give a descriptor its status; the ones after it are dropped where it failed. -/
def settleDesc (d : DmaChan) (i : Half) (code residue : Nat) (now : Nat) : DmaChan :=
  let mark := fun (x : DmaCur) => if x.index == i then
    { x with status := some (BitVec.ofNat 8 code), residue := residue, stamp := now } else x
  let d1 := { d with work := d.work.map mark }
  let d2 := if code = 0 then d1 else
    { d1 with work := d1.work.takeWhile (fun x => x.index != i) ++ d1.work.filter (fun x => x.index == i) }
  { d2 with ci := ciOf d2 }

/-- The oldest open descriptor of the channel completes, or ends with the error of a burst (R331, R336). -/
def execDmaDescriptorComplete (chan : Nat) (s : State) : Host.Outcome State Fault Refusal :=
  let d := dmaOf s chan
  if d.st == .paused then .next s
  else match d.work.find? (fun x => x.status.isNone) with
  | none => .next s
  | some x =>
    match failCause x with
    | some c =>
      if !chanQuiet d then .next s
      else .next (setDma s chan (settleDesc d x.index (causeCode c) (dLen x.word - doneBytes x) (copyOf s 6)))
    | none =>
      if x.checked && decide (x.issued = dLen x.word) &&
          x.bursts.all (fun b => if barOf d x then burstDone b else burstRead b) then
        .next (setDma s chan (settleDesc d x.index 0 0 (copyOf s 6)))
      else .next s

/-- Every burst already issued has finished: the descriptor in progress ends with ABORTED (R337). A stopped channel that is released
goes with the last of its posted writes. -/
def execDmaAbortDrained (chan : Nat) (s : State) : Host.Outcome State Fault Refusal :=
  let d := dmaOf s chan
  if !d.aborting || !chanQuiet d then .next s
  else if d.st == .stopped then .next (if d.late.isEmpty then afterStop s chan else s)
  else match d.work.find? (fun x => x.status.isNone) with
    | some x =>
      let code := match failCause x with | some c => causeCode c | none => 0x50
      .next (setDma s chan (settleDesc d x.index code (dLen x.word - doneBytes x) (copyOf s 6)))
    | none =>
      if d.work.isEmpty then .next (afterStop (dmaIrq (stopChan (dmaBump s chan 4 1) chan 0x50) chan) chan) else .next s

/-- The CRC of a descriptor over its DONE bytes (R334). -/
def descCrc (d : DmaChan) (x : DmaCur) : Word32 :=
  let bs := if x.status = some 0 then x.bursts else x.bursts.takeWhile burstDone
  crc32c (if dCrcc x.word then d.crc else 0xFFFFFFFF) (bs.flatMap (·.bytes))

/-- The failing access of a descriptor: that of its first failed burst in source order, or of its checks; 0 if none (R333, log entry
187). -/
def faultOf (x : DmaCur) : Nat :=
  if x.status = some 0 then 0
  else match x.bursts.find? burstFailed with | some b => b.addr | none => x.faultAddr.toNat

/-- The completion record (R333). -/
def recordWord (d : DmaChan) (x : DmaCur) : Nat :=
  (x.status.getD 0).toNat + 2 ^ 16 * x.index.toNat + 2 ^ 32 * (x.residue % 2 ^ 24) +
  2 ^ 64 * (descCrc d x ^^^ 0xFFFFFFFF).toNat + 2 ^ 128 * faultOf x + 2 ^ 192 * (x.stamp % 2 ^ 64)

/-- The record's write response returns: OWN is cleared, the signals and counts follow, the interrupt is raised, and
an error stops the channel (R324, R335, R336, R340). `err` is how the write at memory ended; the bytes of the descriptor then stand
as moved. -/
def execDmaRecordWritten (chan : Nat) (err : Option Cause) (s : State) : Host.Outcome State Fault Refusal :=
  let d := dmaOf s chan
  match d.work with
  | [] => .next s
  | x :: rest =>
    match x.status with
    | none => .next s
    | some st =>
      let t := d.tenant.toNat
      let va := d.cmplVa.toNat + x.index.toNat % ringSize d * 32
      let own := d.ringVa.toNat + x.index.toNat % ringSize d * 64 + 63
      let bad := fun (s : State) (e : Cause) =>
        dmaIrq (stopChan (setDma s chan { shedWork (dmaOf s chan) with ci := x.index }) chan (causeCode e)) chan
      if d.st == .paused then .next s
      else if spot s t va 1 == .wait || spot s t own 1 == .wait then .next (noteWait s chan)
      else match spot s t va 1 with
      | .wait => .next s
      | .bad e => .next (bad (noteMalformed s t va 1) e)
      | .ok pa => match err with
        | some e => .next (bad (meetError s pa e) e)
        | none => match vaWrite s t va (toBytes 32 (recordWord d x)) .clean with
          | (s1, some e) => .next (bad s1 e)
          | (s1, none) =>
            let s2 := match spot s1 t own 1 with
              | .ok _ => (vaWrite s1 t own [BitVec.ofNat 8 (field x.word 504 7)] .clean).1
              | _ => s1
            let d1 : DmaChan := { dmaOf s2 chan with work := rest, crc := descCrc d x, late := d.late ++ posted { d with work := [x] } }
            let d2 := { d1 with ci := if rest.isEmpty then x.index + 1 else ciOf d1 }
            let s3 := endWait (setDma s2 chan d2) chan
            let s4 := if dSe x.word then sendSig s3 (dScore x.word) (dSem x.word) 1 else s3
            let s5 := fireCounts s4 chan fun i => i == x.index.toNat
            let s6 := dmaBump s5 chan (if st = 0 then 2 else 3) 1
            let s7 := if dIrq x.word || st != 0 then dmaIrq s6 chan else s6
            if st = 0 then
              let d3 := dmaOf s7 chan
              .next (if d3.st == .run && rest.isEmpty && d3.ci == d3.pi then setDma s7 chan { d3 with st := .idle } else s7)
            else
              let s8 := if st = 0x50 then dmaBump s7 chan 4 1 else s7
              .next (afterStop (stopChan s8 chan st.toNat) chan)

/-- Every read made has been written, every response has returned, and every record has been written: PAUSED (R338). -/
def execDmaPauseDrained (chan : Nat) (s : State) : Host.Outcome State Fault Refusal :=
  let d := dmaOf s chan
  if d.st != .pausing || d.aborting || !chanQuiet d || chanFailing d || !d.late.isEmpty || d.work.any (·.status.isSome) then .next s
  else
    .next (completeObj (dmaIrq (dmaBump (setDma s chan { d with st := .paused }) chan 5 1) chan) 0x0512 (dmaObj chan 0) stOK 0 0)

/-! ## The producer index and control (R321 to R323, R337 to R339) -/

/-- A producer-index write (R323); `cnt` is the count of a dsub with SE: core and semaphore (R335). -/
def submitPi (s : State) (c : Nat) (gn : Half) (cnt : Option (Nat × Nat)) : State :=
  let d := dmaOf s c
  let now := fun (s : State) => match cnt with | some (k, q) => sendSig s k q 1 | none => s
  if d.st == .stopped then now s
  else
    let dd := idxDist gn d.ci
    let p := idxDist d.pi d.ci
    if p ≤ dd ∧ dd ≤ ringSize d then
      let d1 := { d with pi := gn, st := if d.st == .idle || d.st == .starved then (if d.st == .idle && gn == d.pi then d.st else .run) else d.st }
      match cnt with
      | some (k, q) =>
        if dd = 0 then sendSig (setDma s c d1) k q 1
        else setDma s c { d1 with counts := d1.counts ++ [(gn - 1, k, q)] }
      | none => setDma s c d1
    else dmaIrq (stopChan (now s) c (causeCode .bounds)) c

/-- Begin an abort (R337, R339): at once where nothing is in progress. -/
def beginAbort (s : State) (c : Nat) : State :=
  let d := dmaOf s c
  if d.st == .stopped then afterStop s c
  else if d.st == .paused || d.work.isEmpty then
    afterStop (dmaIrq (stopChan (dmaBump (setDma s c (shedWork d)) c 4 1) c 0x50) c) c
  else setDma s c { d with aborting := true }

/-- Release a channel (R321): abort, reset, clear. -/
def releaseDma (s : State) (c : Nat) : State :=
  beginAbort (setDma s c { dmaOf s c with releaseAfter := true }) c

/-- A channel of Uango's own: 7, 15, …, 127 (R321). -/
def uangoChan (c : Nat) : Bool := decide (c < 128) && c % 8 == 7

def execDmaAllot (e : Entry) (s : State) : Host.Outcome State Fault Refusal :=
  let b := e.body
  let c := fld b 0 2
  let lg := fld b 2 1
  let ring := fld b 8 8
  let cmpl := fld b 16 8
  let bad := (decide (255 < c) && c != 0xFFFF) || decide (lg < 2) || decide (12 < lg) || decide (63 < fld b 3 1) ||
    decide (1 < fld b 4 1) || decide (2 ^ 48 ≤ ring) || decide (2 ^ 48 ≤ cmpl) || ring % (64 * 2 ^ lg) != 0 ||
    cmpl % (32 * 2 ^ lg) != 0
  cmd spDmaAllot .never false bad (fun t s =>
    let free := (List.range 256).filter fun k => !uangoChan k && !(dmaOf s k).held
    let held := (s.dma.filter fun d => d.2.held && d.2.tenant.toNat == t).length
    let pick := if c = 0xFFFF then free.head? else if free.contains c then some c else none
    if (tenantOf s t).maxDma ≤ held then (resFail stNoResource, s)
    else if c != 0xFFFF && uangoChan c then (resFail stDenied, s)
    else match pick with
      | none => (resFail stNoResource, s)
      | some k =>
        (resBody 2 [(0, 2, k)], setDma s k
          { held := true, ringVa := BitVec.ofNat 48 ring, cmplVa := BitVec.ofNat 48 cmpl, ringLog2 := BitVec.ofNat 4 lg,
            tenant := BitVec.ofNat 6 t, ivec := BitVec.ofNat 6 (fld b 3 1), hostirq := fld b 4 1 == 1 })) e s

/-- The channel a DMA command names is held by the tenant; else DENIED (log entry 26). -/
def holdsDma (s : State) (t c : Nat) : Bool := (dmaOf s c).held && (dmaOf s c).tenant.toNat == t

def execDmaRelease (e : Entry) (s : State) : Host.Outcome State Fault Refusal :=
  let c := fld e.body 0 2
  cmd spDmaRelease .long false (decide (255 < c)) (fun t s =>
    if !holdsDma s t c then (resFail stDenied, s)
    else
      let s1 := releaseDma s c
      (if (dmaOf s1 c).held then .wait c else resOk, s1)) e s

/-- The rows of DMA_CTRL share opcode 0x0512: a row is enabled where OP names it; an OP above 4 is BAD_FIELD under any of
them. -/
def dmaCtrl (op : Nat) (pend : Pend) (run : Nat → Nat → State → Res × State) (e : Entry) (s : State) :
    Host.Outcome State Fault Refusal :=
  let c := fld e.body 0 2
  let o := fld e.body 2 1
  if o ≠ op ∧ o ≤ 4 then .next s
  else
    cmd spDmaCtrl pend false (decide (255 < c) || decide (4 < o) || (op != 4 && fld e.body 8 2 != 0))
      (fun t s => if !holdsDma s t c then (resFail stDenied, s) else run t c s) e s

def execDmaPause (e : Entry) (s : State) : Host.Outcome State Fault Refusal :=
  dmaCtrl 0 .long (fun _ c s =>
    let d := dmaOf s c
    if d.st == .stopped then (resFail stDenied, s)
    else if d.st == .paused then (resOk, s)
    else if d.aborting then (.wait (dmaObj c 0), s)
    else if d.work.isEmpty && d.late.isEmpty then
      (resOk, dmaIrq (dmaBump (setDma s c { d with st := .paused }) c 5 1) c)
    else (.wait (dmaObj c 0), setDma s c { d with st := .pausing })) e s

def execDmaResume (e : Entry) (s : State) : Host.Outcome State Fault Refusal :=
  dmaCtrl 1 .may (fun _ c s =>
    let d := dmaOf s c
    if d.st != .paused then (resFail stDenied, s) else (resOk, setDma s c { d with st := .run })) e s

def execDmaAbort (e : Entry) (s : State) : Host.Outcome State Fault Refusal :=
  dmaCtrl 2 .long (fun _ c s =>
    let s1 := beginAbort s c
    (if (dmaOf s1 c).aborting then .wait (dmaObj c 2) else resOk, s1)) e s

def execDmaReset (e : Entry) (s : State) : Host.Outcome State Fault Refusal :=
  dmaCtrl 3 .long (fun _ c s =>
    let d := dmaOf s c
    if d.st == .idle || d.st == .stopped then (resOk, resetChan s c)
    else
      let s1 := beginAbort (setDma s c { d with resetAfter := true }) c
      (if (dmaOf s1 c).aborting then .wait (dmaObj c 3) else resOk, s1)) e s

def execDmaSubmit (e : Entry) (s : State) : Host.Outcome State Fault Refusal :=
  dmaCtrl 4 .may (fun _ c s =>
    if (dmaOf s c).st == .stopped then (resFail stDenied, s)
    else (resOk, submitPi s c (BitVec.ofNat 16 (fld e.body 8 2)) none)) e s

/-- CRC_STATE (R322, R334): it runs over the source bytes read without a gap, through the descriptors in turn up to the one at CI;
in PAUSED these are exactly the bytes moved (R338). -/
def crcNow (d : DmaChan) : Word32 :=
  let upto := d.work.takeWhile (·.status.isSome) ++ (d.work.find? (·.status.isNone)).toList
  upto.foldl (fun c x => crc32c (if dCrcc x.word then c else 0xFFFFFFFF) ((x.bursts.takeWhile burstRead).flatMap (·.bytes))) d.crc

def dmaStCode (x : DmaSt) : Nat :=
  match x with | .idle => 0 | .run => 1 | .starved => 2 | .pausing => 3 | .paused => 4 | .stopped => 5

def execDmaStatus (e : Entry) (s : State) : Host.Outcome State Fault Refusal :=
  let c := fld e.body 0 2
  cmd spDmaStatus .never false (decide (255 < c)) (fun t s =>
    let d := dmaOf s c
    if !holdsDma s t c then (resFail stDenied, s)
    else (resBody 24 [(0, 8, d.pi.toNat + 2 ^ 16 * d.ci.toNat),
                      (8, 8, dmaStCode d.st + 2 ^ 8 * d.err.toNat + 2 ^ 16 * (doneNow d % 2 ^ 24)),
                      (16, 8, (crcNow d).toNat)], s)) e s

end Sys2Proof.Machine
end

