-- ==== Sys2Proof/Machine/Routes.lean ====
section
/-! DEFINITION. The fabric map, module IDs, routes and their distribution (R360 to R364, R374): what Uango does when the map or the
link groups change. -/

namespace Sys2Proof.Machine
open Sys2Proof

/-! ## Shortest legal routes (R300, R362) -/

/-- Distances found by breadth-first search: `pred` gives the nodes one hop before a node. -/
def bfs (pred : Nat → List Nat) : Nat → List Nat → Nat → Tab Nat → Tab Nat
  | 0, _, _, acc => acc
  | n + 1, front, d, acc =>
    let next := (front.flatMap pred).eraseDups.filter fun v => (tabFind acc v).isNone
    if next.isEmpty then acc
    else bfs pred n next (d + 1) (next.foldl (fun a v => put a v (d + 1)) acc)

/-- Hop counts from a root. -/
def levelsFrom (nbr : Nat → List Nat) (fuel root : Nat) : Tab Nat := bfs nbr fuel [root] 0 [(root, 0)]

/-- The hop from `u` to `v` is up: (level, number) of `v` lies below that of `u` (R362). -/
def isUp (lv : Tab Nat) (u v : Nat) : Bool :=
  let a := look 0 lv u
  let b := look 0 lv v
  decide (b < a) || (a == b && decide (v < u))

/-- Distances to `d` over routes of up hops followed by down hops. Key 2u: `u` may still go up; 2u + 1: it may not. -/
def legalDist (nbr : Nat → List Nat) (lv : Tab Nat) (fuel d : Nat) : Tab Nat :=
  let pred := fun k =>
    let v := k / 2
    if k % 2 = 0 then ((nbr v).filter fun u => isUp lv u v).map (2 * ·)
    else ((nbr v).filter fun u => !isUp lv u v).flatMap fun u => [2 * u, 2 * u + 1]
  bfs pred fuel [2 * d, 2 * d + 1] 0 (put (put [] (2 * d) 0) (2 * d + 1) 0)

/-- The next hop from `u` on a shortest legal route, ties to the lowest number, and the length. -/
def legalHop (nbr : Nat → List Nat) (lv : Tab Nat) (dist : Tab Nat) (u : Nat) : Option (Nat × Nat) :=
  match tabFind dist (2 * u) with
  | none => none
  | some n =>
    let good := (nbr u).filter fun v => tabFind dist (if isUp lv u v then 2 * v else 2 * v + 1) == some (n - 1)
    if n = 0 then none
    else match good with
      | [] => none
      | v :: t => some (t.foldl min v, n)

/-! ## The map (R355, R360) -/

/-- The pair (BW_SERIAL, BW_HOPS) of this module (R359). -/
def bwPair (s : State) : Word64 × Nat := (s.fabric.bwSerial.getD Config.serialNo, s.fabric.bwHops)

/-- The link groups of this module: the UP links of a die that join one neighbour, and the active lanes of each (R355, R360). -/
def ownGroups (s : State) : List LinkGroup :=
  [false, true].flatMap fun b =>
    let up := (List.range 16).filter fun i => (linkOf s (16 * b2n b + i)).st == .up
    let peers := (up.filterMap fun i => (linkOf s (16 * b2n b + i)).peer.map (·.serial)).eraseDups
    peers.map fun p =>
      let mine := up.filter fun i => (linkOf s (16 * b2n b + i)).peer.map (·.serial) == some p
      { owner := Config.serialNo, plane := b, peer := p
        links := BitVec.ofNat 16 (mine.foldl (fun n i => n + 2 ^ i) 0)
        lanes := BitVec.ofNat 64 (mine.foldl (fun n i => n + 16 ^ i * (linkOf s (16 * b2n b + i)).lanes.toNat) 0) }

/-! ## Module IDs (R361) -/

/-- This module takes an ID: a change is posted and its channels end (R361). -/
def takeId (s : State) (id : Nat) : State :=
  let old := s.fabric.modid
  if s.fabric.modv && old == id then s
  else
    let s1 := storeRecord { s with fabric := { s.fabric with modid := id, modv := true } } { s.far with modid := some id }
      Config.farRecordBytes
    if !s.fabric.modv then s1
    else postAll (endChans s1 (fun _ _ => true) 5) 0x0043 [(0, 2, old), (2, 2, id)]

/-- The ID the Bellwether gives a serial (R361): its own in the map if free, else the lowest never assigned, else that of
the module absent longest. Absent entries stand in the map in the order of their absence. -/
def pickId (m : List MapEntry) (serial : Word64) : Option Nat :=
  let free := fun (id : Nat) => !m.any fun e => e.present && e.modid == id && e.serial != serial
  match (m.find? fun e => e.serial == serial && free e.modid).map (·.modid) with
  | some id => some id
  | none => match (List.range 1024).find? fun id => !m.any fun e => e.modid == id with
    | some id => some id
    | none => (m.find? fun e => !e.present).map (·.modid)

/-- The map with a module present under its ID. -/
def putEntry (m : List MapEntry) (id : Nat) (serial : Word64) : List MapEntry :=
  (m.filter fun e => e.serial != serial && e.modid != id) ++ [{ modid := id, serial := serial, present := true }]

/-- Merge a foreign map (R361): of two present modules with one ID, the higher serial gets a new one. -/
def mergeEntry (m : List MapEntry) (e : MapEntry) : List MapEntry :=
  if m.any fun o => o.serial == e.serial && o.present then m
  else if !e.present then (if m.any fun o => o.modid == e.modid || o.serial == e.serial then m else e :: m)
  else match m.find? (fun o => o.present && o.modid == e.modid) with
    | none => putEntry m e.modid e.serial
    | some o =>
      let hi := if o.serial.toNat < e.serial.toNat then e.serial else o.serial
      let lo := if o.serial.toNat < e.serial.toNat then o.serial else e.serial
      let m1 := putEntry (m.filter fun x => x.serial != o.serial) e.modid lo
      match pickId m1 hi with | some id => putEntry m1 id hi | none => m1

/-- The module stores the map it holds in its Far tier (R360). -/
def keepMap (s : State) : State :=
  storeRecord { s with fabric := { s.fabric with storedEpoch := if s.far.readOnly then s.fabric.storedEpoch else s.fabric.mapEpoch } }
    { s.far with map := s.fabric.map, groups := s.fabric.groups, mapEpoch := s.fabric.mapEpoch } Config.farRecordBytes

/-- The ID that the map gives this module. -/
def idFromMap (s : State) : State :=
  match s.fabric.map.find? (fun e => e.present && e.serial == Config.serialNo) with
  | some e => takeId s e.modid
  | none => s

/-! ## Routes (R362, R363) -/

/-- The neighbours of a module over the UP link groups of a plane. -/
def planeNbrs (s : State) (p : Bool) (u : Nat) : List Nat :=
  (s.fabric.groups.filterMap fun g =>
    if g.plane == p && idOf s g.owner == some u then idOf s g.peer
    else if g.plane == p && idOf s g.peer == some u then idOf s g.owner else none).eraseDups

/-- Levels from the Bellwether, or from the lowest ID of a part that does not reach it. -/
def fabLevels (s : State) (p : Bool) (root u : Nat) : Tab Nat :=
  let nbr := planeNbrs s p
  let fromRoot := levelsFrom nbr 1024 root
  if (tabFind fromRoot u).isSome then fromRoot
  else
    let part := levelsFrom nbr 1024 u
    levelsFrom nbr 1024 ((part.map (·.1)).foldl min u)

/-- The links of a module's die that join another (R363). -/
def linksOf (s : State) (p : Bool) (u v : Nat) : BitVec 16 :=
  match (if u = s.fabric.modid then ownGroups s else s.fabric.groups).find? fun g =>
    g.plane == p && idOf s g.owner == some u && idOf s g.peer == some v with
  | some g => g.links
  | none => 0

/-- The route of module `u` to a module: next hop and hops, none beyond 32 (R362). -/
def fabHop (s : State) (p : Bool) (root u d : Nat) : Option (Nat × Nat) :=
  let nbr := planeNbrs s p
  let lv := fabLevels s p root u
  match legalHop nbr lv (legalDist nbr lv 2048 d) u with
  | some h => if h.2 ≤ 32 then some h else none
  | none => none

/-- The lowest link of a module's die that joins another: it names the link group in the entries of trees and groups (R371, R374). -/
def firstLink (s : State) (p : Bool) (u v : Nat) : Option Nat := (List.range 16).find? fun i => (linksOf s p u v).getLsbD i

/-- The Bellwether's ID. -/
def bellRoot (s : State) : Nat := (s.fabric.bwSerial.bind (idOf s)).getD s.fabric.modid

/-- The hops of a frame from `u` to `d` by the tables of the modules, pairs of a module and the next; none where they do not lead
there. -/
def pathTo (s : State) (p : Bool) (d : Nat) : Nat → Nat → Option (List (Nat × Nat))
  | 0, u => if u = d then some [] else none
  | n + 1, u =>
    if u = d then some []
    else (fabHop s p (bellRoot s) u d).bind fun h => (pathTo s p d n h.1).map ((u, h.1) :: ·)

/-- The table of module `u` on a plane (R363); `root` is the Bellwether. -/
def routesOf (s : State) (p : Bool) (root u : Nat) : Tab Route :=
  (present s).foldl (fun t d =>
    if d = u then put t d { valid := true, locl := true }
    else match fabHop s p root u d with
      | none => t
      | some h => put t d { next := BitVec.ofNat 10 h.1, valid := true, links := linksOf s p u h.1, hops := BitVec.ofNat 6 h.2 }) []

/-- Modules that a module reaches over the link groups of either plane. -/
def reached (s : State) (u : Nat) : List Nat :=
  (levelsFrom (fun v => planeNbrs s false v ++ planeNbrs s true v) 1024 u).map (·.1)

/-- Modules that the Bellwether no longer reaches are absent: they stand in the map in the order of their absence (R360, R361). `keep`
has just spoken. -/
def dropUnreached (s : State) (keep : Nat) : State :=
  let live := reached s s.fabric.modid
  let gone := s.fabric.map.filter fun e => e.present && !(live.contains e.modid || e.modid == keep || e.modid == s.fabric.modid)
  { s with fabric := { s.fabric with
    map := (s.fabric.map.filter fun e => !gone.contains e) ++ gone.map fun e => { e with present := false } } }

/-- Channels with a module that is no longer present end (R375). -/
def endGone (s : State) : State :=
  endChans s (fun _ x => (x.cfg.peer.toNat :: x.members).any fun m => m != s.fabric.modid && !(present s).contains m) 2

/-- A map entry and a link group as a MAP or JOIN record carries them. -/
def entryArgs (e : MapEntry) : List Nat := [e.modid, e.serial.toNat, b2n e.present]
def groupArgs (g : LinkGroup) : List Nat := [g.owner.toNat, b2n g.plane, g.peer.toNat, g.links.toNat, g.lanes.toNat]

/-- The contents of MAP, JOIN and ROUTES (R360). -/
def mapArgs (s : State) : List Nat :=
  [s.fabric.mapEpoch.toNat, s.fabric.map.length] ++ s.fabric.map.flatMap entryArgs ++ s.fabric.groups.flatMap groupArgs
def joinArgs (serial : Word64) (stored : Option Nat) (groups : List LinkGroup) : List Nat :=
  [serial.toNat, match stored with | some id => id + 1 | none => 0] ++ groups.flatMap groupArgs
def routeWord (r : Route) : Nat :=
  r.next.toNat + 2 ^ 10 * b2n r.valid + 2 ^ 11 * b2n r.locl + 2 ^ 16 * r.links.toNat + 2 ^ 32 * r.hops.toNat
def routesArgs (die : Bool) (v : Half) (t : Tab Route) : List Nat := [b2n die, v.toNat] ++ t.flatMap fun e => [e.1, routeWord e.2]

/-! ## Distribution (R364) -/

/-- Install a table in the spare of a die. -/
def putSpare (s : State) (die : Bool) (v : Half) (t : Tab Route) : State :=
  setDie s die { dieOf s die with spare := some (v, t) }

/-- A recorded output or input of a tree or group, whose link group has no link in a table (R374). -/
def groupGone (s : State) (die : Bool) (new : Tab Route) (i : Nat) : Bool :=
  let ls := groupLinks s (16 * b2n die + i)
  !new.any fun r => r.2.valid && ls.any fun l => r.2.links.getLsbD (l % 16)

/-- A commit breaks a tree or group: its next hop changes, or a link group that it uses is gone (R374). -/
def treeBroken (s : State) (die : Bool) (old new : Tab Route) (key : Nat) : Bool :=
  let hop := fun (t : Tab Route) => let r := look ({} : Route) t (key / 4096); (r.valid, r.next)
  let used := (match tabFind (dieOf s die).trees key with | some e => (e.out :: e.inMask).filter (· < 16) | none => []) ++
    (look [] (dieOf s die).groups key).filter (· < 16)
  (key / 4096 != s.fabric.modid && hop old != hop new) || used.any (groupGone s die new)

/-- A module that a tree only passes through tells the root that it is broken. -/
def endTransit (s : State) (die : Bool) (key : Nat) : State :=
  fabSend (dropKey s die key) 10 (key / 4096) [key % 4096, 5]

/-- Switch one die to its spare table of a version; the trees and groups that this breaks end (R364, R374). -/
def commitDie (s : State) (v : Half) (die : Bool) : State :=
  let d := dieOf s die
  match d.spare with
  | none => s
  | some (w, t) =>
    if w ≠ v then s
    else
      let s1 := setDie s die { d with prev := d.cur, prevVersion := d.version, hasPrev := true, cur := t, version := v, spare := none
                                      oldAt := s.ftime }
      let s2 := endChans s1 (fun c x => (x.cfg.red || x.cfg.mc) && x.cfg.plane == die && treeBroken s die d.cur t (chanTreeKey s c)) 5
      ((((dieOf s2 die).trees.map (·.1) ++ (dieOf s2 die).groups.map (·.1)).eraseDups).filter fun k =>
        (chanByKey s2 k).isNone && treeBroken s die d.cur t k).foldl (fun s k => endTransit s die k) s2

/-- COMMIT: inject with the new version, and resume (R364). -/
def commitRoutes (s : State) (v : Half) : State :=
  let s1 := commitDie (commitDie s v false) v true
  let kept := s1.fabric.held
  let s2 := { s1 with fabric := { s1.fabric with routeVersion := v, holding := false, drainSent := false, held := [] } }
  fabFlush (kept.foldl (fun s f => inject s f.1 f.2) s2)

/-- No frame of VC1 to VC3 stands in the link dies (R364); a reduction block in a slot, or waiting for one, is no frame on its way. -/
def bulkEmpty (s : State) : Bool :=
  s.links.all (fun l => l.2.txBuf.all fun f => f.vc == 0) &&
  s.dies.all fun d => (d.2.queue.all fun p => p.2.vc == 0) && d.2.mcWait.all fun p => p.2.vc == 0

/-- The Bellwether sends COMMIT once every module has drained (R364). -/
def tryCommit (s : State) : State :=
  if s.fabric.routeStage == 2 && (present s).all s.fabric.drainedFrom.contains then
    let v := s.fabric.routeNext
    commitRoutes (fabAll { s with fabric := { s.fabric with routeStage := 0 } } 7 [v.toNat]) v
  else s

/-- Once its link dies hold no bulk frame, a holding module answers DRAINED (R364). -/
def checkDrained (s : State) : State :=
  if s.fabric.holding && !s.fabric.drainSent && bulkEmpty s then
    let s1 := { s with fabric := { s.fabric with drainSent := true } }
    if s.fabric.acting then
      tryCommit { s1 with fabric := { s1.fabric with drainedFrom := s.fabric.modid :: s.fabric.drainedFrom } }
    else fabBw s1 6 [s.fabric.modid]
  else s

/-- HOLD: new frames of VC1 to VC3 are kept back; DRAINED follows once the dies hold none. -/
def beginHold (s : State) : State :=
  checkDrained { s with fabric := { s.fabric with holding := true, drainSent := false } }

/-- The Bellwether's next step: HOLD once every module is READY, COMMIT once every module has drained (R364). -/
def routeAdvance (s : State) : State :=
  if s.fabric.routeStage == 1 && (present s).all s.fabric.readyFrom.contains then
    beginHold (fabAll { s with fabric := { s.fabric with routeStage := 2, drainedFrom := [] } } 5 [])
  else tryCommit s

/-- One module's map and tables go to it (R360, R364). -/
def sendRoutes (v : Half) (s : State) (m : Nat) : State :=
  let me := s.fabric.modid
  if m = me then s
  else fabSend (fabSend (fabSend s 1 m (mapArgs s)) 3 m (routesArgs false v (routesOf s false me m))) 3 m
    (routesArgs true v (routesOf s true me m))

/-- The map has changed at the Bellwether: it is stored and sent with new tables (R360, R362, R364). -/
def mapChanged (s : State) : State :=
  let s0 := keepMap { s with fabric := { s.fabric with mapEpoch := s.fabric.mapEpoch + 1 } }
  let s1 := endGone (idFromMap s0)
  let v := s1.fabric.routeVersion + 1
  let me := s1.fabric.modid
  let s2 := putSpare (putSpare s1 false v (routesOf s1 false me me)) true v (routesOf s1 true me me)
  let s3 := (present s2).foldl (sendRoutes v) s2
  routeAdvance { s3 with fabric := { s3.fabric with routeStage := 1, routeNext := v, readyFrom := [me], drainedFrom := [] } }

/-- The groups of the map with the groups that a module names now in place of its old ones; what another module still lists toward
it, and it does not, is gone too. -/
def mergeGroups (gs : List LinkGroup) (serial : Word64) (new : List LinkGroup) : List LinkGroup :=
  (gs.filter fun g => g.owner != serial && (g.peer != serial || new.any fun n => n.plane == g.plane && n.peer == g.owner)) ++ new

/-- The link groups of this module have changed: the Bellwether takes them into its map, another module tells the Bellwether with a
JOIN record; the shares of the links begin anew (R360, R363). -/
def groupsChanged (s : State) : State :=
  let s1 := { s with fabric := { s.fabric with groups := mergeGroups s.fabric.groups Config.serialNo (ownGroups s) }
                     links := s.links.map fun l => (l.1, { l.2 with bulk := 0 }) }
  if s.fabric.acting then mapChanged (dropUnreached s1 s.fabric.modid)
  else fabBw s1 2 (joinArgs Config.serialNo s.far.modid (ownGroups s))

end Sys2Proof.Machine
end

