-- ==== Sys2Proof/Machine/Links.lean ====
section
/-! DEFINITION. The links: their state machine (R353 to R358), key agreement (R462 to R464), and what a receiver and a
sender make of a frame's header (R348 to R352, R355). -/

namespace Sys2Proof.Machine
open Sys2Proof

/-! ## Fabric identity (R359) -/

/-- The pair of this module has changed: it goes out on every UP link (R359). -/
def sendPair (s : State) : State :=
  let p := bwPair s
  (upLinks s).foldl (fun s l => fabOn s l 0 [p.1.toNat, p.2]) { s with fabric := { s.fabric with pairAt := s.ftime } }

/-- Return to the own pair and send it (R359). -/
def ownPair (s : State) : State :=
  sendPair { s with fabric := { s.fabric with bwSerial := none, bwHops := 0, bwLink := none, acting := false } }

/-- A neighbour's pair arrives on a link (R359). -/
def learnPair (s : State) (l : Nat) (serial : Word64) (hops : Nat) : State :=
  let p := bwPair s
  if serial.toNat < p.1.toNat || (serial == p.1 && decide (hops + 1 < p.2)) then
    if 32 < hops + 1 then ownPair s
    else sendPair { s with fabric := { s.fabric with bwSerial := some serial, bwHops := hops + 1, bwLink := some l, acting := false } }
  else s

/-! ## Leaving and entering states (R353 to R356) -/

def linkCode (x : LinkSt) : Nat :=
  match x with
  | .disabled => 0 | .train => 1 | .align => 2 | .hello => 3 | .keyx => 4 | .up => 5 | .retrain => 6 | .failed => 7

/-- The LINK event (R356, R424): states are numbered in the order of R353, LANES counts the active lanes (log entry 27). -/
def linkEvent (s : State) (l : Nat) : State :=
  postPf s 0x0040 [(0, 1, l), (1, 1, linkCode (linkOf s l).st), (2, 1, popCount 4 (linkOf s l).lanes.toNat)]

/-- Link control frames (R347). -/
def lctl (code : Nat) (fseq : BitVec 12) (named : Nat) : TxFrame :=
  { fseq := 0, vc := 0, chan := 0, dest := 0, kind := 8
    body := [BitVec.ofNat 8 code] ++ toBytes 2 fseq.toNat ++ [BitVec.ofNat 8 named] }

/-- The UP siblings of a link in its group. -/
def siblings (s : State) (l : Nat) : List Nat := (groupLinks s l).filter fun k => k != l && (linkOf s k).st == .up

/-- A link leaves UP: its unacknowledged frames wait to be moved, and FOV_REQ goes out on a sibling (R355). Frames that wait in the die
go on by the siblings. -/
def leaveUp (s : State) (l : Nat) : State :=
  let x := linkOf s l
  if x.st != .up then s
  else
    let x1 := { x with downE := x.rxE, leftUpAt := some s.ftime, nakOpen := false, resent := none, tagFails := 0
                       failover := x.failover || !x.txBuf.isEmpty }
    let s1 := setLink s l x1
    if !x1.failover then s1
    else match (siblings s l).head? with
      | some k => sendOut s1 k (lctl 2 0 l)
      | none => s1

/-- The link is down for good: its keys end, and a pair learnt through it with it (R359, R454). -/
def linkDown (s : State) (l : Nat) (st : LinkSt) : State :=
  let was := (linkOf s l).st == .up
  let s1 := leaveUp s l
  let x := linkOf s1 l
  let s2 := setLink s1 l { x with st := st, keyed := false, keyStage := 0, rekeying := false, retrained := false, txKey := 0, rxKey := 0
                                  oldKey := none, refused := none, sawPeer := false, heard := false, upCount := 0, frames := 0 }
  let s3 := if s2.fabric.bwLink == some l then ownPair s2 else s2
  if was then groupsChanged s3 else s3

/-- Entry into FAILED (R356): Uango retries after 60 s, then at doubling intervals up to 1 h. -/
def enterFailed (s : State) (l : Nat) : State :=
  let s1 := linkDown s l .failed
  let x := linkOf s1 l
  linkEvent (linkBump (setLink s1 l { x with retryAt := s.ftime + x.retryGap * 1000000000, lanes := 0 }) l lnkFailed 1) l

/-- A training attempt fails: three in a row end in FAILED (R353). -/
def trainFail (s : State) (l : Nat) : State :=
  let x := linkOf s l
  if 3 ≤ x.trainFails + 1 then enterFailed (setLink s l { x with trainFails := 0 }) l
  else setLink (linkDown s l .train) l { linkOf (linkDown s l .train) l with trainFails := x.trainFails + 1 }

/-- Entry into RETRAIN (R354); more than 8 in an hour end in FAILED (R356). -/
def enterRetrain (s : State) (l : Nat) : State :=
  let s1 := leaveUp s l
  let x := linkOf s1 l
  let times := (x.retrainTimes.filter fun t => decide (s.ftime < t + 3600000000000)) ++ [s.ftime]
  let s2 := linkBump (setLink s1 l { x with st := .retrain, retrainTimes := times }) l lnkRetrain 1
  let s3 := if s2.fabric.bwLink == some l then ownPair s2 else s2
  let s4 := groupsChanged s3
  if 8 < times.length then enterFailed s4 l else s4

/-- The channel of this module that a frame belongs to as its source. -/
def chanOfFrame (s : State) (f : TxFrame) : Option Nat :=
  (s.chans.find? fun c => c.2.valid && !c.2.ended && c.2.cfg.peer == f.dest && c.2.cfg.peerChan == f.chan).map (·.1)

/-- A frame is ended (R355, R365): a LOST record goes to its destination, and its channel ends. -/
def endFrame (s : State) (f : TxFrame) : State :=
  let s1 := fabSend s 11 f.dest.toNat [f.chan.toNat]
  match chanOfFrame s f with
  | some c => endChan s1 c 4
  | none => s1

/-- A frame of the replay buffer as it waits to be sent afresh (R348, R355). -/
def afresh (s : State) (f : TxFrame) : TxFrame := { f with fseq := 0, cipher := [], since := s.ftime }

/-- Frames that wait for a link are sent as far as credits allow, multicast frames too. -/
def drain (s : State) (l : Nat) : State :=
  let die := decide (16 ≤ l)
  let s1 := drainLink l (dieOf s die).queue.length s
  match (dieOf s1 die).mcWait with
  | [] => s1
  | (key, f) :: t => mcOut (setDie s1 die { dieOf s1 die with mcWait := t }) die key f

/-- Entry into UP (R349, R355): both directions number from 0; a link that returns within 10 ms without a sibling first sends FOV_ANS
with the E it held; later, the frames it kept are ended. It can carry the request for a sibling that has frames to move. -/
def enterUp (s : State) (l : Nat) (again : Bool) : State :=
  let x := linkOf s l
  let soon := match x.leftUpAt with | some t => decide (s.ftime < t + 10000000) | none => false
  let late := x.failover && !soon
  let x1 := { x with failover := x.failover && soon, txBuf := if late then [] else x.txBuf
                     st := .up, txSeq := 0, rxE := 0, nakOpen := false, resent := none, tagFails := 0, stopped := false
                     upCount := if again then x.upCount + 1 else x.upCount, trainFails := 0, retryGap := 60, leftUpAt := none
                     creds := [16, 64, 64, 64], rxTaken := [0, 0, 0, 0], frames := if again then x.frames else 0
                     sent := 0, upAt := s.ftime, oldKey := none }
  let s1 := setLink s l x1
  let s2 := if soon && !x.stopped then sendOut s1 l (lctl 3 x.downE l) else s1
  let others := (groupLinks s2 l).filter fun k => k != l && (linkOf s2 k).st != .up && (linkOf s2 k).failover
  let s3 := others.foldl (fun s k => sendOut s l (lctl 2 0 k)) s2
  let s4 := fabFlush (drain (groupsChanged (linkEvent s3 l)) l)
  if late then x.txBuf.foldl endFrame s4 else s4

/-- Entry into KEYX (R452, R462, R465): without a DRBG or an identity it fails. -/
def enterKeyx (s : State) (l : Nat) : State :=
  if s.drover.drbgOk && s.drover.identity then
    setLink s l { linkOf s l with st := .keyx, keyStage := 0, keyed := false, keyFrom := s.ftime }
  else enterFailed s l

/-! ## Training and alignment -/

/-- Lanes whose margin is 8 or more at both ends (R354). -/
def goodLanes (margins : List Nat) : BitVec 4 :=
  BitVec.ofNat 4 ((List.range 4).foldl (fun n i => if 8 ≤ margins.getD i 0 then n + 2 ^ i else n) 0)

/-- Count the lanes that drop now (R354, R382); a lane that had dropped before and fails again is no new drop. -/
def noteDrops (s : State) (l : Nat) (good : BitVec 4) : State :=
  let x := linkOf s l
  linkBump (setLink s l { x with dropped := ~~~good }) l lnkLaneDrop (popCount 4 (~~~good &&& ~~~x.dropped).toNat)

/-- Keep the lanes that passed. -/
def keepLanes (s : State) (l : Nat) (lanes : BitVec 4) (margins : List Nat) (st : LinkSt) (re : Bool) : State :=
  let s1 := noteDrops s l lanes
  setLink s1 l { linkOf s1 l with st := st, lanes := lanes, margins := margins, retrained := re }

/-- TRAIN ends (R353, R354, R356): with fewer than three lanes the link fails. -/
def execLinkTrainComplete (link : Nat) (ok : Bool) (margins : List Nat) (s : State) : Host.Outcome State Fault Refusal :=
  if (linkOf s link).st != .train then .next s
  else if !ok then .next (trainFail s link)
  else if popCount 4 (goodLanes margins).toNat < 3 then .next (enterFailed (noteDrops s link (goodLanes margins)) link)
  else .next (keepLanes s link (goodLanes margins) margins .align false)

/-- ALIGN ends: FEC lock on three or four lanes within 1 ms leads to HELLO (R353). `lanes` are those whose FEC locks. -/
def execLinkAlignComplete (link : Nat) (lanes : BitVec 4) (inTime : Bool) (s : State) :
    Host.Outcome State Fault Refusal :=
  let x := linkOf s link
  let kept := x.lanes &&& lanes
  if x.st != .align then .next s
  else if !inTime then .next (trainFail s link)
  else if popCount 4 kept.toNat < 3 then .next (if x.retrained then linkDown (noteDrops s link kept) link .train else enterFailed (noteDrops s link kept) link)
  else
    let s1 := keepLanes s link kept x.margins .hello x.retrained
    .next (setLink s1 link { linkOf s1 link with sawPeer := false, heard := false, refused := none })

/-- RETRAIN ends (R353, R354): with fewer than three lanes, or on failure, the link trains anew. -/
def execRetrainComplete (link : Nat) (ok : Bool) (margins : List Nat) (s : State) : Host.Outcome State Fault Refusal :=
  if (linkOf s link).st != .retrain then .next s
  else if !ok then .next (linkDown s link .train)
  else if popCount 4 (goodLanes margins).toNat < 3 then .next (linkDown (noteDrops s link (goodLanes margins)) link .train)
  else .next (keepLanes s link (goodLanes margins) margins .align true)

/-- FEC lock is lost on a lane of a link in UP (R354). -/
def execFecLockLoss (link lane : Nat) (s : State) : Host.Outcome State Fault Refusal :=
  let x := linkOf s link
  if x.st = .up ∧ x.lanes.getLsbD lane then .next (enterRetrain s link) else .next s

/-- An error window ends (R354, R382): `corr` symbols were corrected on each lane; more than 16 uncorrectable codewords in 1 ms, or a
high symbol error ratio, retrains the link. -/
def execLinkErrorWindowEnd (link uncorr : Nat) (serHigh : Bool) (corr : List Nat) (s : State) : Host.Outcome State Fault Refusal :=
  let x := linkOf s link
  if x.st != .up then .next s
  else
    let s1 := linkBump (setLink s link { x with
      fecCorr := (List.range 4).map fun i => satAdd (x.fecCorr.getD i 0) (corr.getD i 0) }) link lnkUncorr uncorr
    .next (if 16 < uncorr || serHigh then enterRetrain s1 link else s1)

/-- Uango retries a FAILED link (R356). -/
def execLinkFailedRetry (link : Nat) (s : State) : Host.Outcome State Fault Refusal :=
  let x := linkOf s link
  if x.st != .failed || decide (s.ftime < x.retryAt) then .next s
  else .next (setLink s link { x with st := .train, trainFails := 0, retryGap := min 3600 (2 * x.retryGap) })

/-! ## HELLO (R357, R358) -/

/-- Why a link is refused: 0 SELF, 1 PLANE, 2 VERSION, 3 FULL (R358). -/
def refusal (s : State) (l : Nat) (r : HelloRec) : Option Byte :=
  if r.serial == Config.serialNo then some 0
  else if decide (r.link.toNat < 16) != decide (l < 16) then some 1
  else if r.bmajor != 1 then some 2
  else if 1024 ≤ (s.fabric.map.filter (·.present)).length && !s.fabric.map.any (fun e => e.present && e.serial == r.serial)
    then some 3
  else none

def refuse (s : State) (l : Nat) (cause : Byte) : State :=
  postPf (setLink s l { linkOf s l with refused := some cause }) 0x0041 [(0, 1, l), (1, 1, cause.toNat)]

/-- The HELLO record that a link sends (R357). -/
def helloRec (s : State) (l : Nat) : HelloRec :=
  let p := bwPair s
  { serial := Config.serialNo, link := BitVec.ofNat 5 l, peerSeen := (linkOf s l).heard, modid := BitVec.ofNat 16 s.fabric.modid
    idv := s.fabric.modv, bwSerial := p.1, bwHops := BitVec.ofNat 8 p.2, mapEpoch := s.fabric.mapEpoch }

/-- Its 64 bytes, at bytes 8 to 71 of the frame (R357). -/
def helloBytes (r : HelloRec) : List Byte :=
  toBytes 64 (r.serial.toNat + 2 ^ 64 * r.link.toNat + 2 ^ 69 * b2n r.peerSeen + 2 ^ 80 * (r.modid.toNat % 1024) + 2 ^ 96 * b2n r.idv +
    2 ^ 104 * r.bminor.toNat + 2 ^ 112 * r.bmajor.toNat + 2 ^ 120 * r.gen.toNat + 2 ^ 128 * r.bwSerial.toNat + 2 ^ 192 * r.bwHops.toNat +
    2 ^ 256 * r.mapEpoch.toNat)

/-- The HELLO frame of a link: it carries no number, no key and a zero tag (R357). -/
def helloFrame (s : State) (l : Nat) : TxFrame :=
  { fseq := 0, vc := 0, chan := 0, dest := 0, kind := 7, body := helloBytes (helloRec s l) }

/-- Every 100 µs a link in HELLO sends a HELLO, until it has received one with PEER_SEEN (R357). -/
def execHelloSendTick (link : Nat) (s : State) : Host.Outcome State Fault Refusal :=
  let x := linkOf s link
  if x.st = .hello ∧ !x.sawPeer then
    .next (sendOut (setLink s link { x with helloSent := x.helloSent + 1 }) link (helloFrame s link))
  else .next s

/-- Leave HELLO: after a retrain with the same peer and keys to UP, else to KEYX (R353). -/
def leaveHello (s : State) (l : Nat) (same : Bool) : State :=
  if (linkOf s l).retrained && same && (linkOf s l).keyed then enterUp s l true else enterKeyx s l

/-- A HELLO arrives (R353, R357, R358, R359). -/
def execHello (link : Nat) (rcd : HelloRec) (s : State) : Host.Outcome State Fault Refusal :=
  let x := linkOf s link
  if x.st != .hello then .next s
  else match refusal s link rcd with
  | some c => .next (if x.refused == some c then setLink s link { x with peer := some rcd } else
      refuse (setLink s link { x with peer := some rcd }) link c)
  | none =>
    let same := match x.peer with | some p => p.serial == rcd.serial && p.link == rcd.link | none => false
    let s1 := setLink s link { x with peer := some rcd, refused := none, sawPeer := x.sawPeer || rcd.peerSeen, heard := true
                                      retrained := x.retrained && same }
    let s2 := learnPair s1 link rcd.bwSerial rcd.bwHops.toNat
    .next (if rcd.peerSeen then leaveHello s2 link same else s2)

/-- Every 1 s a refused link checks again and posts the cause (R358). -/
def execLinkRefusedRecheck (link : Nat) (s : State) : Host.Outcome State Fault Refusal :=
  let x := linkOf s link
  match x.refused, x.peer with
  | some _, some r =>
    if x.st != .hello then .next s
    else match refusal s link r with
      | some c => .next (refuse s link c)
      | none => .next (setLink s link { x with refused := none })
  | _, _ => .next s

/-! ## Key agreement (R462 to R464) -/

/-- The link is in a key agreement: KEYX, or a rekey in UP. -/
def keying (x : Link) : Bool := x.st == .keyx || (x.st == .up && x.rekeying)

/-- A SHARE message: a valid point on the curve (R462). -/
def execKeyxShare (link : Nat) (pointOk : Bool) (s : State) : Host.Outcome State Fault Refusal :=
  let x := linkOf s link
  if !keying x || x.keyStage != 0 then .next s
  else .next (if pointOk then setLink s link { x with keyStage := 1 } else enterFailed s link)

/-- A CERT message: the chain leads to the root and names the peer's serial (R462). -/
def execKeyxCert (link : Nat) (chainOk : Bool) (serial : Word64) (s : State) : Host.Outcome State Fault Refusal :=
  let x := linkOf s link
  if !keying x || x.keyStage != 1 then .next s
  else .next (if chainOk && x.peer.map (·.serial) == some serial then setLink s link { x with keyStage := 2 }
              else enterFailed s link)

/-- The keys of the two directions of a link, of this end first, from the free value that stands for the agreed secret (R463). -/
def agreedKeys (s : State) (l : Nat) : BitVec 256 × BitVec 256 :=
  let ks := Config.linkKeys (freeValue s).1
  let lo := ks.extractLsb' 0 256
  let hi := ks.extractLsb' 256 256
  let lower := match (linkOf s l).peer with | some p => decide (Config.serialNo.toNat < p.serial.toNat) | none => true
  if lower then (lo, hi) else (hi, lo)

/-- A FINISH message: its signature verifies (R462 to R464). The first agreement leads to UP; in a rekey this end keeps the old key
up to a switch point 4,096 frames on, the least that R464 allows (log entry 190). -/
def execKeyxFinish (link : Nat) (sigOk : Bool) (switchPoint : Word64) (s : State) : Host.Outcome State Fault Refusal :=
  let x := linkOf s link
  if !keying x || x.keyStage != 2 then .next s
  else if !sigOk then .next (enterFailed s link)
  else
    let ks := agreedKeys s link
    let x1 := { x with keyStage := 3, keyed := true, keyAt := s.ftime, frames := 0, rekeying := false, switchPoint := switchPoint
                       txKey := ks.1, rxKey := ks.2 }
    let s1 := (freeValue s).2
    .next (if x.st = .keyx then enterUp (setLink s1 link { x1 with upCount := 0 }) link false
           else setLink s1 link { x1 with upCount := 0, oldKey := some (x.txKey, x.upCount), ownSwitch := x.sent + 4096 })

/-- The 5 ms bound of a key agreement has passed (R353, R462). -/
def execKeyxTimeout (link : Nat) (s : State) : Host.Outcome State Fault Refusal :=
  let x := linkOf s link
  if keying x ∧ x.keyFrom + 5000000 ≤ s.ftime then .next (enterFailed s link) else .next s

/-- Start a rekey of a link in UP (R464). -/
def startRekey (s : State) (l : Nat) : State :=
  let x := linkOf s l
  if x.st = .up ∧ x.keyed ∧ !x.rekeying then setLink s l { x with rekeying := true, keyStage := 0, keyFrom := s.ftime } else s

/-- A limit of R464 is reached: frames, 1 h, or entries into UP. -/
def execRekeyTrigger (link : Nat) (s : State) : Host.Outcome State Fault Refusal :=
  let x := linkOf s link
  if 2 ^ 40 ≤ x.frames || x.keyAt + 3600000000000 ≤ s.ftime || 1024 ≤ x.upCount then .next (startRekey s link) else .next s

/-! ## Headers of received frames (R345 to R352) -/

/-- The Plover inputs of a link (R437). -/
def noteReplay (s : State) (l : Nat) : State :=
  { s with plover := { s.plover with linkReplay := bump s.plover.linkReplay l 1 } }

/-- The old key goes once every frame sent under it has been acknowledged (R464). -/
def dropOldKey (x : Link) : Link :=
  if x.ownSwitch ≤ x.sent - x.txBuf.length then { x with oldKey := none } else x

/-- An acknowledgement frees every frame at or before it in the window (R349); the first resend that it covers was
transient (R352). A frame of the previous table version that goes is the last of it held so far (R364). -/
def takeAck (s : State) (l : Nat) (ack : BitVec 12) : State :=
  let x := linkOf s l
  let die := decide (16 ≤ l)
  let done := x.txBuf.filter fun f => decide ((ack - f.fseq).toNat < 2048)
  if done.isEmpty then s
  else
    let s0 := if done.any fun f => f.rv != (dieOf s die).version.getLsbD 0 then setDie s die { dieOf s die with oldAt := s.ftime } else s
    let x1 := dropOldKey { x with txBuf := x.txBuf.filter fun f => !decide ((ack - f.fseq).toNat < 2048) }
    match x.resent with
    | some e => if done.any (·.fseq == e) then noteReplay (linkBump (setLink s0 l { x1 with resent := none }) l lnkReplay 1) l
                else setLink s0 l x1
    | none => setLink s0 l x1

/-- CRED returns 8 credits of a VC (R345, R351). -/
def takeCred (x : Link) (cred : BitVec 3) : Link :=
  if cred.getLsbD 2 then { x with creds := x.creds.set (cred.toNat % 4) (vcCredit x (cred.toNat % 4) + 8) } else x

/-- What every frame with good parity carries in its header: ACK and CRED. Frames that waited for either go out. -/
def takeHeader (s : State) (h : FrameHdr) : State :=
  let s1 := takeAck s h.link h.ack
  checkDrained (refillAll (drain (setLink s1 h.link (takeCred (linkOf s1 h.link) h.cred)) h.link))

/-- NAK(E): at most one outstanding, unless a frame numbered E was discarded again (R350). -/
def sendNak (s : State) (l : Nat) (again : Bool) : State :=
  let x := linkOf s l
  if x.nakOpen && !again then s
  else sendOut (setLink s l { x with nakOpen := true, nakAt := s.ftime }) l (lctl 1 x.rxE l)

/-- An IDLE frame: only ACK and CRED (R346). One stands for all that fill the empty slots of a link until its ACK or credits change
(log entry 191). -/
def idleFrame : TxFrame := { fseq := 0, vc := 0, chan := 0, dest := 0, kind := 0 }

def sendIdle (s : State) (l : Nat) : State := if (linkOf s l).st == .up then sendOut s l idleFrame else s

/-- A frame with a reserved type or a VC its type does not permit (R346). -/
def badFrame (s : State) (h : FrameHdr) : State := dieBump s (decide (16 ≤ h.link)) dieBadFrame

/-- A frame is accepted: it takes an input buffer (R351), and the next number is expected. -/
def acceptFrame (h : FrameHdr) (s : State) : State :=
  let x := linkOf s h.link
  let v := h.vc.toNat
  linkBump (setLink s h.link { x with rxE := x.rxE + 1, nakOpen := false, tagFails := 0
                                      rxTaken := x.rxTaken.set v (x.rxTaken.getD v 0 + 1) }) h.link lnkRx 1

/-- A sequenced frame at its receiver (R350 to R352): PAR, the number, the tag; `deliver` runs on an accepted frame, which takes an input
buffer, and its ACK goes back. -/
def recvSeq (h : FrameHdr) (vcs : List Nat) (deliver : State → State) (s : State) : State :=
  let l := h.link
  let x := linkOf s l
  let a := (h.fseq - x.rxE).toNat
  if x.st != .up || x.stopped then s
  else if !h.parityOk then sendNak (linkBump s l lnkParErr 1) l (a == 0)
  else if !vcs.contains h.vc.toNat then badFrame s h
  else
    let s0 := takeHeader s h
    let x0 := linkOf s0 l
    if a = 0 then
      if !h.tagOk then
        let s1 := linkBump (setLink s0 l { x0 with tagFails := x0.tagFails + 1 }) l lnkTagErr 1
        if x0.tagFails = 0 then sendNak s1 l true
        else postPf (enterFailed (linkBump s1 l lnkLasting 1) l) 0x0042 [(0, 1, l)]
      else sendIdle (deliver (acceptFrame h s0)) l
    else if a ≤ 2047 then sendNak s0 l false
    else s0

/-- A frame without a sequence number at its receiver: a failed tag loses it (R463). -/
def recvPlain (h : FrameHdr) (deliver : State → State) (s : State) : State :=
  let l := h.link
  if (linkOf s l).st != .up then s
  else if !h.parityOk then sendNak (linkBump s l lnkParErr 1) l false
  else if h.vc != 0 then badFrame s h
  else if !h.tagOk then linkBump s l lnkTagErr 1
  else deliver (takeHeader s h)

/-! ## Link control (R350, R352, R355) -/

/-- NAK(E): every unacknowledged frame from E on is sent again; a second NAK(E) after the resend is lasting and sends
the link to RETRAIN (R350, R352). -/
def takeNak (l : Nat) (e : BitVec 12) (s : State) : State :=
  let x := linkOf s l
  if !x.txBuf.any (·.fseq == e) then s
  else if x.resent == some e then enterRetrain (linkBump s l lnkLasting 1) l
  else (x.txBuf.filter fun f => decide ((f.fseq - e).toNat < 2048)).foldl (fun s f => sendAgain s l f) (setLink s l { x with resent := some e })

def execNak (h : FrameHdr) (e : BitVec 12) (s : State) : Host.Outcome State Fault Refusal :=
  .next (recvPlain h (takeNak h.link e) s)

/-- 2 µs without frame E: another NAK (R350). -/
def execNakResendTimer (link : Nat) (s : State) : Host.Outcome State Fault Refusal :=
  let x := linkOf s link
  if x.st = .up ∧ x.nakOpen ∧ x.nakAt + 2000 ≤ s.ftime then .next (sendNak s link true) else .next s

/-- The link of this end that the peer's number names, on the die of the link the frame came in on. -/
def ownLinkOf (s : State) (l named : Nat) : Option Nat :=
  (groupLinks s l).find? fun k => (linkOf s k).peer.map (·.link.toNat) == some named

/-- FOV_REQ: stop accepting on the named link and answer with E (R355). -/
def takeFovReq (l named : Nat) (s : State) : State :=
  match ownLinkOf s l named with
  | none => s
  | some k =>
    let x := linkOf s k
    let e := if x.st = .up then x.rxE else x.downE
    sendOut (setLink s k { x with stopped := true }) l (lctl 3 e named)

def execFovReq (h : FrameHdr) (named : Nat) (s : State) : Host.Outcome State Fault Refusal :=
  .next (recvPlain h (takeFovReq h.link named) s)

/-- Put moved frames ahead of the new frames of a link group, and send what goes (R355). -/
def moveFrames (s : State) (ls : List Nat) (fs : List TxFrame) : State :=
  let b := decide (16 ≤ ls.headD 0)
  ls.foldl drain (setDie s b { dieOf s b with queue := fs.map (fun f => (ls, afresh s f)) ++ (dieOf s b).queue })

/-- FOV_ANS: frames before E are freed, the rest goes to the siblings, or out again on the link itself once it is back
(R355). -/
def takeFovAns (named : Nat) (e : BitVec 12) (s : State) : State :=
  let x := linkOf s named
  let rest := x.txBuf.filter fun f => decide ((f.fseq - e).toNat < 2048)
  let sibs := siblings s named
  let s1 := setLink s named { x with failover := false, txBuf := [] }
  if !x.failover then s
  else if x.st = .up then moveFrames s1 [named] rest
  else if sibs.isEmpty then s
  else moveFrames (linkBump s1 named lnkFailover rest.length) sibs rest

/-- FOV_ANS names this end's own link where a request was sent; a link just returned to UP names the peer's, which
stands for the link the frame came in on. -/
def execFovAns (h : FrameHdr) (named : Nat) (e : BitVec 12) (s : State) : Host.Outcome State Fault Refusal :=
  .next (recvPlain h (fun s =>
    if (linkOf s h.link).failover then takeFovAns h.link e s else takeFovAns named e s) s)

/-- Frames have waited 10 ms with no sibling (R355): they end, and their channels. -/
def execFailoverLimit (link : Nat) (s : State) : Host.Outcome State Fault Refusal :=
  let x := linkOf s link
  match x.leftUpAt with
  | none => .next s
  | some t =>
    if x.st = .up ∨ !x.failover ∨ s.ftime < t + 10000000 ∨ !(siblings s link).isEmpty then .next s
    else
      .next (checkDrained (x.txBuf.foldl endFrame (setLink s link { x with txBuf := [], failover := false })))

/-- The frame of a channel ID that has waited 10 ms in a buffer of a link die, with the die without it (R365): of those that wait for a
link, of multicast frames, and of reduction blocks. -/
def agedFrame (d : LinkDie) (now chan : Nat) : Option (TxFrame × LinkDie) :=
  let old := fun (f : TxFrame) => f.chan.toNat == chan && decide (f.since + 10000000 ≤ now)
  match d.queue.find? fun e => old e.2 with
  | some e => some (e.2, { d with queue := d.queue.erase e })
  | none => match d.mcWait.find? fun e => old e.2 with
    | some e => some (e.2, { d with mcWait := d.mcWait.erase e })
    | none => (d.parked.find? fun p => p.block.tree % 4096 == chan && decide (p.since + 10000000 ≤ now)).map fun p =>
        (blockFrame p.block.tree p.vc p.block, { d with parked := d.parked.erase p })

/-- A frame that has waited 10 ms in a buffer of a link die is discarded, and its channel ends (R365). -/
def execFrameAgeDiscard (dieB : Bool) (chan : Nat) (s : State) : Host.Outcome State Fault Refusal :=
  match agedFrame (dieOf s dieB) s.ftime chan with
  | none => .next s
  | some (f, d) => .next (checkDrained (endFrame (dieBump (setDie s dieB d) dieB dieAgeDiscard) f))

/-- A reserved TYPE, or a VC the type does not permit: discarded and counted (R346). -/
def execReservedFrameType (h : FrameHdr) (type : BitVec 4) (s : State) : Host.Outcome State Fault Refusal :=
  if (linkOf s h.link).st != .up then .next s
  else if !h.parityOk then .next (sendNak (linkBump s h.link lnkParErr 1) h.link false)
  else
    let vcs := match type.toNat with
      | 1 => [1, 2, 3] | 2 => [1, 2] | 3 => [0, 3] | 4 => [0, 3] | 6 => [1, 2]
      | 0 => [0] | 5 => [0] | 7 => [0] | 8 => [0] | 9 => [0] | 10 => [0] | _ => []
    if vcs.contains h.vc.toNat then .next s else .next (badFrame s h)

/-! ## Maintenance (R353, R422) -/

def linkCtrl (op : Nat) (run : Nat → State → State) (e : Entry) (s : State) : Host.Outcome State Fault Refusal :=
  let l := fld e.body 0 1
  let o := fld e.body 1 1
  if o != op && !(op == 0 && decide (2 < o)) then .next s
  else cmd spLinkCtrl .may false (decide (31 < l) || decide (2 < o)) (fun _ s => (resOk, run l s)) e s

/-- LINK_CTRL disable. -/
def execLinkDisable (e : Entry) (s : State) : Host.Outcome State Fault Refusal :=
  linkCtrl 0 (fun l s =>
    let s1 := linkDown s l .disabled
    setLink s1 l { linkOf s1 l with byUango := true, lanes := 0 }) e s

/-- LINK_CTRL enable: a DISABLED link enters TRAIN, unless a JTAG instruction drives the lands (R512). -/
def execLinkEnable (e : Entry) (s : State) : Host.Outcome State Fault Refusal :=
  linkCtrl 1 (fun l s =>
    let x := linkOf s l
    if x.st != .disabled then s
    else setLink s l { x with byUango := false, trainFails := 0, st := if x.scanHeld then .disabled else .train }) e s

/-- LINK_CTRL retrain: a link in UP enters RETRAIN. -/
def execLinkRetrain (e : Entry) (s : State) : Host.Outcome State Fault Refusal :=
  linkCtrl 2 (fun l s => if (linkOf s l).st = .up then enterRetrain s l else s) e s

end Sys2Proof.Machine
end

