-- ==== Sys2Proof/Machine/Service.lean ====
section
/-! DEFINITION. Acts of Uango that several events share: fencing a core (R299, R433) and taking the module out of
service (R32). -/

namespace Sys2Proof.Machine
open Sys2Proof

/-! ## Fencing (R299, R433) -/

/-- A core is a source of a channel's tree: its tasks name the channel, or it contributes to it (R293, R295). -/
def feedsChan (s : State) (core c : Nat) : Bool :=
  let k := coreOf s core
  (chanOf s c).cores.contains core || k.ctxs.any (fun x => match x.2.task with | some t => t.desc.chans.contains c | none => false) ||
  k.saved.any fun v => v.task.desc.chans.contains c

/-- End every reduction tree that a test on channel numbers names (R295). -/
def endTrees (s : State) (p : Nat → Bool) : State := endChans s (fun c x => x.cfg.red && p c) 3

/-- Fills under way: at most one per Fold and two per module (R433). -/
def fillBusy (s : State) (c : Nat) : Bool :=
  let live := s.cores.filter fun k => match k.2.fill with | some .draining => true | some (.testing _ _) => true | _ => false
  decide (2 ≤ live.length) || live.any fun k => foldOf s k.1 == foldOf s c

/-- The start of step 2 of R433: completions count no more. -/
def beginFill (s : State) (c : Nat) : State := setCore s c { coreOf s c with fill := some .draining }

/-- Uango declares a core failed (R431, R433); its passes go with the fence (R120), and the reduction trees it feeds end (R295). -/
def failCore (s : State) (c : Nat) : State :=
  let k := coreOf s c
  if k.fenced || !decide (c < Config.nCores) || s.grid.retired.contains c then s
  else
    let k1 := match k.running with
      | some n => setCtx k n { ctxOf k n with st := .ready }
      | none => k
    let s1 := endTrees (setCore s c { k1 with fenced := true, running := none, fill := some .queued, probed := false, aq := [] })
      (feedsChan s c)
    if fillBusy s c then { s1 with grid := { s1.grid with fillOrder := s1.grid.fillOrder ++ [c] } } else beginFill s1 c

/-! ## Out of service (R32, R282) -/

/-- A core with every context ended. -/
def endedCore (k : Core) : Core :=
  { k with ctxs := [], running := none, aq := [], vq := [], vrun := [], moves := [], eq := [], engOpen := [], held := []
           divide := none, rsrq := [], tagQueue := [], saved := [], saving := [], waiting := [], readTags := 0
           writeTags := 0, sets := [] }

/-- The module leaves service: every context and tenant ends, its channels end, its DMA channels are released as at the end of a
tenant (R321, R426), and it leaves the fabric (R32);
outstanding commands end ABORTED (R427). -/
def moduleLost (s : State) : State :=
  if s.drover.outOfService then s
  else
    let s1 : State :=
      { s with drover := { s.drover with outOfService := true }
               cores := s.cores.map fun k => (k.1, endedCore k.2)
               reqs := s.reqs.filter fun r => match r.who with | .host => true | _ => false }
    let s2 := ((s1.dma.filter fun d => d.2.held).map (·.1)).foldl releaseDma (endChans s1 (fun _ _ => true) 2)
    let s3 := { s2 with tenants := s2.tenants.map fun t => (t.1, { t.2 with handles := [], jobs := [], tables := [] }) }
    let s4 := postAll s3 0x0052 []
    let s5 := (presentFns s4).foldl (fun s fn => onFunc (abortOwed s fn 0x10000) fn fun f => { f with fstate := .lost }) s4
    let s6 := (s5.links.map (·.1)).foldl (fun s l => setLink (linkDown s l .disabled) l
      { linkOf (linkDown s l .disabled) l with lanes := 0 }) s5
    { s6 with fabric := { s6.fabric with acting := false, joined := false }
              folds := s6.folds.map fun f => (f.1, { f.2 with cmds := [], walks := [] }) }

end Sys2Proof.Machine
end

