-- ==== Sys2Proof/Machine/Mesh.lean ====
section
/-! DEFINITION. The on-die network (13): routes, arbitrated outputs, reduction, multicast, failed routers and the
distance table. A packet enters from a unit by a crossing FIFO, waits in the input buffer of each router it passes, and
goes on as credit allows; what a router has forwarded stands in its `out` until the next router or the unit takes it. -/

namespace Sys2Proof.Machine
open Sys2Proof

/-! ## Places -/

def planeOf (s : State) (p : Bool) : Plane := look {} s.planes (b2n p)
def setPlane (s : State) (p : Bool) (x : Plane) : State := { s with planes := put s.planes (b2n p) x }
def routerOf (s : State) (p : Bool) (r : Nat) : Router := look {} (planeOf s p).routers r
def setRouter (s : State) (p : Bool) (r : Nat) (x : Router) : State :=
  setPlane s p { planeOf s p with routers := put (planeOf s p).routers r x }

/-- Router number of a grid position (R18). -/
def rtr (x y : Nat) : Nat := y * 16 + x

/-- Ports by number: N, S, E, W, L, then the X attachments. -/
def portNo (p : Port) : Nat :=
  match p with
  | .north => 0 | .south => 1 | .east => 2 | .west => 3 | .locl => 4 | .near => 5 | .corner => 6 | .die => 7 | .drover => 8

/-- Router counters of R302. -/
def nocHdr : Nat := 4
def nocReplays : Nat := 5
def nocLasting : Nat := 6
def arbRounds : Nat := 7
def arbPreempts : Nat := 8
def arbDiscard : Nat := 9
def arbBites : Nat := 10
def redBlocks : Nat := 11
def mcCopies : Nat := 12
def ejFenced : Nat := 13

/-- The reduction adder, as an arbitrated output and as an input of others (R296). -/
def adderNo : Nat := 9

def rtrBump (s : State) (p : Bool) (r i n : Nat) : State :=
  setRouter s p r { routerOf s p r with counters := bump (routerOf s p r).counters i n }

/-- The neighbours of a router by port (R284). -/
def meshPorts (r : Nat) : List (Nat × Nat) :=
  (if r / 16 < 23 then [(0, r + 16)] else []) ++ (if 0 < r / 16 then [(1, r - 16)] else []) ++
  (if r % 16 < 15 then [(2, r + 1)] else []) ++ (if 0 < r % 16 then [(3, r - 1)] else [])

/-- The port of the neighbour at the other end of a link. -/
def backPort (o : Nat) : Nat := match o with | 0 => 1 | 1 => 0 | 2 => 3 | _ => 2

/-- The neighbour by a port. -/
def nbrAt (r o : Nat) : Option Nat := tabFind (meshPorts r) o

/-- The neighbours that work on a plane. -/
def meshNbrs (failed : List Nat) (r : Nat) : List Nat :=
  if failed.contains r then [] else ((meshPorts r).map (·.2)).filter fun n => !failed.contains n

/-! ## Routes (R288, R289, R300) -/

/-- The routers that attach a destination, and its port there (R288). -/
def attachments (d : Dest) : List Nat × Nat :=
  match d with
  | .core x y => ([rtr x y], 4)
  | .near p => ((List.range 6).map fun i => rtr (if p < 4 then 0 else 15) (6 * (p % 4) + i), 5)
  | .corner k => ([rtr (if k % 2 = 0 then 0 else 15) (if k < 2 then 0 else 23)], 6)
  | .linkDie b => ((List.range 16).map fun x => rtr x (if b then 23 else 0), 7)
  | .drover => ([rtr 7 0, rtr 8 0], 8)
  | .foldUnit f => ([rtr (2 * (f % 8)) (4 * (f / 8))], 4)
  | .group _ => ([], 4)
  | .tree _ => ([], 4)

/-- The attach router for a packet at router `r` with no router failed (R288). -/
def attachXY (d : Dest) (r : Nat) : Nat :=
  let x := r % 16
  let y := r / 16
  match d with
  | .near p => rtr (if p < 4 then 0 else 15) (min (max y (6 * (p % 4))) (6 * (p % 4) + 5))
  | .linkDie b => rtr x (if b then 23 else 0)
  | .drover => if x ≤ 7 then rtr 7 0 else rtr 8 0
  | _ => (attachments d).1.headD r

/-- X first on plane 0, Y first on plane 1 (R288). -/
def xyPort (p : Bool) (r t : Nat) : Nat :=
  let ew := if r % 16 < t % 16 then some 2 else if t % 16 < r % 16 then some 3 else none
  let ns := if r / 16 < t / 16 then some 0 else if t / 16 < r / 16 then some 1 else none
  ((if p then ns else ew).orElse fun _ => if p then ew else ns).getD 4

/-- The root of the up*/down* order: router (7, 0), or the lowest working router where it has failed. -/
def meshRoot (failed : List Nat) : Nat :=
  if failed.contains 7 then ((List.range 384).find? fun r => !failed.contains r).getD 7 else 7

/-- The next router toward `t` over the routers that remain. -/
def detour (failed : List Nat) (r t : Nat) : Option (Nat × Nat) :=
  let nbr := meshNbrs failed
  let lv := levelsFrom nbr 400 (meshRoot failed)
  legalHop nbr lv (legalDist nbr lv 400 t) r

/-- The nearest working attach router (R300). -/
def attachDetour (failed : List Nat) (d : Dest) (r : Nat) : Option Nat :=
  let ts := (attachments d).1.filter fun t => !failed.contains t
  let far := fun t => if t = r then 0 else match detour failed r t with | some h => h.2 | none => 1000
  match ts with
  | [] => none
  | t :: rest =>
    let best := rest.foldl (fun b u => if far u < far b then u else b) t
    if far best = 1000 then none else some best

/-- The port by which a router forwards a packet for a destination, from the tables Uango has written (R289). -/
def portTo (s : State) (p : Bool) (r : Nat) (d : Dest) : Option Nat :=
  let failed := (planeOf s p).tableFor
  if failed.isEmpty then
    let t := attachXY d r
    some (if t = r then (attachments d).2 else xyPort p r t)
  else match attachDetour failed d r with
    | none => none
    | some t =>
      if t = r then some (attachments d).2
      else match detour failed r t with
        | none => none
        | some h => ((meshPorts r).find? fun e => e.2 == h.1).map (·.1)

/-- The routers a packet passes, the first one included. -/
def meshPath (s : State) (p : Bool) (d : Dest) : Nat → Nat → List (Nat × Nat)
  | 0, _ => []
  | n + 1, r =>
    match portTo s p r d with
    | none => []
    | some o =>
      if 4 ≤ o then [(r, o)]
      else match nbrAt r o with
        | none => [(r, o)]
        | some v => (r, o) :: meshPath s p d n v

/-! ## Packets -/

/-- The logical core at a router (R288). -/
def coreAt (s : State) (r : Nat) : Option Nat :=
  (s.grid.map.find? fun e => rtr e.2.1 e.2.2 == r).map (·.1)

/-- The channel that a tree of the mesh feeds (R293). -/
def chanOfTree (s : State) (p : Bool) (t : Nat) : Option Nat :=
  (s.chans.find? fun c => c.2.valid && (meshPlanes c.2.cfg).contains p && c.2.tree == some t).map (·.1)

/-- A write that the watchdog ends may have been applied (R298). -/
def watchReq (s : State) (c : Cause) (id : Nat) : State :=
  match s.reqs.find? (fun r => r.id == id && r.st == .waiting && r.write) with
  | some r => if c = .watchdog then (cutSegs r.segs r.wdata).foldl (fun s e => (anyWrite s e.1 e.2 .watchdog).1) s else s
  | none => s

/-- A packet is ended: its request ends with the cause, a reduction block ends its tree (R287, R298, R300). -/
def endPacket (s0 : State) (p : Bool) (c : Cause) (k : Packet) : State :=
  let s := match k.req with | some id => watchReq s0 c id | none => s0
  let s1 := match k.req with
    | some id => { s with reqs := s.reqs.map fun r => if r.id == id && r.st == .waiting then { r with st := .failed c } else r }
    | none => s
  match k.dest with
  | .tree t => match chanOfTree s1 p t with | some ch => endChan s1 ch 3 | none => s1
  | _ => s1

def endPackets (s : State) (p : Bool) (c : Cause) (ks : List Packet) : State := ks.foldl (fun s k => endPacket s p c k) s

/-- The requester of a packet still waits for its response. -/
def unanswered (s : State) (k : Packet) : Bool :=
  match k.req with | some id => s.reqs.any fun r => r.id == id && r.st == .waiting | none => false

/-! ## Buffers and credit (R286, R301) -/

/-- The flits of a packet (R283). -/
def flits (k : Packet) : Nat := 1 + k.dataFlits

/-- The flits of the packets that satisfy a test. -/
def flitsOf (l : List (Nat × Packet)) (f : Nat × Packet → Bool) : Nat := (l.filter f).foldl (fun n e => n + flits e.2) 0

/-- An input buffer: a port and a virtual channel. -/
def sameBuf (i : Nat) (vc : BitVec 2) (e : Nat × Packet) : Bool := e.1 == i && e.2.vc == vc

/-- What stands at a router's inputs: the input keeps every packet until it has passed whole (R297). -/
def atInputs (x : Router) : List (Nat × Packet) := x.inbuf ++ x.arbs.flatMap fun a => a.2.waiting

/-- An input buffer has a credit for each flit of a packet, `coming` flits being on the link to it (R286). -/
def inRoom (x : Router) (i : Nat) (k : Packet) (coming : Nat) : Bool :=
  decide (flitsOf (atInputs x) (sameBuf i k.vc) + coming + flits k ≤ if k.vc = 0 then 2 else 9)

/-- A crossing FIFO of 16 flits has room (R301). -/
def fifoRoom (l : List (Nat × Packet)) (i : Nat) (k : Packet) : Bool := decide (flitsOf l (fun e => e.1 == i) + flits k ≤ 16)

/-- Outputs that arbitrate: into memory ports and into the link dies (R296). -/
def arbitrated (port : Nat) : Bool := port == 5 || port == 6 || port == 7

def arbOf (s : State) (p : Bool) (r port : Nat) : Arbiter := look {} (routerOf s p r).arbs port
def setArb (s : State) (p : Bool) (r port : Nat) (a : Arbiter) : State :=
  setRouter s p r { routerOf s p r with arbs := put (routerOf s p r).arbs port a }

/-- The L port of a router is closed: its core is fenced, retired or bad (R299). -/
def portClosed (s : State) (r : Nat) : Bool :=
  s.grid.bad.contains (r % 16, r / 16) ||
  match coreAt s r with | some c => (coreOf s c).fenced || s.grid.retired.contains c | none => false

/-- A packet is discarded at a closed L port; what is for the Fold's units is not (R299). -/
def discarded (s : State) (r : Nat) (k : Packet) : Bool :=
  portClosed s r && match k.dest with | .foldUnit _ => false | _ => true

/-- An output takes a packet of an input: a mesh link with credit at the next router, an arbiter, or a FIFO with room. A
down link takes the packets that end there. -/
def takes (s : State) (p : Bool) (r inp o : Nat) (k : Packet) : Bool :=
  let x := routerOf s p r
  x.down.contains o ||
  if arbitrated o then !(look {} x.arbs o).resetting && !(look {} x.arbs o).waiting.any (sameBuf inp k.vc)
  else match nbrAt r o with
    | some n => inRoom (routerOf s p n) (backPort o) k (flitsOf x.out (sameBuf o k.vc))
    | none => (o == 4 && discarded s r k) || fifoRoom x.out o k

/-- The flits forwarded on an output, and the packets with their error flag set (R302). -/
def countFlits (cs : Tab Nat) (k : Packet) : Tab Nat :=
  let c := bump cs k.vc.toNat (flits k)
  if k.err then bump c nocLasting 1 else c

/-- A packet has left by a port. One that reaches its unit with the error flag is lasting there (R287). -/
def leave (s : State) (p : Bool) (r port : Nat) (k : Packet) : State :=
  let x := routerOf s p r
  let s1 := setRouter s p r { x with out := x.out ++ [(port, k)], counters := countFlits x.counters k }
  if decide (4 ≤ port) && k.err then endPacket s1 p .memError k else s1

/-- A packet of an input leaves a router by a port, or waits at the arbiter of an arbitrated output (R287, R296, R299, R300). -/
def emit (s : State) (p : Bool) (r inp port : Nat) (k : Packet) : State :=
  let x := routerOf s p r
  if x.down.contains port then endPacket s p .memError k
  else if port == 4 && discarded s r k then endPacket (rtrBump s p r ejFenced 1) p .memError k
  else if arbitrated port then
    let a := look ({} : Arbiter) x.arbs port
    setRouter s p r { x with arbs := put x.arbs port { a with waiting := a.waiting ++ [(inp, k)] } }
  else leave s p r port k

/-! ## Rounds (R296) -/

/-- Inputs in round-robin order L, N, E, S, W after the last one granted; the X inputs and the adder follow W (log entry 50). -/
def robin (last : Nat) : List Nat :=
  let order := [4, 0, 2, 1, 3, 5, 6, 7, 8, 9]
  let i := (order.findIdx? (· == last)).getD 9
  (List.range 10).map fun j => order.getD ((i + 1 + j) % 10) 4

/-- The first packet of an input. -/
def headOf (a : Arbiter) (i : Nat) : Option Packet := (a.waiting.find? fun e => e.1 == i).map (·.2)

/-- The best of the requesting inputs: the highest P, ties in round-robin order. -/
def bestInput (a : Arbiter) (ins : List Nat) : Option Nat :=
  match (robin a.last).filter ins.contains with
  | [] => none
  | i :: t => some (t.foldl (fun b j => if look 0 a.prio b < look 0 a.prio j then j else b) i)

/-- A round among requesting inputs: the winner's P is its grant priority, the losers' P rise (R296). -/
def round (now : Nat) (a : Arbiter) (w : Nat) (losers : List Nat) : Arbiter :=
  { a with holder := some (w, look 0 a.prio w), last := w, passed := 1, since := now
           prio := losers.foldl (fun t i => put t i (min 15 (look 0 t i + 1))) a.prio }

/-! ## Reduction (R293, R294) -/

def packetBlock (t : Nat) (k : Packet) : RedSlot :=
  { tree := t, seq := k.seq, arrived := [], sum := k.elems, poison := k.poison || k.err }

def treeNo (d : Dest) : Option Nat := match d with | .tree t => some t | _ => none

/-- The virtual channel of a tree (R293). -/
def treeVc (s : State) (p : Bool) (t : Nat) : BitVec 2 :=
  match chanOfTree s p t with | some c => (chanOf s c).cfg.vc | none => 3

/-- A block may be added: it need not wait, or its tree is no more (R294, R295). -/
def addable (x : Router) (e : Nat × Packet) : Bool :=
  match treeNo e.2.dest with
  | some t => match tabFind x.trees t with
    | some w => w.ended || !redWaits x.slots w.reserve e.1 (packetBlock t e.2)
    | none => true
  | none => false

/-- The adder grants one of the blocks that request it, which passes in its grant cycle (R296, R297); the block is added (R294). -/
def addBlock (s : State) (p : Bool) (r inp : Nat) (ins : List Nat) (k : Packet) : State :=
  let x := routerOf s p r
  match treeNo k.dest with
  | none => s
  | some t =>
    if !(tabFind x.trees t).any (!·.ended) then s
    else
      let a := round s.ftime (look {} x.arbs adderNo) inp (ins.erase inp)
      setRouter s p r { x with
        slots := (redPut x.slots inp (packetBlock t k)).1
        arbs := put x.arbs adderNo { a with holder := none, passed := 0, prio := put a.prio inp 0 }
        counters := bump (bump x.counters arbRounds 1) redBlocks 1 }

/-- The packet of a finished sum. -/
def sumPacket (s : State) (p : Bool) (q : RedSlot) : Packet :=
  { id := 0, dest := .tree q.tree, vc := treeVc s p q.tree, dataFlits := 1, seq := q.seq, elems := q.sum, poison := q.poison }

/-- The output of a slot that every port of the input mask has reached. -/
def doneSlot (x : Router) (q : RedSlot) : Option Nat :=
  match tabFind x.trees q.tree with
  | some e => if e.inMask.all q.arrived.contains then some e.out else none
  | none => none

/-- A finished sum that its output takes. -/
def readySum (s : State) (p : Bool) (r : Nat) : Option (RedSlot × Nat) :=
  let x := routerOf s p r
  x.slots.findSome? fun q => match doneSlot x q with
    | some o => if takes s p r adderNo o (sumPacket s p q) then some (q, o) else none
    | none => none

/-- A finished sum is forwarded, and its slot is free (R294). -/
def sendSum (s : State) (p : Bool) (r : Nat) (q : RedSlot) (o : Nat) : State :=
  let x := routerOf s p r
  emit (setRouter s p r { x with slots := x.slots.filter fun e => !(e.tree == q.tree && e.seq == q.seq) }) p r adderNo o
    (sumPacket s p q)

/-! ## A router's work (R286, R292) -/

/-- The packets at the head of their input buffers. -/
def headsOf : List (Nat × Packet) → List (Nat × BitVec 2) → List (Nat × Packet)
  | [], _ => []
  | e :: t, seen => if seen.contains (e.1, e.2.vc) then headsOf t seen else e :: headsOf t ((e.1, e.2.vc) :: seen)

/-- Those of a router: a packet at an arbiter holds what stands behind it. -/
def heads (x : Router) : List (Nat × Packet) :=
  headsOf x.inbuf ((x.arbs.flatMap fun a => a.2.waiting).map fun e => (e.1, e.2.vc))

/-- The outputs of a packet. -/
def outsOf (s : State) (p : Bool) (r : Nat) (k : Packet) : List Nat :=
  match k.dest with
  | .group g => look [] (routerOf s p r).groups g
  | .tree _ => []
  | d => (portTo s p r d).toList

/-- Place of a head in the order of an output: VC0 first, then round-robin among VC1 to VC3, then among inputs (R286). -/
def rank (s : State) (p : Bool) (r : Nat) (e : Nat × Packet) : Nat :=
  let turn := look (3, 4) (routerOf s p r).turns ((outsOf s p r e.2).headD 4)
  (if e.2.vc = 0 then 0 else 1 + (e.2.vc.toNat + 2 - turn.1) % 3) * 16 + ((robin turn.2).findIdx? (· == e.1)).getD 15

/-- The head that goes next: its outputs all take it (R292). -/
def nextHead (s : State) (p : Bool) (r : Nat) : Option (Nat × Packet) :=
  match (heads (routerOf s p r)).filter fun e => (treeNo e.2.dest).isNone && (outsOf s p r e.2).all fun o => takes s p r e.1 o e.2 with
  | [] => none
  | e :: t => some (t.foldl (fun b c => if rank s p r c < rank s p r b then c else b) e)

/-- A packet goes on its route: copied to every output of its group (R292), or ended where no route is left. -/
def forward (s : State) (p : Bool) (r inp : Nat) (k : Packet) : State :=
  match outsOf s p r k with
  | [] => endPacket s p .memError k
  | o :: t =>
    let x := routerOf s p r
    let turns := if k.vc = 0 then x.turns else put x.turns o (k.vc.toNat, inp)
    let s1 := setRouter s p r { x with turns := turns, counters := bump x.counters mcCopies t.length }
    (o :: t).foldl (fun s o => emit s p r inp o k) s1

/-- One move of a router: a finished sum, a block into the adder, or a packet on its route. -/
def moveOne (s : State) (p : Bool) (r : Nat) : Option State :=
  let x := routerOf s p r
  let drop := fun e => setRouter s p r { x with inbuf := x.inbuf.erase e }
  match readySum s p r with
  | some e => some (sendSum s p r e.1 e.2)
  | none =>
    let blocks := (heads x).filter (addable x)
    let ins := (blocks.map (·.1)).eraseDups
    match (bestInput (look {} x.arbs adderNo) ins).bind fun i => blocks.find? fun e => e.1 == i with
    | some e => some (addBlock (drop e) p r e.1 ins e.2)
    | none => (nextHead s p r).map fun e => forward (drop e) p r e.1 e.2

/-- A router moves what it can. -/
def pump (p : Bool) (r : Nat) : Nat → State → State
  | 0, s => s
  | n + 1, s => match moveOne s p r with
    | some s1 => pump p r n s1
    | none => s

/-- Each packet moves at most into the adder and out of it, or out. -/
def settleRouter (s : State) (p : Bool) (r : Nat) : State :=
  pump p r (2 * (routerOf s p r).inbuf.length + (routerOf s p r).slots.length) s

/-! ## Injection (R284, R285, R299 to R301) -/

/-- The plane a unit picks for a packet that comes in by port `inp` of router `r` (R285): plane 0 for VC0; the recorded plane for
a tree, a group and channel traffic, whose link die stands on that plane; bit 10 of the physical address for a request and a DMA
burst; for a response the plane of its request, where the sender names none in `req` the one it gives. -/
def pickPlane (s : State) (p : Bool) (r inp : Nat) (k : Packet) : Bool :=
  if k.vc = 0 then false
  else match k.dest, k.req.bind fun id => s.reqs.find? fun q => q.id == id with
    | .tree _, _ => p
    | .group _, _ => p
    | _, some q => match q.segs with | g :: _ => g.1.testBit 10 | [] => p
    | .linkDie b, none => if k.vc = 3 then b else p
    | _, none => if k.vc = 2 then p else if inp = 7 then decide (16 ≤ r) else k.addr.testBit 10

/-- A plane holds a flit that satisfies a test (R300). -/
def holdsFlit (x : Plane) (f : Packet → Bool) : Bool :=
  x.routers.any fun r => (atInputs r.2).any (fun e => f e.2) || r.2.out.any fun e => decide (e.1 < 4) && f e.2

/-- The plane a packet of a FIFO enters: VC0 uses plane 1 while plane 0 is rerouted (R285, R300). -/
def entryPlane (s : State) (p : Bool) (k : Packet) : Bool :=
  p || (k.vc == 0 && (planeOf s false).rerouting)

/-- A packet may enter: its plane is open, VC0 on plane 1 only once plane 0 holds no VC0 flit and on neither while the failure of
one plane waits for the reroute of the other (R300), its L port is neither closed nor stopped, 8 NCLK cycles have passed since the last VC0 packet of the point, and the input buffer has room. -/
def mayEnter (s : State) (p : Bool) (r : Nat) (e : Nat × Packet) : Bool :=
  let q := entryPlane s p e.2
  let unit := e.2.unit != 0 && r % 2 == 0 && r / 16 % 4 == 0
  !(planeOf s q).rerouting && !(e.2.vc == 0 && ((planeOf s false).waiting || (planeOf s true).waiting)) && !(q != p && holdsFlit (planeOf s false) fun k => k.vc == 0) &&
  (e.1 != 4 || ((unit || !portClosed s r) && !(look {} s.bands (r / 64)).stopped)) &&
  (e.2.vc != 0 || match tabFind (routerOf s p r).vc0At (4 * e.1 + e.2.unit.toNat) with
    | some t => decide (16 ≤ 3 * (s.ftime - t))
    | none => true) &&
  inRoom (routerOf s q r) e.1 e.2 0

/-- The packets of the FIFOs that come first of their unit and virtual channel, VC0 before the others; at the L port the units
take turns (R284). -/
def entrants (s : State) (p : Bool) (r : Nat) : List (Nat × Packet) :=
  let x := routerOf s p r
  let hs := headsOf (x.fifo.map fun e => (4 * e.1 + e.2.unit.toNat, e.2)) []
  let may := (hs.map fun e => (e.1 / 4, e.2)).filter (mayEnter s p r)
  let turn := fun (i : Nat) => may.filter fun e => (e.2.unit.toNat + 3 - x.unitTurn) % 4 == i
  let all := (List.range 4).flatMap turn
  (all.filter fun e => e.2.vc == 0) ++ all.filter fun e => e.2.vc != 0

/-- One packet enters an input buffer from its FIFO, and the router moves what it can. -/
def enterOne (s : State) (p : Bool) (r : Nat) (e : Nat × Packet) : State :=
  let x := routerOf s p r
  let s1 := setRouter s p r { x with
    fifo := x.fifo.erase e
    unitTurn := if e.1 = 4 then e.2.unit.toNat else x.unitTurn
    vc0At := if e.2.vc = 0 then put x.vc0At (4 * e.1 + e.2.unit.toNat) s.ftime else x.vc0At }
  let q := entryPlane s p e.2
  let y := routerOf s1 q r
  settleRouter (setRouter s1 q r { y with inbuf := y.inbuf ++ [e] }) q r

def enterAll (p : Bool) (r : Nat) : Nat → State → State
  | 0, s => s
  | n + 1, s => match entrants s p r with
    | e :: _ => enterAll p r n (enterOne s p r e)
    | [] => s

/-- A router's turn: what it can move, and what can enter. -/
def work (s : State) (p : Bool) (r : Nat) : State :=
  let s1 := settleRouter s p r
  enterAll p r (routerOf s1 p r).fifo.length s1

/-- A packet comes in by a port: from the neighbour's link, or from a unit into its FIFO. What has no room is held back by credit. -/
def arrive (s : State) (p : Bool) (r inp : Nat) (sent k : Packet) : State :=
  match nbrAt r inp with
  | some n =>
    let y := routerOf s p n
    let s1 := setRouter s p n { y with out := y.out.erase (backPort inp, sent) }
    let x := routerOf s1 p r
    if inRoom x inp k 0 then work (setRouter s1 p r { x with inbuf := x.inbuf ++ [(inp, k)] }) p r else s
  | none =>
    let q := pickPlane s p r inp k
    let x := routerOf s q r
    if fifoRoom x.fifo inp k then work (setRouter s q r { x with fifo := x.fifo ++ [(inp, k)] }) q r else s

/-- A reduction block arrives at a router (R294). -/
def execReductionBlockArrival (plane : Bool) (rx ry : Nat) (inp : Port) (pkt : Packet) (s : State) :
    Host.Outcome State Fault Refusal :=
  if (treeNo pkt.dest).isNone || !pkt.carried || !inp.at rx ry then .next s
  else .next (arrive s plane (rtr rx ry) (portNo inp) pkt pkt)

/-! ## Failed routers (R299, R300) -/

/-- The packets in a failed router and on the links to it are ended (log entry 174). -/
def dropFailed (s : State) (p : Bool) (r : Nat) : State :=
  let x := routerOf s p r
  let away := (atInputs x ++ x.fifo ++ x.out.filter fun e => decide (e.1 < 4)).map (·.2)
  let s1 := setRouter s p r { x with inbuf := [], fifo := [], out := x.out.filter (fun e => decide (4 ≤ e.1))
                                     arbs := x.arbs.map fun a => (a.1, { a.2 with waiting := [], holder := none, passed := 0 }) }
  let near := (meshPorts r).flatMap fun n => ((routerOf s1 p n.2).out.filter fun e => e.1 == backPort n.1).map (·.2)
  let s2 := (meshPorts r).foldl (fun s n =>
    let y := routerOf s p n.2
    let back := backPort n.1
    setRouter s p n.2 { y with down := if y.down.contains back then y.down else y.down ++ [back]
                               out := y.out.filter fun e => e.1 != back }) s1
  endPackets s2 p .memError (away ++ near)

/-- Uango takes a router of one plane as failed: its core is fenced, the neighbours mark their links down, and the plane
is rerouted, or waits for the other plane (R300). -/
def failRouter (s : State) (p : Bool) (r : Nat) : State :=
  let x := routerOf s p r
  if x.failed then s
  else
    let s2 := dropFailed (setRouter s p r { x with failed := true }) p r
    let q := planeOf s2 p
    let wait := !q.rerouting && (planeOf s2 (!p)).rerouting
    let s3 := setPlane s2 p { q with rerouting := !wait, waiting := wait || q.waiting, newFailed := q.newFailed ++ [r] }
    match coreAt s3 r with
    | some c => failCore s3 c
    | none => s3

def execRouterFailure (plane : Bool) (rx ry : Nat) (s : State) : Host.Outcome State Fault Refusal :=
  if rx < 16 ∧ ry < 24 then .next (failRouter s plane (rtr rx ry)) else .next s

/-! ## The distance table (R290, R291) -/

/-- HOPS: the longer of the two planes' routes. -/
def hopsTo (s : State) (r : Nat) (d : Dest) : Nat :=
  max ((meshPath s false d 400 r).length - 1) ((meshPath s true d 400 r).length - 1)

/-- Entry of a logical core for a target. -/
def distEntry (s : State) (c j : Nat) : Nat :=
  if 14 ≤ j then 0
  else if s.grid.retired.contains c then 256
  else
    let p := placeOf s c
    let h := hopsTo s (rtr p.1 p.2) (if j < 8 then .near j else if j < 12 then .corner (j - 8) else .linkDie (j == 13))
    let lat := if j < 8 then (260 + 4 * h, 520 + 8 * h) else if j < 12 then (210 + 4 * h, 380 + 8 * h) else (12 + 2 * h, 24 + 4 * h)
    h % 256 + lat.1 * 2 ^ 16 + lat.2 * 2 ^ 32

/-- The bytes of the table. -/
def distBytes (s : State) : List Byte :=
  toBytes 64 (s.grid.distVersion.toNat + 352 * 2 ^ 16 + 14 * 2 ^ 32) ++
  (List.range (352 * 16)).flatMap fun i => toBytes 8 (distEntry s (i / 16) (i % 16))

/-- Replace a range of memory by bytes. -/
def writeBlock (m : List Host.Cell) (a : Nat) (bs : List Byte) : List Host.Cell :=
  (m.filter fun c => c.1 < a) ++ ((bs.zipIdx.filter fun b => b.1 != 0).map fun b => (a + b.2, b.1)) ++
  m.filter fun c => a + bs.length ≤ c.1

/-- Uango updates the table: VERSION rises by 2 (R291). -/
def writeDist (s : State) (bumpBy : Nat) : State :=
  let s1 := { s with grid := { s.grid with distVersion := s.grid.distVersion + BitVec.ofNat 16 bumpBy } }
  match s1.grid.distFrame with
  | none => s1
  | some f => { s1 with mem := writeBlock s1.mem (f * Config.page2M) (distBytes s1) }

/-! ## Trees and groups of a channel on the mesh (R292, R293, R300) -/

/-- The router at which a channel's tree or group meets its link die: the nearest to column 7 that works (log entry 28). -/
def dieRouter (s : State) (p die : Bool) : Nat :=
  let far := fun (r : Nat) => (r % 16 - 7) + (7 - r % 16)
  match (attachments (.linkDie die)).1.filter fun r => !(planeOf s p).tableFor.contains r with
  | [] => rtr 7 (if die then 23 else 0)
  | r :: t => t.foldl (fun b q => if far q < far b then q else b) r

/-- The paths of a tree: each contributing core's route to the link die. -/
def treeRoutes (s : State) (p die : Bool) (cores : List Nat) : List (List (Nat × Nat)) :=
  let t := dieRouter s p die
  cores.map fun c => let q := placeOf s c; meshPath s p (.core (t % 16) (t / 16)) 400 (rtr q.1 q.2)

/-- The entry of a router on those paths: inputs are the core's L port and the ports of the hops before it; the last
router's output is the link die. -/
def treeEntryAt (paths : List (List (Nat × Nat))) (r : Nat) : TreeEntry :=
  let into := paths.flatMap fun w => ((w.zip (w.drop 1)).filter fun e => e.2.1 == r).map fun e => backPort e.1.2
  let own := if paths.any (fun w => (w.head?.map (·.1)) == some r) then [4] else []
  let out := (paths.findSome? fun w => (w.find? fun e => e.1 == r).map (·.2)).getD 4
  { inMask := (own ++ into).eraseDups, out := if out = 4 then 7 else out, reserve := 2 }

/-- Reserved slots of a router (R293). -/
def reserved (x : Router) : Nat := x.trees.foldl (fun n e => n + e.2.reserve) 0

/-- Install a tree on a plane of the mesh for contributing cores; none where a router lacks slots (R293). -/
def installTree (s : State) (p die : Bool) (t : Nat) (cores : List Nat) : Option State :=
  let paths := treeRoutes s p die cores
  let rs := (paths.flatMap fun w => w.map (·.1)).eraseDups
  if rs.any fun r => decide (96 < reserved { routerOf s p r with trees := del (routerOf s p r).trees t } + 2) then none
  else some (rs.foldl (fun s r =>
    let x := routerOf s p r
    setRouter s p r { x with trees := put x.trees t (treeEntryAt paths r) }) s)

/-- The same on several planes. -/
def installTrees (die : Bool) (t : Nat) (cores : List Nat) : List Bool → State → Option State
  | [], s => some s
  | p :: ps, s => (installTree s p die t cores).bind (installTrees die t cores ps)

/-- The cores that contribute to a channel: the first bound cores of its tenant (log entry 28). -/
def contributors (s : State) (t n : Nat) : List Nat := ((s.cores.filter fun k => k.2.tenant == some t).map (·.1)).take n

/-- Two channels share a plane of the mesh. -/
def sharePlane (a b : ChanCfg) : Bool := (meshPlanes a).any (meshPlanes b).contains

/-- The lowest tree ID free on the planes of a channel. -/
def freeTree (s : State) (g : ChanCfg) : Option Nat :=
  (List.range 256).find? fun t => !s.chans.any fun c => c.2.valid && sharePlane c.2.cfg g && c.2.tree == some t

/-- The lowest multicast group free on the planes of a channel (R292). -/
def freeMcast (s : State) (cfg : ChanCfg) : Option Nat :=
  (List.range 256).find? fun g => !s.chans.any fun c => c.2.valid && !c.2.ended && sharePlane c.2.cfg cfg && c.2.mcast == some g

/-- The hops of a path after the last router that `seen` holds: the branch it adds to the tree. -/
def branch (seen : List Nat) (w : List (Nat × Nat)) : List (Nat × Nat) :=
  let i := ((w.zipIdx.filter fun e => seen.contains e.1.1).map (·.2)).foldl max 0
  w.drop i

/-- The hops of a group: a tree along the plane's routes from the link die to every core (R292). -/
def groupHops (paths : List (List (Nat × Nat))) : List (Nat × Nat) :=
  paths.foldl (fun acc w => acc ++ (branch (acc.map (·.1)) w).filter fun e => !acc.contains e) []

/-- Install a multicast group: a router's output mask holds each hop out of it (R292). -/
def installMcast (s : State) (p die : Bool) (g : Nat) (cores : List Nat) : State :=
  let t := dieRouter s p die
  let hops := groupHops (cores.map fun c => let q := placeOf s c; meshPath s p (.core q.1 q.2) 400 t)
  ((hops.map (·.1)).eraseDups).foldl (fun s r =>
    let x := routerOf s p r
    setRouter s p r { x with groups := put x.groups g ((hops.filter fun e => e.1 == r).map (·.2)) }) s

/-- Rewrite the trees and multicast masks of a plane after a reroute (R300). -/
def rewriteTrees (s : State) (p : Bool) : State :=
  s.chans.foldl (fun s c =>
    if c.2.valid && !c.2.ended && (meshPlanes c.2.cfg).contains p then
      let s1 := match c.2.mcast with
        | some g => installMcast (onRouters s p fun r => { r with groups := del r.groups g }) p c.2.cfg.plane g c.2.cores
        | none => s
      match c.2.tree with
      | some t => (installTree (onRouters s1 p (removeTree t)) p c.2.cfg.plane t c.2.cores).getD (endChan s1 c.1 3)
      | none => s1
    else s) s

/-- A Near port has no working attach router on either plane (R300). -/
def portLost (s : State) (n : Nat) : Bool :=
  (attachments (.near n)).1.all fun r => (routerOf s false r).failed && (routerOf s true r).failed

/-- Once the plane holds no flit, Uango writes its tables, and injection resumes (R300 steps 3 to 6). -/
def execPlaneDrained (plane : Bool) (s : State) : Host.Outcome State Fault Refusal :=
  let q := planeOf s plane
  if !q.rerouting || holdsFlit q (fun _ => true) then .next s
  else
    let failed := (q.routers.filter fun r => r.2.failed).map (·.1)
    let s1 := setPlane s plane { q with rerouting := false, newFailed := [], tableFor := failed }
    let o := planeOf s1 (!plane)
    let s2 := if o.waiting then setPlane s1 (!plane) { o with waiting := false, rerouting := true } else s1
    let s3 := writeDist (rewriteTrees s2 plane) 2
    .next (if (List.range 8).any (portLost s3) then moduleLost s3 else s3)

/-! ## Flits (R287) -/

/-- The replay of a header fails: the sending router ends every request in the link's replay buffer, the link is marked failed, and
the router it joins is rerouted around (R287, R300). -/
def headerLost (s : State) (p : Bool) (r inp : Nat) (k : Packet) : State :=
  let s1 := rtrBump s p r nocReplays 1
  match nbrAt r inp with
  | some n =>
    let y := routerOf s1 p n
    let gone := ((y.out.filter fun e => e.1 == backPort inp).map (·.2))
    failRouter (endPackets (setRouter s1 p n { y with out := y.out.filter fun e => e.1 != backPort inp }) p .memError gone) p r
  | none => failRouter (endPacket s1 p .memError k) p r

/-- A flit arrives at a router: its code is checked, and its packet goes on (R287). A header whose replay fails marks
the link failed, and the router it joins is rerouted around (R300). -/
def execFlitReceive (plane : Bool) (rx ry : Nat) (inp : Port) (pkt : Packet) (chk : FlitCheck) (s : State) :
    Host.Outcome State Fault Refusal :=
  let r := rtr rx ry
  let i := portNo inp
  if !decide (rx < 16 ∧ ry < 24) || !pkt.carried || !inp.at rx ry then .next s
  else match chk with
  | .good => .next (arrive s plane r i pkt pkt)
  | .headerCorrected => .next (arrive (rtrBump s plane r nocHdr 1) plane r i pkt pkt)
  | .replayed =>
    let s1 := rtrBump s plane r nocReplays 1
    .next (arrive { s1 with plover := { s1.plover with dieReplay := s1.plover.dieReplay + 1 } } plane r i pkt pkt)
  | .dataLasting =>
    .next (arrive (rtrBump s plane r nocReplays 1) plane r i pkt { pkt with err := true, poison := true, elems := [] })
  | .headerLasting => .next (headerLost s plane r i pkt)

/-! ## Arbitration (R296 to R298) -/

/-- The grant watchdog has reached its limit of 65,536 NCLK cycles, at 1.5 GHz (R283, R298). -/
def overdue (s : State) (a : Arbiter) : Bool := a.holder.isSome && decide (2 * 65536 ≤ 3 * (s.ftime - a.since))

/-- The holder's packet has passed whole, where the unit's FIFO has room: it is accepted, and the input's P returns to 0
(R296, R301). A tree's sum that has passed into the die-to-die interface is the LOCAL input of the link die (R371). -/
def passed (s : State) (p : Bool) (r port i : Nat) : State :=
  let a := arbOf s p r port
  match headOf a i with
  | none => setArb s p r port { a with holder := none, passed := 0 }
  | some k =>
    if !fifoRoom (routerOf s p r).out port k then s
    else
      let s1 := setArb s p r port { a with holder := none, passed := 0, prio := put a.prio i 0, waiting := a.waiting.erase (i, k)
                                           accepted := (a.accepted ++ [k]).filter (unanswered s) }
      match k.dest with
      | .tree t =>
        let s2 := setRouter s1 p r { routerOf s1 p r with counters := countFlits (routerOf s1 p r).counters k }
        match chanOfTree s2 p t with
        | some c => treeAdd s2 (decide (16 ≤ r)) 16 k.vc { packetBlock t k with tree := chanTreeKey s2 c }
        | none => s2
      | _ => leave s1 p r port k

/-- A packet that passes in its grant cycle: one without data flits, or a reduction block (R297). -/
def oneFlit (k : Packet) : Bool := k.dataFlits == 0 || (treeNo k.dest).isSome

/-- The winner takes the output, and its first flit passes; a single-flit packet passes in its grant cycle (R297). -/
def grant (s : State) (p : Bool) (r port w : Nat) (ins : List Nat) : State :=
  let a := arbOf s p r port
  let s1 := rtrBump (setArb s p r port (round s.ftime a w (ins.erase w))) p r arbRounds 1
  match headOf a w with
  | some k => if oneFlit k then passed s1 p r port w else s1
  | none => s1

/-- The waiting input with P above the holder's grant priority that takes the grant (R297). -/
def contender (a : Arbiter) : Option Nat :=
  match a.holder with
  | none => none
  | some (h, g) => bestInput a (((a.waiting.map (·.1)).eraseDups).filter fun i => i != h && decide (g < look 0 a.prio i))

/-- It pre-empts the holder, whose flits that have passed are discarded (R297). -/
def preempt (s : State) (p : Bool) (r port w : Nat) : State :=
  let a := arbOf s p r port
  let x := routerOf s p r
  grant (setRouter s p r { x with counters := bump (bump x.counters arbPreempts 1) arbDiscard a.passed }) p r port w
    ((a.waiting.map (·.1)).eraseDups)

/-- An output whose reset or overdue grant holds every round back (R298). -/
def arbHeld (s : State) (a : Arbiter) : Bool := a.resetting || overdue s a

/-- One NCLK cycle of an arbitrated output: a waiting input above the grant priority pre-empts; else the next flit of the holder's
packet passes, with the last of which the output is free; or the inputs that request the free output hold a round (R296, R297). -/
def execArbitrationRound (plane : Bool) (rx ry : Nat) (outp : Port) (s : State) : Host.Outcome State Fault Refusal :=
  let r := rtr rx ry
  let port := portNo outp
  let a := arbOf s plane r port
  if !arbitrated port || arbHeld s a then .next s
  else match contender a with
  | some w => .next (work (preempt s plane r port w) plane r)
  | none =>
    match a.holder with
    | some h =>
      if (headOf a h.1).any fun k => !oneFlit k && decide (a.passed + 1 < flits k) then
        .next (setArb s plane r port { a with passed := a.passed + 1 })
      else .next (work (passed s plane r port h.1) plane r)
    | none =>
      let ins := (a.waiting.map (·.1)).eraseDups
      match bestInput a ins with
      | none => .next s
      | some w => .next (work (grant s plane r port w ins) plane r)

/-- A waiting input with P above the holder's grant priority takes the grant (R297); a grant of 15 is never taken. -/
def execArbPreempt (plane : Bool) (rx ry : Nat) (outp : Port) (s : State) : Host.Outcome State Fault Refusal :=
  let r := rtr rx ry
  let port := portNo outp
  if arbHeld s (arbOf s plane r port) then .next s
  else match contender (arbOf s plane r port) with
  | some w => .next (work (preempt s plane r port w) plane r)
  | none => .next s

/-- What stands in the inputs of an output: at its arbiter, and behind, for that output. -/
def pendingOn (s : State) (p : Bool) (r port : Nat) : List Packet :=
  ((arbOf s p r port).waiting.map (·.2)) ++
  ((routerOf s p r).inbuf.filter fun e => (outsOf s p r e.2).contains port).map (·.2)

/-- The grant watchdog bites at its limit: the output and its inputs are reset, every pending request ends with WATCHDOG, and Uango
is told (R298). -/
def execGrantWatchdogBite (plane : Bool) (rx ry : Nat) (outp : Port) (s : State) : Host.Outcome State Fault Refusal :=
  let r := rtr rx ry
  let port := portNo outp
  let a := arbOf s plane r port
  if !overdue s a then .next s
  else
    let gone := pendingOn s plane r port ++ a.accepted.filter (unanswered s)
    let x := routerOf s plane r
    let s1 := setRouter s plane r { x with
      inbuf := x.inbuf.filter fun e => !(outsOf s plane r e.2).contains port
      arbs := put x.arbs port { last := a.last, resetting := true, since := s.ftime }
      counters := bump x.counters arbBites 1 }
    let s2 := endPackets s1 plane .watchdog gone
    let s3 := { s2 with plover := { s2.plover with dieReplay := s2.plover.dieReplay + 1 } }
    .next (postPf s3 0x0023 [(0, 1, rx), (1, 1, ry), (2, 1, b2n plane), (3, 1, port)])

/-- The 256 NCLK cycles of an output's reset end (R298). -/
def execOutputResetEnd (plane : Bool) (rx ry : Nat) (outp : Port) (s : State) : Host.Outcome State Fault Refusal :=
  let a := arbOf s plane (rtr rx ry) (portNo outp)
  if a.resetting && decide (2 * 256 ≤ 3 * (s.ftime - a.since)) then
    .next (work (setArb s plane (rtr rx ry) (portNo outp) { a with resetting := false }) plane (rtr rx ry))
  else .next s

/-! ## The passing of time (R301) -/

/-- The units take what the FIFOs hold for them; the L port of a stopped band takes nothing. Then each router does what it can. -/
def meshTick (s : State) : State :=
  let left := fun (r : Nat) (e : Nat × Packet) => decide (e.1 < 4) || (e.1 == 4 && (look {} s.bands (r / 64)).stopped)
  let s1 : State := { s with planes := s.planes.map fun p => (p.1, { p.2 with routers := p.2.routers.map fun r =>
    (r.1, { r.2 with out := r.2.out.filter (left r.1) }) }) }
  let all := s1.planes.flatMap fun p => p.2.routers.map fun r => (p.1 == 1, r.1)
  all.foldl (fun s e => work s e.1 e.2) s1

end Sys2Proof.Machine
end

