-- ==== Sys2Proof/Machine/Frames.lean ====
section
/-! DEFINITION. What a link die makes of an accepted frame: it is copied, added, forwarded, or delivered to a channel of
this module (R307, R316, R347, R363, R369 to R372, R375). -/

namespace Sys2Proof.Machine
open Sys2Proof

/-- The fault cause of a code (R80). -/
def causeOfCode (n : Nat) : Cause :=
  ([Cause.translation, .permission, .memError, .integrity, .illegalInstr, .tileConfig, .align, .bounds, .watchdog, .poison,
    .semOverflow, .taskStateDirty].find? fun c => causeCode c == n).getD .aborted

/-! ## Forwarding (R363, R364) -/

/-- The route of a frame in transit: by the table whose version has the same bit 0 as RV. -/
def transit (d : LinkDie) (rv : Bool) (dest : Nat) : Option Route :=
  let t := if d.version.getLsbD 0 == rv then some d.cur else if d.hasPrev then some d.prev else none
  match t with
  | none => none
  | some t =>
    let r := look ({} : Route) t dest
    if r.valid then some r else none

/-- A frame passes on to another module, by the table version that it names. A record of Uango whose destination has no route yet goes
straight to a neighbour, where it is one (log entry 189). -/
def relay (s : State) (die rv : Bool) (f : TxFrame) : State :=
  let s1 := if rv != (dieOf s die).version.getLsbD 0 then setDie s die { dieOf s die with oldAt := s.ftime } else s
  match transit (dieOf s1 die) rv f.dest.toNat with
  | some r => toLinks s1 (routeLinks die r) { f with rv := rv }
  | none => if f.kind = 9 then toLinks s1 (wayTo s1 f.dest.toNat) f else fabSend s1 11 f.dest.toNat [f.chan.toNat]

/-! ## Channel sequence (R316) -/

/-- Deliver a frame to a channel of this module: an ENDED entry discards it (R375), the sequence decides (R316). -/
def toChan (c : Nat) (cseq : Word32) (act : Nat → State → State) (s : State) : State :=
  let x := chanOf s c
  if !x.valid then s
  else if x.ended then chanBump s c chEndedDiscard
  else match acceptSeq x cseq with
    | none => chanBump s c chSeqDiscard
    | some x1 => act c (setChan s c x1)

/-- A frame as it stands in the input buffer of the link it came in on. -/
def arrived (s : State) (h : FrameHdr) (kind : BitVec 4) (body : List Byte) : TxFrame :=
  { fseq := 0, vc := h.vc, chan := h.chan, dest := h.dest, kind := kind, cseq := h.cseq, body := body, rv := h.rv
    src := some h.link, since := s.ftime }

/-- The input or output of a tree or group whose link group a link belongs to (R371, R374). -/
def inputOf (s : State) (l : Nat) (mask : List Nat) : Option Nat :=
  mask.find? fun i => decide (i < 16) && (groupLinks s l).contains (16 * (l / 16) + i)

/-- A channel frame at a link die: what comes down a multicast group is copied to its outputs (R372), frames for this module are
delivered, others forwarded. -/
def chanArrive (h : FrameHdr) (kind : BitVec 4) (body : List Byte) (act : Nat → State → State) (s : State) : State :=
  let die := decide (16 ≤ h.link)
  let key := treeKey h.dest.toNat h.chan.toNat
  let f := arrived s h kind body
  match (tabFind (dieOf s die).groups key).filter fun outs => (inputOf s h.link outs).isNone with
  | some _ => mcOut s die key f
  | none =>
    if h.dest.toNat = s.fabric.modid then toChan h.chan.toNat h.cseq act s
    else relay s die h.rv f

/-! ## Signals (R307) -/

/-- A signal through a channel is counted, or discarded and reported. -/
def takeSig (core : Nat) (sem : Nat) (cnt : Nat) (c : Nat) (s : State) : State :=
  let t := (chanOf s c).cfg.tenant.toNat
  if coreUsable s t core then
    if (coreOf s core).fenced then s else settle (onCore s core fun k => addCount k sem cnt) core
  else postEvent (chanBump s c chSigDiscard) t 0x0030 [(0, 2, c), (2, 2, core), (4, 1, sem)]

/-! ## Transfers (R330, R369, R370) -/

/-- The formats a transfer is written with: a run of tiles where the channel widens, or where length and address fit
one; else plain bytes (log entry 29). The answer is a descriptor of the same shape. -/
def xferWord (cfg : ChanCfg) (len va : Nat) : BitVec 512 :=
  let n := cfg.nfmt.toNat
  let size := storedSize n
  let tile := n != 0 && len % size == 0 && va % 128 == 0 && va % Config.page2M % size == 0
  let sf := if cfg.nfmt == cfg.wfmt && !tile then 0 else n
  let df := if cfg.nfmt == cfg.wfmt && !tile then 0 else cfg.wfmt.toNat
  BitVec.ofNat 512 (va + va * 2 ^ 64 + len * 2 ^ 128 + sf * 2 ^ 152 + df * 2 ^ 156)

/-- The far checks on the range of this module (R330, R370): checks 5 and 6 of R328. -/
def farCheck (s : State) (cfg : ChanCfg) (acc len va : Nat) : Option Cause :=
  let w := xferWord cfg len va
  let r := if acc = 1 then dstRange w else srcRange w
  let t := cfg.tenant.toNat
  if len = 0 ∨ (cfg.nfmt ≠ cfg.wfmt ∧ len % storedSize cfg.nfmt.toNat ≠ 0) then some .bounds
  else if !mappedWhole s t r then some .bounds
  else if !permitted s t acc r then some .permission
  else none

/-- DONE goes back on VC2 (R369). -/
def sendDone (s : State) (c : Nat) (status doneb : Nat) : State := chanFrame s c 2 2 (xferBody 2 false 0 doneb 0 status 0)

/-- The bytes of a stream from `lo` on, once every frame that carries them has arrived. -/
def assemble (tr : Transfer) (lo n : Nat) : Option (List Byte) :=
  let f0 := lo / 236
  let fs := (List.range ((lo + n - 1) / 236 + 1 - f0)).map (f0 + ·)
  let ps := fs.map fun k => (tr.parts.find? fun p => p.1 == k).map (·.2)
  if ps.all (·.isSome) then some (((ps.flatMap fun p => p.getD []).drop (lo - 236 * f0)).take n) else none

/-- The units a transfer is written in: tiles where it widens, else frames. Start and size in the stream. -/
def unitOf (w : BitVec 512) (len u : Nat) : Nat × Nat :=
  if kindOf w = 2 then (u * srcSize w, srcSize w) else (u * 236, min 236 (len - u * 236))

def unitCount (w : BitVec 512) (len : Nat) : Nat := if kindOf w = 2 then len / srcSize w else (len + 235) / 236

/-- The destination pieces of a unit. -/
def unitOut (w : BitVec 512) (lo : Nat) (bytes : List Byte) : List (Nat × List Byte) :=
  if kindOf w = 2 then burstOut w { idx := 0, off := lo, len := bytes.length, bytes := bytes }
  else if kindOf w = 1 then
    (chunksAt (srcSize w) (bytes.length / srcSize w + 2) lo bytes).map fun p =>
      (tileVa (dDst w) (srcSize w) (p.1 / srcSize w) + p.1 % srcSize w, p.2)
  else [(dDst w + lo, bytes)]

/-- Write the units that have arrived, whose pages are resident and which reach no pinned snapshot, in order. -/
def writeUnits (t : Nat) (w : BitVec 512) : List Nat → Transfer × State → Transfer × State × Option Cause
  | [], (tr, s) => (tr, s, none)
  | u :: us, (tr, s) =>
    let p := unitOf w tr.len u
    match if tr.done.contains u then none else assemble tr p.1 p.2 with
    | none => writeUnits t w us (tr, s)
    | some b =>
      let ps := unitOut w p.1 b
      if ps.any (fun e => spot s t e.1 1 == .wait || snapshotHeld s t e.1) then writeUnits t w us (tr, s)
      else match writeBurst t .clean w ps s with
        | (s1, none) => writeUnits t w us ({ tr with done := u :: tr.done }, (ps.map (·.1)).foldl (noteGather t) s1)
        | (s1, some (e, _)) => (tr, s1, some e)

/-- Bytes performed as a prefix (DONEB). -/
def prefixDone (w : BitVec 512) (tr : Transfer) : Nat :=
  match (List.range (unitCount w tr.len)).find? (fun u => !tr.done.contains u) with
  | none => tr.len
  | some u => (unitOf w tr.len u).1

/-- A READ of this module has been answered whole, or has failed: its descriptor's bytes stand performed, or failed at the address
that follows them. `bytes` are its source bytes up to there. -/
def finishRead (s : State) (d : Nat) (i : Half) (err : Option Cause) (bytes : List Byte) : State :=
  let c := dmaOf s d
  match c.work.find? fun x => x.index == i && x.status.isNone && dRmode x.word == 2 with
  | none => s
  | some x =>
    let n := bytes.length
    let ok : Burst := { idx := 0, off := 0, len := n, bytes := bytes, st := .performed }
    let bs := match err with
      | none => [ok]
      | some e => (if n = 0 then [] else [ok]) ++ [{ idx := 0, off := n, len := 0, st := .failed e, addr := dSrc x.word + n }]
    let c1 := { c with work := c.work.map fun o =>
      if o.index == i then { o with checked := true, issued := dLen x.word, bursts := bs } else o }
    dmaBump (dmaBump (setDma s d c1) d 0 n) d 1 (wideBytes (wideWord s x.word) n)

/-- The open transfers of a channel with `o` in place of `tr`. -/
def keepOpen (c : Nat) (tr : Transfer) (s : State) (o : List Transfer) : State :=
  setChan s c { chanOf s c with open_ := (chanOf s c).open_.filter (· != tr) ++ o }

/-- Read one run of a READ; the first error stands. -/
def readRun (t : Nat) (a : State × List Byte × Option Cause) (r : Nat × Nat) : State × List Byte × Option Cause :=
  match vaRead a.1 t r.1 r.2 .clean with
  | (s1, .ok b) => (s1, a.2.1 ++ b, a.2.2)
  | (s1, .err e) => (s1, a.2.1, a.2.2.orElse fun _ => some e)

/-- The runs of bytes that a READ reads. -/
def readRuns (tr : Transfer) (w : BitVec 512) : List (Nat × Nat) :=
  if kindOf w = 0 then [(tr.va.toNat, tr.len)]
  else (unitOut w 0 (List.replicate tr.len 0)).map fun p => (p.1, p.2.length)

/-- A READ waits for its pages, then sends its bytes back as a WRITE, or DONE with its error. -/
def pumpRead (c : Nat) (s : State) (tr : Transfer) (t : Nat) (w : BitVec 512) : State :=
  if (readRuns tr w).any (fun r => (pagesOf r.1 r.2).any fun p => spot s t (max p r.1) 0 == .wait) then s
  else
    let a := (readRuns tr w).foldl (readRun t) (s, [], none)
    let s1 := keepOpen c tr a.1 []
    match a.2.2 with
    | some e => sendDone s1 c (causeCode e) 0
    | none =>
      let y := chanOf s1 c
      sendData (drawNumbers (chanFrame s1 c 2 2 (xferBody 0 false tr.len 0 0 0 (y.txSeq + 1).toNat)) c tr.len) c
        (y.txSeq + 1) a.2.1

/-- DONE for a WRITE; where it answers a READ of this module, the READ's descriptor goes on. -/
def endWrite (c : Nat) (s : State) (tr : Transfer) (err : Option Cause) (n : Nat) : State :=
  let s1 := sendDone s c (match err with | some e => causeCode e | none => 0) n
  match tr.dma with
  | some (d, i) => finishRead s1 d i err (if n = 0 then [] else (assemble tr 0 n).getD [])
  | none => s1

/-- A WRITE writes what has arrived, and ends with its last unit or its first error. -/
def pumpWrite (c : Nat) (s : State) (tr : Transfer) (t : Nat) (w : BitVec 512) : State :=
  let r := writeUnits t w (List.range (unitCount w tr.len)) (tr, s)
  let n := prefixDone w r.1
  match r.2.2 with
  | some e => endWrite c (keepOpen c tr r.2.1 []) r.1 (some e) n
  | none => if n = tr.len then endWrite c (keepOpen c tr r.2.1 []) tr none n else keepOpen c tr r.2.1 [r.1]

/-- Carry an open transfer on as far as it can go; DONE at its end (R369). -/
def pumpOne (c : Nat) (s : State) (tr : Transfer) : State :=
  let x := chanOf s c
  let w := tr.word.getD (xferWord x.cfg tr.len tr.va.toNat)
  if tr.read then pumpRead c s tr x.cfg.tenant.toNat w else pumpWrite c s tr x.cfg.tenant.toNat w

/-- Carry on every open transfer of a channel. -/
def pumpChan (c : Nat) (s : State) : State := (chanOf s c).open_.foldl (pumpOne c) s

/-- A READ of this module has no answer yet. -/
def readOpen (c : Nat) (x : DmaCur) : Bool :=
  dRmode x.word == 2 && dFchan x.word == c && x.status.isNone && !(!x.bursts.isEmpty && x.bursts.all burstEnded)

/-- The oldest READ through the channel that has no answer: DMA channel and descriptor. -/
def readOf (s : State) (c : Nat) : Option (Nat × DmaCur) :=
  s.dma.findSome? fun d => (d.2.work.find? (readOpen c)).map fun x => (d.1, x)

/-- DATA frames that came before their transfer was open, as far as the bitmap of R316 reaches back. -/
def earlyOf (x : Chan) : List (Word32 × List Byte) := x.early.filter fun e => decide ((x.rxH - e.1).toNat < 65536)

/-- A transfer of the channel takes the frames of its own that have come before it. -/
def absorb (c : Nat) (tr : Transfer) (s : State) : State :=
  let x := chanOf s c
  let mine := fun (e : Word32 × List Byte) => decide ((e.1 - tr.first).toNat < (tr.len + 235) / 236)
  let ps := (x.early.filter mine).map fun e => ((e.1 - tr.first).toNat, e.2.take (min 236 (tr.len - (e.1 - tr.first).toNat * 236)))
  pumpChan c (setChan s c { x with early := x.early.filter fun e => !mine e, open_ := x.open_ ++ [{ tr with parts := ps }] })

/-- A WRITE record opens a transfer, after the far checks (R330, R369). One on VC2, where answers travel (R285, log entry 76), answers
the oldest READ of this module through the channel. -/
def openWrite (answer : Bool) (len : Nat) (va : Word64) (first : Word32) (c : Nat) (s : State) : State :=
  let x := chanOf s c
  match if answer then readOf s c else none with
  | some (d, q) => absorb c { first := first, len := len, va := BitVec.ofNat 64 (dDst q.word), dma := some (d, q.index)
                              word := some (wideWord s q.word) } s
  | none => match farCheck s x.cfg 1 len va.toNat with
    | some e => sendDone s c (causeCode e) 0
    | none => absorb c { first := first, len := len, va := va } s

/-- A READ record: the bytes come back as a WRITE (R369). -/
def openRead (len : Nat) (va : Word64) (c : Nat) (s : State) : State :=
  let x := chanOf s c
  match farCheck s { x.cfg with wfmt := x.cfg.nfmt } 0 len va.toNat with
  | some e => sendDone s c (causeCode e) 0
  | none => pumpChan c (setChan s c { x with open_ := x.open_ ++ [{ first := 0, len := len, va := va, read := true }] })

/-- A DATA frame: frame FIRST + k of an open transfer (R347, R369), or of one whose record is still on its way on another VC. -/
def takeData (cseq : Word32) (payload : List Byte) (c : Nat) (s : State) : State :=
  let x := chanOf s c
  match x.open_.find? (fun tr => !tr.read && decide ((cseq - tr.first).toNat < (tr.len + 235) / 236)) with
  | none => setChan s c { x with early := earlyOf x ++ [(cseq, payload)] }
  | some tr =>
    let k := (cseq - tr.first).toNat
    let tr1 := { tr with parts := tr.parts ++ [(k, payload.take (min 236 (tr.len - k * 236)))] }
    pumpChan c (setChan s c { x with open_ := x.open_.map fun o => if o == tr then tr1 else o })

/-- The bursts of a descriptor written to another module, when DONE arrives: the prefix is performed, the rest fails at its far
address. `n` counts bytes of the stream. -/
def ackBursts (w : BitVec 512) (err : Option Cause) (n : Nat) (bs : List Burst) : List Burst :=
  bs.map fun b => if b.st != .writing then b
    else match err with
      | none => { b with st := .performed }
      | some e => if wideBytes w (b.off + b.len) ≤ n then { b with st := .performed }
                  else { b with st := .failed e, addr := ((burstDst w b).headD (0, 0)).1 }

/-- A WRITE of this module that has no DONE: its DMA channel, ring index and word, of a completed descriptor, of one that waits for
its record, or of an open one. Of the channel's transfers the oldest is answered first. -/
def sentOf (s : State) (c : Nat) : Option (Nat × Half × BitVec 512) :=
  let mine := fun (w : BitVec 512) => dRmode w == 1 && dFchan w == c
  s.dma.findSome? fun d =>
    ((d.2.late.find? fun e => mine e.2.1).map fun e => (d.1, e.1, e.2.1)).orElse fun _ =>
      (d.2.work.find? fun x => mine x.word && (x.status.isNone || (x.status == some 0 && x.bursts.any fun b => b.st == .writing))).map
        fun x => (d.1, x.index, x.word)

/-- A DONE record completes the oldest transfer through the channel, or reports its error (R330, R331, R369). -/
def takeDone (status doneb : Nat) (c : Nat) (s : State) : State :=
  let err := if status = 0 then none else some (causeOfCode status)
  match sentOf s c, readOf s c with
  | some (d, i, w), _ =>
    let k := dmaOf s d
    let late := fun (s : State) => match err with | some e => lateError s d i w e | none => s
    let s1 := dmaBump s d 1 (if status = 0 then streamLen w else doneb)
    if k.late.any fun e => e.1 == i && dRmode e.2.1 == 1 then
      late (setDma s1 d { dmaOf s1 d with late := k.late.filter fun e => e.1 != i || dRmode e.2.1 != 1 })
    else match k.work.find? fun x => x.index == i with
    | none => s1
    | some x =>
      let set := fun (x1 : DmaCur) => setDma s1 d { dmaOf s1 d with work := k.work.map fun o => if o.index == i then x1 else o }
      if x.status.isSome then late (set { x with bursts := ackBursts w none 0 x.bursts })
      else match x.checked, err with
        | false, some e => set { x with checked := true, residue := dLen w, stamp := copyOf s 6, status := some (BitVec.ofNat 8 (causeCode e)) }
        | _, _ => set { x with checked := true, bursts := ackBursts w err doneb x.bursts }
  | none, some (d, q) => match err with
    | some e => finishRead s d q.index (some e) []
    | none => s
  | none, none =>
    if status = 0 then s
    else postEvent s (chanOf s c).cfg.tenant.toNat 0x0032 [(0, 2, c), (2, 1, status), (4, 2, 0xFFFF), (6, 2, 0)]

/-! ## Reductions (R371, R372) -/

/-- A reduction block at a link die: it is added where the die has the tree, or it is a sum on its way to the members,
or it is forwarded. -/
def redIn (h : FrameHdr) (q : RedSlot) (s : State) : State :=
  let die := decide (16 ≤ h.link)
  let key := treeKey h.dest.toNat h.chan.toNat
  let q1 := { q with tree := key, seq := h.cseq }
  let b := { blockFrame key h.vc q1 with rv := h.rv, src := some h.link, since := s.ftime }
  match (tabFind (dieOf s die).trees key).bind fun e => inputOf s h.link e.inMask with
  | some inp => treeAdd s die inp h.vc q1 (some h.link)
  | none =>
    if (tabFind (dieOf s die).groups key).isSome then mcOut s die key b
    else if h.dest.toNat = s.fabric.modid then
      if (chanOf s h.chan.toNat).ended then chanBump s h.chan.toNat chEndedDiscard else s
    else relay s die h.rv b

/-! ## Gleaner records (R346) -/

/-- A Gleaner record stands in the inbox of its channel. -/
def takeGln (body : List Byte) (c : Nat) (s : State) : State :=
  setChan s c { chanOf s c with inbox := (chanOf s c).inbox ++ [body] }

/-! ## Copies for this module (R372) -/

/-- What a channel frame does at its destination, read from its body (R347, R369). -/
def frameAct (f : TxFrame) : Nat → State → State :=
  let at_ := fun (i n : Nat) => ofBytes ((f.body.drop i).take n)
  if f.kind = 1 then takeData f.cseq f.body
  else if f.kind = 2 then
    match at_ 0 1 % 4 with
    | 0 => openWrite (f.vc == 2) (at_ 2 3) (BitVec.ofNat 64 (at_ 8 6)) (BitVec.ofNat 32 (at_ 16 4))
    | 1 => openRead (at_ 2 3) (BitVec.ofNat 64 (at_ 8 6))
    | _ => takeDone (at_ 14 1) (at_ 5 3)
  else if f.kind = 5 then takeSig (at_ 0 2 % 512) (at_ 2 1 % 64) (at_ 3 1)
  else if f.kind = 6 then takeGln f.body
  else fun _ s => s

/-- A multicast copy reaches this module: a sum its consumer, another frame its channel. -/
def takeCopy (s : State) (f : TxFrame) : State :=
  let key := treeKey f.dest.toNat f.chan.toNat
  if f.kind = 3 ∨ f.kind = 4 then
    deliverSum s key { tree := key, seq := f.cseq, arrived := [], poison := f.kind == 4
                       sum := if f.kind = 4 then List.replicate 32 0 else blockElemsOf f.body }
  else match chanByKey s key with
    | some c => toChan c f.cseq (frameAct f) s
    | none => s

/-- The copies at the LOCAL output of a die are delivered. -/
def deliverCopies (die : Bool) (s : State) : State :=
  match (dieOf s die).toLocal with
  | [] => s
  | fs => fs.foldl takeCopy (setDie s die { dieOf s die with toLocal := [] })

/-! ## Received frames -/

/-- The whole path of a received channel frame. -/
def chanFrameIn (h : FrameHdr) (vcs : List Nat) (kind : BitVec 4) (body : List Byte) (act : Nat → State → State)
    (s : State) : Host.Outcome State Fault Refusal :=
  .next (deliverCopies (decide (16 ≤ h.link)) (recvSeq h vcs (chanArrive h kind body act) s))

def execSigFrame (h : FrameHdr) (core : Nat) (sem : SemNo) (cnt : Byte) (s : State) : Host.Outcome State Fault Refusal :=
  chanFrameIn h [0] 5 (toBytes 2 (core % 512) ++ [BitVec.ofNat 8 sem.toNat, cnt]) (takeSig core sem.toNat cnt.toNat) s

def execXferWrite (h : FrameHdr) (bar : Bool) (len : Nat) (va : Word64) (first : Word32) (s : State) :
    Host.Outcome State Fault Refusal :=
  chanFrameIn h [1, 2] 2 (xferBody 0 bar len 0 va.toNat 0 first.toNat) (openWrite (h.vc == 2) len va first) s

def execXferRead (h : FrameHdr) (bar : Bool) (len : Nat) (va : Word64) (s : State) : Host.Outcome State Fault Refusal :=
  chanFrameIn h [1, 2] 2 (xferBody 1 bar len 0 va.toNat 0 0) (openRead len va) s

def execXferDone (h : FrameHdr) (status : Byte) (doneb : Nat) (s : State) : Host.Outcome State Fault Refusal :=
  chanFrameIn h [1, 2] 2 (xferBody 2 false 0 doneb 0 status.toNat 0) (takeDone status.toNat doneb) s

def execDataFrame (h : FrameHdr) (payload : List Byte) (s : State) : Host.Outcome State Fault Refusal :=
  chanFrameIn h [1, 2, 3] 1 payload (takeData h.cseq payload) s

def execGlnFrame (h : FrameHdr) (body : List Byte) (s : State) : Host.Outcome State Fault Refusal :=
  chanFrameIn h [1, 2] 6 body (takeGln body) s

def execRedFrame (h : FrameHdr) (elems : List Int) (s : State) : Host.Outcome State Fault Refusal :=
  .next (deliverCopies (decide (16 ≤ h.link)) (recvSeq h [0, 3]
    (redIn h { tree := 0, seq := 0, arrived := [], sum := addBlocks elems [] false, poison := false }) s))

def execRedpFrame (h : FrameHdr) (s : State) : Host.Outcome State Fault Refusal :=
  .next (deliverCopies (decide (16 ≤ h.link)) (recvSeq h [0, 3]
    (redIn h { tree := 0, seq := 0, arrived := [], sum := List.replicate 32 0, poison := true }) s))

/-- An IDLE frame carries only ACK and CRED (R346). Transfers that waited for a page go on with it. -/
def execIdleFrame (h : FrameHdr) (s : State) : Host.Outcome State Fault Refusal :=
  .next (deliverCopies (decide (16 ≤ h.link)) (recvPlain h (fun s =>
    (s.chans.filter fun c => !c.2.open_.isEmpty).foldl (fun s c => pumpChan c.1 s) s) s))

end Sys2Proof.Machine
end

