-- ==== Sys2Proof/Machine/Fabric.lean ====
section
/-! DEFINITION. Uango's part in the fabric: the Bellwether, the map and module IDs (R359 to R361), routes (R362 to R365,
R374), the records of channel setup and end (R366, R375), and fabric time (R376 to R378). -/

namespace Sys2Proof.Machine
open Sys2Proof

/-! ## Records (R346, R359 to R364) -/

/-- A FAB record at this module: one for another module passes on (R363). An ELECT goes only to the neighbour. -/
def fabIn (h : FrameHdr) (kind : Nat) (args : List Nat) (act : State → State) (s : State) : Host.Outcome State Fault Refusal :=
  .next (recvSeq h [0] (fun s =>
    if kind = 0 ∨ h.dest.toNat = s.fabric.modid ∨ !s.fabric.modv then act s
    else relay s (decide (16 ≤ h.link)) h.rv { arrived s h 9 (Config.fabRecord (kind :: args)) with chan := 0 }) s)

def execElect (h : FrameHdr) (serial : Word64) (hops : Nat) (s : State) : Host.Outcome State Fault Refusal :=
  fabIn h 0 [serial.toNat, hops] (fun s => learnPair s h.link serial hops) s

/-- A module whose own serial is its BW_SERIAL and whose pair has not changed for 2 ms acts as Bellwether: it collects
the stored maps and goes on from the highest epoch (R359, R360). -/
def execBellwetherSettle (s : State) : Host.Outcome State Fault Refusal :=
  if s.fabric.bwSerial.isSome ∨ s.fabric.acting ∨ !s.fabric.modv ∨ s.drover.outOfService ∨ s.ftime < s.fabric.pairAt + 2000000 then .next s
  else
    let f := s.fabric
    let m := putEntry f.map f.modid Config.serialNo
    let s1 := { s with fabric := { f with acting := true, map := m, joined := true
                                          mapEpoch := if f.mapEpoch.toNat < f.storedEpoch.toNat then f.storedEpoch else f.mapEpoch } }
    .next (mapChanged (fabAll s1 1 (mapArgs s1)))

/-- A fabric map: the latest is stored; the Bellwether merges what other parts hold (R360, R361). -/
def execMap (h : FrameHdr) (epoch : Word64) (entries : List MapEntry) (groups : List LinkGroup) (s : State) :
    Host.Outcome State Fault Refusal :=
  fabIn h 1 ([epoch.toNat, entries.length] ++ entries.flatMap entryArgs ++ groups.flatMap groupArgs) (fun s =>
    let newer := decide (s.fabric.mapEpoch.toNat < epoch.toNat)
    if s.fabric.acting then
      let m := entries.foldl mergeEntry s.fabric.map
      let gs := (groups.filter fun g => g.owner != Config.serialNo && !s.fabric.groups.any fun o => o.owner == g.owner)
      let e := if newer then epoch else s.fabric.mapEpoch
      if m == s.fabric.map && gs.isEmpty && !newer then s
      else mapChanged { s with fabric := { s.fabric with map := m, groups := s.fabric.groups ++ gs, mapEpoch := e } }
    else if newer then
      endGone (idFromMap (keepMap { s with fabric := { s.fabric with map := entries, groups := groups, mapEpoch := epoch, joined := true } }))
    else s) s

/-- The Bellwether receives a join and gives an ID, or refuses with FULL (R361); another module passes it on toward the Bellwether (log
entry 189). -/
def execJoin (h : FrameHdr) (serial : Word64) (stored : Option Nat) (groups : List LinkGroup) (s : State) :
    Host.Outcome State Fault Refusal :=
  fabIn h 2 (joinArgs serial stored groups) (fun s =>
    if !s.fabric.acting then fabBw s 2 (joinArgs serial stored groups)
    else
      let m := match stored with
        | some id => if s.fabric.map.any fun e => e.serial == serial then s.fabric.map
                     else mergeEntry s.fabric.map { modid := id, serial := serial, present := false }
        | none => s.fabric.map
      match pickId m serial with
      | none =>
        if (linkOf s h.link).peer.map (·.serial) == some serial then
          refuse (setLink s h.link { linkOf s h.link with st := .hello }) h.link 3
        else s
      | some id =>
        let gs := mergeGroups s.fabric.groups serial groups
        mapChanged (dropUnreached { s with fabric := { s.fabric with map := putEntry m id serial, groups := gs } } id)) s

/-- A ROUTES record: into the spare table; READY once both dies hold the version (R364). -/
def execRoutes (h : FrameHdr) (dieB : Bool) (version : Half) (table : List (Nat × Route)) (s : State) :
    Host.Outcome State Fault Refusal :=
  fabIn h 3 (routesArgs dieB version table) (fun s =>
    let t := (table.filter fun e => e.1 < 1024).foldl (fun t e => put t e.1 e.2) []
    let s1 := putSpare s dieB version t
    if (dieOf s1 (!dieB)).spare.map (·.1) == some version then fabBw s1 4 [s.fabric.modid, version.toNat] else s1) s

def execHold (h : FrameHdr) (s : State) : Host.Outcome State Fault Refusal := fabIn h 5 [] beginHold s

def execDrained (h : FrameHdr) (src : Nat) (s : State) : Host.Outcome State Fault Refusal :=
  fabIn h 6 [src] (fun s =>
    if s.fabric.acting && s.fabric.routeStage == 2 then
      routeAdvance { s with fabric := { s.fabric with drainedFrom := src :: s.fabric.drainedFrom } }
    else s) s

def execCommit (h : FrameHdr) (version : Half) (s : State) : Host.Outcome State Fault Refusal :=
  fabIn h 7 [version.toNat] (fun s => commitRoutes s version) s

/-- A link die holds a frame of the previous table version (R364). -/
def holdsOld (s : State) (die : Bool) : Bool :=
  let d := dieOf s die
  let old := fun (f : TxFrame) => f.rv != d.version.getLsbD 0
  d.queue.any (fun e => old e.2) || d.mcWait.any (fun e => old e.2) ||
  s.links.any fun l => decide (16 ≤ l.1) == die && l.2.txBuf.any old

/-- Once a die has held no frame of the old version for 1 ms, its table is freed (R364). -/
def execRouteTableFree (dieB : Bool) (s : State) : Host.Outcome State Fault Refusal :=
  let d := dieOf s dieB
  if d.hasPrev && !holdsOld s dieB && decide (d.oldAt + 1000000 ≤ s.ftime) then
    .next (setDie s dieB { d with prev := [], hasPrev := false })
  else .next s

/-! ## Channel setup (R366 to R368, R371, R372) -/

/-- The lowest channel ID free for a tenant; 4,092 to 4,095 are Uango's (R440). -/
def freeChan (s : State) : Option Nat :=
  (List.range 4092).find? fun c => !(chanOf s c).valid && !s.setups.any fun q => q.far.isNone && q.chan == c

/-- Install a pair endpoint. -/
def installChan (s : State) (c : Nat) (cfg : ChanCfg) (job : Half) : State :=
  setChan s c { valid := true, cfg := cfg, job := job }

/-- Reserved slots of a link die (R371). -/
def dieReserved (d : LinkDie) : Nat := d.trees.foldl (fun n e => n + e.2.reserve) 0

/-- Install a tree entry and a multicast group on a die; none where it has no room (R371, R372). -/
def installDie (s : State) (die : Bool) (key : Nat) (red mc : Bool) (ins : List Nat) (out : Nat) (outs : List Nat) :
    Option State :=
  let d := dieOf s die
  if (red && (decide (256 ≤ d.trees.length) || decide (512 < dieReserved d + 4))) || (mc && decide (256 ≤ d.groups.length)) then none
  else some (setDie s die { d with trees := if red then put d.trees key { inMask := ins, out := out, reserve := 4 } else d.trees
                                   groups := if mc then put d.groups key outs else d.groups })

/-- The multicast group of a channel on the mesh, where it reaches cores of the module (R292). -/
def meshGroup (s : State) (c : Nat) : Option State :=
  let x := chanOf s c
  if !(x.cfg.mc || x.cfg.mcback) || x.cores.isEmpty then some s
  else match freeMcast s x.cfg with
    | none => none
    | some g => some ((meshPlanes x.cfg).foldl (fun s p => installMcast s p x.cfg.plane g x.cores)
        (setChan s c { x with mcast := some g }))

/-- The tree of a channel on the mesh, where cores of the module contribute (R293). -/
def meshTree (s : State) (c : Nat) : Option State :=
  let x := chanOf s c
  if !x.cfg.red || x.cores.isEmpty then some s
  else match freeTree s x.cfg with
    | none => none
    | some t => installTrees x.cfg.plane t x.cores (meshPlanes x.cfg) (setChan s c { x with tree := some t })

/-- Install a member's part of a group channel: die entries, and the mesh tree and multicast group of its cores. -/
def installGroup (s : State) (c : Nat) (cfg : ChanCfg) (job : Half) (key : Nat) (ins : List Nat) (out : Nat) (outs : List Nat)
    (fanin : Nat) (members : List Nat) : Option State :=
  match installDie s cfg.plane key cfg.red (cfg.mc || cfg.mcback) ins out outs with
  | none => none
  | some s1 =>
    let s2 := installChan s1 c cfg job
    let x := { chanOf s2 c with cores := contributors s2 cfg.tenant.toNat fanin, members := members }
    (meshTree (setChan s2 c x) c).bind fun s3 => meshGroup s3 c

/-- The status of a setup reaches its command (R366). -/
def setupDone (s : State) (q : Setup) (st : Half) (body : BitVec 384) : State :=
  completeObj { s with setups := s.setups.filter (· != q) } q.op q.chan st (if st = stOK then (if q.op = 0x0501 then 8 else 2) else 0) body

/-- Two setups of a pair meet: they must join one job, and agree on plane, VC, uses and narrow format (R366 to R368, log
entry 30). -/
def pairStatus (a b : ChanCfg) (ua ub : Word64) : Half :=
  if ua ≠ ub then stDenied
  else if a.plane ≠ b.plane ∨ a.vc ≠ b.vc ∨ a.sig ≠ b.sig ∨ a.dma ≠ b.dma ∨ a.gln ≠ b.gln ∨ a.nfmt ≠ b.nfmt then stBadField
  else stOK

/-- Complete this module's side of a pair. -/
def joinPair (s : State) (q : Setup) (job : Half) (far : Nat × Nat) (cfg : ChanCfg) (uid : Word64) : State :=
  let st := pairStatus q.cfg cfg q.uid uid
  if st = stOK then
    setupDone (installChan s q.chan { q.cfg with peer := BitVec.ofNat 10 far.1, peerChan := BitVec.ofNat 12 far.2 } job) q stOK
      (bodyOf [(0, 2, q.chan)])
  else setupDone s q st 0

/-- The job handle of a UID at a tenant. -/
def jobOfUid (s : State) (t : Nat) (uid : Word64) : Half :=
  match (tenantOf s t).jobs.find? (fun j => j.2.uid == uid) with | some j => BitVec.ofNat 16 j.1 | none => 0xFFFF

/-- Edges of a tree, pairs of a module and the one above it, with those of a further path: a module keeps the one it has. -/
def joinEdges (es ps : List (Nat × Nat)) : List (Nat × Nat) := es ++ ps.filter fun e => !es.any fun o => o.1 == e.1

/-- The tree of a group along the current routes of its members to the root (R366); none where a route is missing. -/
def upTree (s : State) (p : Bool) (ms : List Nat) : Option (List (Nat × Nat)) :=
  ms.foldl (fun o m => o.bind fun es => (pathTo s p s.fabric.modid 32 m).map (joinEdges es)) (some [])

/-- The multicast of a group along the current routes from the root to its members (R372). -/
def downTree (s : State) (p : Bool) (ms : List Nat) : Option (List (Nat × Nat)) :=
  ms.foldl (fun o m => o.bind fun es => (pathTo s p m 32 s.fabric.modid).map fun ps => joinEdges es (ps.map Prod.swap)) (some [])

/-- The links of a module toward those below it, one for each link group, and LOCAL where the module takes part (R371, R372). -/
def nodeMask (s : State) (p : Bool) (es : List (Nat × Nat)) (u : Nat) (here : Bool) : List Nat :=
  ((es.filter fun e => e.2 == u).filterMap fun e => firstLink s p u e.1) ++ (if here then [16] else [])

/-- A mask as a record carries it. -/
def maskNum (ls : List Nat) : Nat := ls.foldl (fun n i => n + 2 ^ i) 0

/-- The endpoint fields of R367 that a setup gives. -/
def cfgWord (g : ChanCfg) : Nat :=
  2 ^ 2 * g.tenant.toNat + 2 ^ 8 * g.peer.toNat + 2 ^ 18 * g.peerChan.toNat + 2 ^ 30 * b2n g.plane + 2 ^ 31 * g.vc.toNat +
  2 ^ 33 * b2n g.sig + 2 ^ 34 * b2n g.dma + 2 ^ 35 * b2n g.gln + 2 ^ 36 * b2n g.red + 2 ^ 37 * b2n g.root + 2 ^ 38 * b2n g.mc +
  2 ^ 39 * b2n g.mcback + 2 ^ 40 * g.nfmt.toNat + 2 ^ 44 * g.wfmt.toNat + 2 ^ 48 * g.aexp.toNat + 2 ^ 64 * g.fanin.toNat +
  2 ^ 88 * g.group.toNat + 2 ^ 94 * b2n g.grpv

/-- The contents of CSETUP. -/
def setupArgs (src chan : Nat) (tag : Word32) (cfg : ChanCfg) (fan : Nat) (uid : Word64) : List Nat :=
  [src, chan, tag.toNat, cfgWord cfg, fan, uid.toNat]

/-- The contents of CINSTALL: the channel at the module, or 4,096 + the key of the tree where it only passes through. -/
def installArgs (chan : Nat) (cfg : ChanCfg) (rootMod rootChan ins outs : Nat) : List Nat := [chan, cfgWord cfg, rootMod, rootChan, ins, outs]

/-- A setup record to this Uango's peer or root. -/
def sendSetup (s : State) (q : Setup) : State :=
  fabSend s 8 q.cfg.peer.toNat (setupArgs s.fabric.modid q.chan q.tag q.cfg q.fanin q.uid)

/-- Every module that a setup has reached learns its status (R366). -/
def sendStatus (s : State) (q : Setup) (st : Half) : State :=
  (if q.nodes.isEmpty then q.joined else q.nodes).foldl (fun s m => fabSend s 10 m.1 [m.2, st.toNat]) s

/-- A setup of the root ends in failure: the same status on every module (R366). -/
def failGroup (s : State) (q : Setup) (st : Half) : State := sendStatus (setupDone s q st 0) q st

/-- CINSTALL to one module of a group (R366): inputs from those below it, outputs of the multicast, LOCAL where it is a member. -/
def sendInstall (q : Setup) (cfg : ChanCfg) (red mc : List (Nat × Nat)) (s : State) (m : Nat × Nat) : State :=
  fabSend s 9 m.1 (installArgs m.2 { cfg with root := false } s.fabric.modid q.chan
    (maskNum (nodeMask s cfg.plane red m.1 (decide (0 < look 0 q.fans m.1))))
    (maskNum (nodeMask s cfg.plane mc m.1 (decide (m.2 < 4096)))))

/-- Every member has joined: the root computes the tree along the current routes of the plane, installs its part, and sends CINSTALL
to every module on it (R366). -/
def rootInstall (s : State) (q : Setup) : State :=
  let p := q.cfg.plane
  let members := q.joined.map (·.1)
  let key := treeKey s.fabric.modid q.chan
  let fan1 := q.cfg.fanin.toNat                       -- the root's own local fan-in, kept until the total is known
  if q.fanin = 0 ∨ 16777216 < q.fanin then failGroup s q stBadField
  else match upTree s p members, downTree s p members with
    | some up, some down =>
      let red := if q.cfg.red then up else []
      let mc := if q.cfg.mcback then up else if q.cfg.mc then down else []
      let cfg := { q.cfg with fanin := BitVec.ofNat 24 (q.fanin - 1), root := true, peer := BitVec.ofNat 10 s.fabric.modid
                              peerChan := BitVec.ofNat 12 q.chan }
      let nodes := ((red ++ mc).flatMap fun e => [e.1, e.2]).eraseDups.filter (· != s.fabric.modid)
      let via := nodes.map fun n => (n, match q.joined.find? fun m => m.1 == n with | some m => m.2 | none => 4096 + key)
      match installGroup s q.chan cfg (jobOfUid s q.fn q.uid) key (nodeMask s p red s.fabric.modid (decide (0 < fan1))) 16
          (nodeMask s p mc s.fabric.modid false) fan1 members with
      | none => failGroup s q stNoResource
      | some s1 =>
        let q1 := { q with installing := true, members := nodes, nodes := via }
        let s2 := setChan { s1 with setups := s1.setups.map fun o => if o == q then q1 else o } q.chan
          { chanOf s1 q.chan with via := via }
        let s3 := via.foldl (sendInstall q cfg red mc) s2
        if nodes.isEmpty then setupDone s3 q1 stOK (bodyOf [(0, 2, q.chan), (4, 4, q.fanin)]) else s3
    | _, _ => failGroup s q stUnreachable

/-- A join record of a member meets the root's setup. -/
def joinGroup (s : State) (q : Setup) (src srcChan fan : Nat) (uid : Word64) : State :=
  let q1 := { q with members := q.members.erase src, joined := q.joined ++ [(src, srcChan)], fans := q.fans ++ [(src, fan)]
                     fanin := q.fanin + fan }
  let s1 := { s with setups := s.setups.map fun o => if o == q then q1 else o }
  if uid ≠ q.uid then failGroup s1 q1 stDenied
  else if q1.members.isEmpty then rootInstall s1 q1 else s1

/-- The window of a setup: 1 s for a pair, 10 s for a group (R366). -/
def setupSpan (q : Setup) : Nat := if q.cfg.root || q.cfg.red || q.cfg.mc then 10000000000 else 1000000000

/-- The window of a setup is open: it is half-open (R12). -/
def inWindow (s : State) (q : Setup) : Bool := decide (s.ftime < q.since + setupSpan q)

/-- A setup record of another module (R366): it meets this module's own within its window, or waits for it. -/
def execCsetup (h : FrameHdr) (src srcChan : Nat) (tag : Word32) (cfg : ChanCfg) (faninLocal : Nat) (jobUid : Word64) (s : State) :
    Host.Outcome State Fault Refusal :=
  fabIn h 8 (setupArgs src srcChan tag cfg faninLocal jobUid) (fun s =>
    match s.setups.find? (fun q => q.far.isNone && !q.installing && q.tag == tag && inWindow s q &&
        (if q.cfg.root then q.members.contains src else !(q.cfg.red || q.cfg.mc) && q.cfg.peer.toNat == src)) with
    | some q =>
      if q.cfg.root then joinGroup s q src srcChan faninLocal jobUid
      else joinPair s q (jobOfUid s q.fn q.uid) (src, srcChan) cfg jobUid
    | none => { s with setups := s.setups ++ [{ chan := srcChan, far := some (src, srcChan), tag := tag, cfg := cfg
                                                fanin := faninLocal, uid := jobUid, since := s.ftime }] }) s

/-- The link group of a die toward a module: it is the output of a tree entry (R371). -/
def outToward (s : State) (p : Bool) (m : Nat) : Nat :=
  match routeTo s p m with
  | some r => ((List.range 16).find? fun i => r.links.getLsbD i).getD 16
  | none => 16

/-- The root's install record: a member's endpoint, or a module on the way; READY follows, or the status that it failed with (R366). -/
def execCinstall (h : FrameHdr) (chan : Nat) (cfg : ChanCfg) (rootMod rootChan : Nat) (inMask outLinks : BitVec 17) (s : State) :
    Host.Outcome State Fault Refusal :=
  fabIn h 9 (installArgs chan cfg rootMod rootChan inMask.toNat outLinks.toNat) (fun s =>
    let key := treeKey rootMod rootChan
    let bits := fun (m : BitVec 17) => (List.range 17).filter fun i => m.getLsbD i
    let q := s.setups.find? fun q => q.far.isNone && !q.cfg.root && q.chan == chan && q.cfg.peer.toNat == rootMod
    let fan := match q with | some q => q.fanin | none => 0
    let job := match q with | some q => jobOfUid s q.fn q.uid | none => 0xFFFF
    let cfg1 := { cfg with root := false, peer := BitVec.ofNat 10 rootMod, peerChan := BitVec.ofNat 12 rootChan
                           tenant := match q with | some q => q.cfg.tenant | none => cfg.tenant
                           wfmt := match q with | some q => q.cfg.wfmt | none => cfg.wfmt }
    let out := outToward s cfg.plane rootMod
    let r := if chan < 4096 then installGroup s chan cfg1 job key (bits inMask) out (bits outLinks) fan []
             else installDie s cfg.plane key (cfg.red && inMask != 0) ((cfg.mc || cfg.mcback) && outLinks != 0) (bits inMask) out (bits outLinks)
    match r with
    | some s1 => fabSend { s1 with setups := s1.setups.map fun o => if some o == q then { o with installing := true } else o } 4 rootMod
        [s.fabric.modid, rootChan]
    | none => fabSend s 10 rootMod [rootChan, stNoResource.toNat]) s

/-- READY acknowledges a table at the Bellwether, or an entry: at the root of a group, and from the root to a member,
whose command then completes (R364, R366). -/
def execReady (h : FrameHdr) (src : Nat) (version : Half) (s : State) : Host.Outcome State Fault Refusal :=
  fabIn h 4 [src, version.toNat] (fun s =>
    match s.setups.find? (fun q => q.far.isNone && q.installing &&
        (if q.cfg.root then q.chan == version.toNat && q.members.contains src else q.cfg.peer.toNat == src && q.chan == version.toNat)) with
    | some q =>
      if !q.cfg.root then setupDone s q stOK (bodyOf [(0, 2, q.chan)])
      else
        let q1 := { q with members := q.members.erase src }
        let s1 := { s with setups := s.setups.map fun o => if o == q then q1 else o }
        if q1.members.isEmpty then
          q1.joined.foldl (fun s m => fabSend s 4 m.1 [s.fabric.modid, m.2]) (setupDone s1 q1 stOK
            (bodyOf [(0, 2, q.chan), (4, 4, q.fanin)]))
        else s1
    | none =>
      if s.fabric.acting && s.fabric.routeStage == 1 && version == s.fabric.routeNext then
        routeAdvance { s with fabric := { s.fabric with readyFrom := src :: s.fabric.readyFrom } }
      else s) s

/-- Remove what a setup has installed (R366). -/
def uninstall (s : State) (c : Nat) : State :=
  let x := chanOf s c
  if !x.valid then s
  else
    let s1 := leaveChan s c
    let s2 := match x.tree with | some t => onMesh s1 x.cfg (removeTree t) | none => s1
    { s2 with chans := del s2.chans c }

/-- A setup that ends before it is whole: rollback, the same status on every module (R366). -/
def rollback (s : State) (c : Nat) (st : Half) : State :=
  match s.setups.find? (fun q => q.far.isNone && q.chan == c) with
  | none => s
  | some q => failGroup (uninstall s c) q st

/-- CEND marks a channel ENDED, and the root passes it on to every module of the channel; one that is still being set up is rolled
back with the status that the record names; a module that the channel only passes through drops its entries (R366, R375). -/
def execCend (h : FrameHdr) (chan : Nat) (reason : Byte) (s : State) : Host.Outcome State Fault Refusal :=
  fabIn h 10 [chan, reason.toNat] (fun s =>
    if 4096 ≤ chan then dropKey (dropKey s false (chan - 4096)) true (chan - 4096)
    else if s.setups.any fun q => q.far.isNone && q.chan == chan then
      rollback s chan (if reason.toNat < 0x10 then stAborted else BitVec.ofNat 16 reason.toNat)
    else if (chanOf s chan).cfg.root then endChan s chan reason.toNat
    else endLocal s chan reason.toNat) s

/-- LOST: a frame of the channel was ended elsewhere, and the channel ends (R360, R365, R375). -/
def execLost (h : FrameHdr) (chan : Nat) (s : State) : Host.Outcome State Fault Refusal :=
  fabIn h 11 [chan] (fun s => endChan s chan 4) s

/-- A setup window ends: 1 s for a pair, 10 s for a group (R366). -/
def execChannelSetupWindowEnd (chan : Nat) (s : State) : Host.Outcome State Fault Refusal :=
  match s.setups.find? (fun q => q.chan == chan && !q.installing) with
  | none => .next s
  | some q =>
    if inWindow s q then .next s
    else if q.far.isSome then .next { s with setups := s.setups.filter (· != q) }
    else .next (rollback s chan stAborted)

/-- 400 ms after CEND an ended ID becomes free (R375), and its tree is removed from the mesh (R295). -/
def execChannelIdRelease (chan : Nat) (s : State) : Host.Outcome State Fault Refusal :=
  let x := chanOf s chan
  if x.valid ∧ x.ended ∧ x.endedAt + 400000000 ≤ s.ftime then
    .next { (match x.tree with | some t => onMesh s x.cfg (removeTree t) | none => s) with chans := del s.chans chan }
  else .next s

/-! ## Fabric time (R376 to R378) -/

/-- This module is the time root: it has been named so, or it stands alone as Bellwether. -/
def isTimeRoot (s : State) : Bool :=
  match s.fabric.timeRoot with | some r => s.fabric.modv && r == s.fabric.modid | none => s.fabric.bwSerial.isNone

/-- The link toward the parent: the lowest-numbered UP link of the group, on plane A, else on plane B. -/
def parentLink (s : State) (root : Nat) : Option Nat :=
  let on := fun (p : Bool) => match routeTo s p root with
    | some r => if r.locl then none else (routeLinks p r).find? fun l => (linkOf s l).st == LinkSt.up
    | none => none
  (on false).orElse fun _ => on true

/-- The time that a link die stamps at a frame boundary: its own copy (R317, R376). -/
def linkTime (s : State) (l : Nat) : Nat := copyOf s (8 + b2n (decide (16 ≤ l)))

def timeFrame (t1 t2 t3 : Nat) : TxFrame :=
  { fseq := 0, vc := 0, chan := 0, dest := 0, kind := 10, body := toBytes 8 t1 ++ toBytes 8 t2 ++ toBytes 8 t3 }

/-- Every 10 ms a module that is not the time root sends TIME to its parent (R376). `root` is the time root as the
fabric has it now. -/
def execTimeSyncTick (root : Nat) (s : State) : Host.Outcome State Fault Refusal :=
  let s1 := { s with fabric := { s.fabric with timeRoot := some root } }
  if isTimeRoot s1 then .next s1
  else match parentLink s1 root with
    | none => .next s1
    | some l => .next (sendOut s1 l (timeFrame (linkTime s l) 0 0))

/-- The distance of a time from the nearest multiple of 10^9 ns. -/
def ppsError (t : Nat) : Int :=
  let r := t % 1000000000
  if r ≤ 500000000 then (r : Int) else (r : Int) - 1000000000

/-- A 1PPS edge: valid at 1 s ± 1 ms after the last; the time root steers by it, another module measures (R377). -/
def execPpsEdge (s : State) : Host.Outcome State Fault Refusal :=
  let ok := match s.fabric.ppsLast with
    | some t => decide (t + 999000000 ≤ s.ftime) && decide (s.ftime ≤ t + 1001000000)
    | none => false
  let f := { s.fabric with ppsLast := some s.ftime, ppsValid := ok, holdover := (s.fabric.holdover || s.fabric.ppsValid) && !ok }
  if !ok then .next { s with fabric := f }
  else if isTimeRoot s then .next { s with fabric := { f with steer := -(ppsError s.ftime), rate := -(ppsError s.ftime) } }
  else .next { s with fabric := { f with ppsOffset := ppsError s.ftime } }

/-- No edge within 1 s + 1 ms of the last: the last rate holds, and holdover is reported (R377). -/
def execPpsLoss (s : State) : Host.Outcome State Fault Refusal :=
  match s.fabric.ppsLast with
  | none => .next s
  | some t =>
    if s.ftime ≤ t + 1001000000 then .next s
    else .next { s with fabric := { s.fabric with ppsValid := false, ppsLast := none, holdover := true } }

end Sys2Proof.Machine
end

