-- ==== Sys2Proof/Machine/ChanCmd.lean ====
section
/-! DEFINITION. The channel commands of R420: CHAN_SETUP for a pair and for a join, CHAN_GROUP, CHAN_TEARDOWN and
CHAN_QUERY, under R366 to R368. -/

namespace Sys2Proof.Machine
open Sys2Proof

/-- (NFMT, WFMT) is one of the widening pairs, or two equal codes (R368). -/
def fmtPair (n w : Nat) : Bool := (n == w && decide (n ≤ 4)) || (n == 2 && (w == 1 || w == 3)) || (n == 1 && w == 3)

/-- Field rules of a setup (R367, R368): a pair carries no group use, and RED takes VC3 or VC0. -/
def setupBad (pair : Bool) (plane vc use fmt group : Nat) : Bool :=
  let bit := fun (i : Nat) => use.testBit i
  decide (1 < plane) || decide (3 < vc) || decide (63 < use) || !fmtPair (fmt % 16) (fmt / 16) || group.testBit 6 ||
  (pair && (bit 3 || bit 4 || bit 5)) || (!pair && !(bit 3 || bit 4)) || (bit 3 && !(vc == 3 || vc == 0))

def cfgOf (t plane vc use fmt group peer fan : Nat) (root : Bool) : ChanCfg :=
  { tenant := BitVec.ofNat 6 t, peer := BitVec.ofNat 10 peer, plane := plane == 1, vc := BitVec.ofNat 2 vc
    sig := use.testBit 0, dma := use.testBit 1, gln := use.testBit 2, red := use.testBit 3, mc := use.testBit 4
    mcback := use.testBit 5, root := root, nfmt := BitVec.ofNat 4 (fmt % 16), wfmt := BitVec.ofNat 4 (fmt / 16)
    fanin := BitVec.ofNat 24 fan, group := BitVec.ofNat 6 group, grpv := group.testBit 7 }

/-- JOB: 0xFFFF, or a job of the tenant. -/
def jobBad (s : State) (t j : Nat) : Bool := j != 0xFFFF && (tabFind (tenantOf s t).jobs j).isNone

def uidOf (s : State) (t j : Nat) : Word64 := match tabFind (tenantOf s t).jobs j with | some x => x.uid | none => 0

/-- Channels a tenant holds, those being set up among them. -/
def chansHeld (s : State) (t : Nat) : Nat :=
  (s.chans.filter fun c => c.2.valid && !c.2.ended && c.2.cfg.tenant.toNat == t).length +
  (s.setups.filter fun q => q.far.isNone && !(chanOf s q.chan).valid && q.fn == t).length

/-- What every setup checks before it starts (R359, R366, R407, R420): a free ID, a Bellwether, MAX_CHAN, reachability. -/
def setupStart (s : State) (t : Nat) (plane : Bool) (members : List Nat) : Except Half Nat :=
  match freeChan s with
  | none => .error stNoResource
  | some c =>
    if s.fabric.bwSerial.isNone && !s.fabric.acting then .error stRetryLater
    else if (tenantOf s t).maxChan ≤ chansHeld s t then .error stDenied
    else if members.all fun m => (routeTo s plane m).isSome then .ok c else .error stUnreachable

/-- CHAN_SETUP with KIND 0, and with an undefined KIND. -/
def execChanSetup (e : Entry) (s : State) : Host.Outcome State Fault Refusal :=
  let f := fun (o n : Nat) => fld e.body o n
  if f 0 1 = 2 then .next s
  else cmdIn spChanSetup .long false
    (f 0 1 != 0 || setupBad true (f 1 1) (f 2 1) (f 3 1) (f 6 1) (f 7 1) || decide (1023 < f 4 2) || f 4 2 == s.fabric.modid)
    (jobBad s (targetOf e) (f 16 2))
    (fun t s =>
      match setupStart s t (f 1 1 == 1) [f 4 2] with
      | .error st => (resFail st, s)
      | .ok c =>
        let q : Setup := { chan := c, fn := t, op := 0x0500, tag := BitVec.ofNat 32 (f 8 4), uid := uidOf s t (f 16 2), since := s.ftime
                           cfg := cfgOf t (f 1 1) (f 2 1) (f 3 1) (f 6 1) (f 7 1) (f 4 2) 0 false }
        let s1 := sendSetup { s with setups := s.setups ++ [q] } q
        match s1.setups.find? (fun o => o.far.map (·.1) == some (f 4 2) && o.tag == q.tag && inWindow s o && !(o.cfg.red || o.cfg.mc)) with
        | none => (.wait c, s1)
        | some o =>
          let s2 := { s1 with setups := s1.setups.filter fun x => x != o && x != q }
          let st := pairStatus q.cfg o.cfg q.uid o.uid
          if st = stOK then
            (resBody 2 [(0, 2, c)],
             installChan s2 c { q.cfg with peerChan := BitVec.ofNat 12 (o.far.getD (0, 0)).2 } (BitVec.ofNat 16 (f 16 2)))
          else (resFail st, s2)) e s

/-- CHAN_SETUP with KIND 2: a member joins a group. -/
def execChanJoin (e : Entry) (s : State) : Host.Outcome State Fault Refusal :=
  let f := fun (o n : Nat) => fld e.body o n
  if f 0 1 ≠ 2 then .next s
  else cmdIn spChanSetup .long false
    (setupBad false (f 1 1) (f 2 1) (f 3 1) (f 6 1) (f 7 1) || decide (1023 < f 4 2) || f 4 2 == s.fabric.modid ||
     decide (16777216 < f 12 4))
    (jobBad s (targetOf e) (f 16 2))
    (fun t s =>
      match setupStart s t (f 1 1 == 1) [f 4 2] with
      | .error st => (resFail st, s)
      | .ok c =>
        let q : Setup := { chan := c, fn := t, op := 0x0500, tag := BitVec.ofNat 32 (f 8 4), uid := uidOf s t (f 16 2), since := s.ftime
                           fanin := f 12 4, cfg := cfgOf t (f 1 1) (f 2 1) (f 3 1) (f 6 1) (f 7 1) (f 4 2) 0 false }
        (.wait c, sendSetup { s with setups := s.setups ++ [q] } q)) e s

/-- The member IDs of CHAN_GROUP. -/
def memberIds (e : Entry) : List Nat :=
  (List.range (e.payloadLength.toNat / 2)).map fun i => ofBytes ((e.data.drop (2 * i)).take 2)

/-- The status of a group whose members had all joined before its root, where it could not be installed (R366). -/
def groupStatus (s : State) (q : Setup) (early : List Setup) : Half :=
  let fan := early.foldl (fun n o => n + o.fanin) q.fanin
  let ms := early.filterMap fun o => o.far.map (·.1)
  if early.any fun o => o.uid != q.uid then stDenied
  else if fan = 0 ∨ 16777216 < fan then stBadField
  else if (upTree s q.cfg.plane ms).isNone || (downTree s q.cfg.plane ms).isNone then stUnreachable
  else stNoResource

/-- CHAN_GROUP: set up a group channel as its root. -/
def execChanGroup (e : Entry) (s : State) : Host.Outcome State Fault Refusal :=
  let f := fun (o n : Nat) => fld e.body o n
  let n := e.payloadLength.toNat
  let ms := memberIds e
  cmdIn spChanGroup .long (n % 2 != 0 || decide (2048 < n))
    (setupBad false (f 8 1) (f 9 1) (f 10 1) (f 11 1) (f 12 1) || decide (16777216 < f 20 4) || decide (1023 < f 26 2 ∧ f 26 2 < 64512) ||
     ms.any (fun m => decide (1023 < m)) || ms.eraseDups.length != ms.length)
    (jobBad s (targetOf e) (f 24 2))
    (fun t s =>
      let me := s.fabric.modid
      match setupStart s t (f 8 1 == 1) (ms.filter (· != me)) with
      | .error st => (resFail st, s)
      | .ok c =>
        let cfg := { cfgOf t (f 8 1) (f 9 1) (f 10 1) (f 11 1) (f 12 1) me (f 20 4) true with aexp := BitVec.ofNat 10 (f 26 2) }
        let mine := ms.filter (· != me)
        let early := s.setups.filter fun o => o.tag == BitVec.ofNat 32 (f 16 4) && inWindow s o && (o.cfg.red || o.cfg.mc) &&
          match o.far with | some p => mine.contains p.1 | none => false
        let q : Setup := { chan := c, fn := t, op := 0x0501, tag := BitVec.ofNat 32 (f 16 4), uid := uidOf s t (f 24 2)
                           since := (early.map (·.since)).foldl min s.ftime
                           fanin := f 20 4, members := mine, cfg := cfg }
        let s1 := { s with setups := (s.setups.filter fun o => !early.contains o) ++ [q] }
        let s2 := if q.members.isEmpty then rootInstall s1 q else s1
        let s3 := early.foldl (fun s o =>
          match s.setups.find? (fun x => x.far.isNone && x.chan == c && x.op == 0x0501), o.far with
          | some x, some p => joinGroup s x p.1 p.2 o.fanin o.uid
          | _, _ => s) s2
        match s3.setups.find? (fun x => x.far.isNone && x.chan == c) with
        | some _ => (.wait c, s3)
        | none =>
          let x := chanOf s3 c
          if x.valid then (resBody 8 [(0, 2, c), (4, 4, x.cfg.fanin.toNat + 1)], s3)
          else (resFail (groupStatus s q early), s3)) e s

/-- A channel that the tenant holds. -/
def ownChan (s : State) (t c : Nat) : Bool := let x := chanOf s c; x.valid && x.cfg.tenant.toNat == t

/-- CHAN_TEARDOWN (R375). -/
def execChanTeardown (e : Entry) (s : State) : Host.Outcome State Fault Refusal :=
  let c := fld e.body 0 2
  cmdIn spChanTeardown .may false false (!ownChan s (targetOf e) c) (fun _ s => (resOk, endChan s c 0)) e s

/-- The next number to send: that of the first frame which waits for credit, where one does (R316, R367). -/
def nextSeq (x : Chan) : Word32 :=
  match x.later, x.redLater with
  | f :: _, _ => f.cseq
  | [], q :: _ => q.seq
  | [], [] => x.txSeq

/-- Bits 159:0 of a channel entry (R367). -/
def chanWord (x : Chan) : Nat :=
  b2n x.valid + 2 * b2n x.ended + cfgWord x.cfg + 2 ^ 96 * (nextSeq x).toNat + 2 ^ 128 * x.rxH.toNat

/-- CHAN_QUERY (R420). -/
def execChanQuery (e : Entry) (s : State) : Host.Outcome State Fault Refusal :=
  let c := fld e.body 0 2
  cmdIn spChanQuery .never false false (!ownChan s (targetOf e) c) (fun _ s =>
    let x := chanOf s c
    (resBody 48 [(0, 20, chanWord x), (24, 8, look 0 x.counters chSeqDiscard), (32, 8, look 0 x.counters chEndedDiscard),
                 (40, 8, look 0 x.counters chSigDiscard)], s)) e s

end Sys2Proof.Machine
end

