-- ==== Sys2Proof/Machine/Sync.lean ====
section
/-! DEFINITION. Signals (R166, R167, R306, R308) and engine commands (R169, R213, R335). -/

namespace Sys2Proof.Machine
open Sys2Proof

/-! ## The target word (R166) -/

def tCore (w : Word64) : Nat := field w 0 9
def tCh (w : Word64) : Bool := w.getLsbD 15
def tChan (w : Word64) : Nat := field w 16 12

/-- The checks of R166 in its order. -/
def sigFault (s : State) (t : Nat) (w : Word64) : Option Cause :=
  if field w 9 6 ≠ 0 ∨ field w 28 36 ≠ 0 ∨ Config.nCores ≤ tCore w ∨ (!tCh w ∧ tChan w ≠ 0) then some .bounds
  else if tCh w then
    (if chanHeld s t (tChan w) && (chanOf s (tChan w)).cfg.sig then none else some .permission)
  else if coreUsable s t (tCore w) then none
  else some .permission

/-- A signal leaves the core: to a core of the module, or as a frame of the channel on VC0 (R306). -/
def leaveSig (s : State) (src : Nat × Nat) (w : Word64) (sem cnt : Nat) : State :=
  if tCh w then chanFrame s (tChan w) 5 0 (toBytes 2 (tCore w) ++ [BitVec.ofNat 8 sem, BitVec.ofNat 8 cnt]) (some src.1)
  else sendSig s (tCore w) sem cnt (some src)

/-- An earlier signal of the context to the same core by the same path has not left (R308). -/
def sigAhead (k : Core) (n o : Nat) (w : Word64) : Bool :=
  k.held.any fun h => h.ctx == n && h.target == w && decide (h.order < o)

/-- A held signal may leave: its stores have their responses, and no earlier one of its path is held. -/
def sigFree (s : State) (c : Nat) (h : HeldSig) : Bool :=
  !(h.rel && storesBefore s c h.ctx h.order) && !sigAhead (coreOf s c) h.ctx h.order h.target

def releaseHeld (s : State) (c : Nat) (h : HeldSig) : State :=
  leaveSig (onCore s c fun k => { k with held := k.held.erase h }) (c, h.ctx) h.target h.sem h.cnt

/-- The plain signals that waited behind it follow. -/
def followHeld (s : State) (c : Nat) : State :=
  (coreOf s c).held.foldl (fun s h => if !h.rel && sigFree s c h then releaseHeld s c h else s) s

/-- sig and sig.rel (R167); CNT 0 is reserved (R146). A sig.rel with earlier stores open is held in the network interface, and so is a signal
whose predecessor on the same path is held (R308). -/
def execSig (x : Issue) (ga : Reg) (sem : SemNo) (cnt : Byte) (rel : Bool) (s : State) :
    Host.Outcome State Fault Refusal :=
  issue x (cnt != 0) [ga.toNat] [] (fun s =>
    let cx := stCtx s x.core x.ctx
    let w := readG cx ga.toNat
    match sigFault s cx.tenant.toNat w with
    | some c => .fault c 0 s
    | none =>
      let h : HeldSig := { id := s.nextId, ctx := x.ctx, order := cx.order, target := w, sem := sem.toNat
                           cnt := cnt.toNat, rel := rel }
      if sigFree s x.core h then .next (leaveSig s (x.core, x.ctx) w sem.toNat cnt.toNat)
      else .next { onCore s x.core fun k => { k with held := k.held ++ [h] } with nextId := s.nextId + 1 }) s

/-- The write responses of the earlier stores have returned: the signal leaves (R167, R306). -/
def execSigRelRelease (core id : Nat) (s : State) : Host.Outcome State Fault Refusal :=
  match (coreOf s core).held.find? (fun h => h.id == id) with
  | none => .next s
  | some h => if sigFree s core h then .next (followHeld (releaseHeld s core h) core) else .next s

/-! ## Engine commands (R169) -/

/-- A command enters the queue of 8, or its context waits in WAIT_UNIT. -/
def queueEngine (x : Issue) (e : EngCmd) (s : State) : Act :=
  if 8 ≤ (coreOf s x.core).eq.length then .wait .waitUnit .engineQueue s
  else .next (onCore s x.core fun k => { k with eq := k.eq ++ [e] })

/-- dsub: BOUNDS above channel 255, PERMISSION where the tenant does not hold it; SEM is reserved with SE = 0. -/
def execDsub (x : Issue) (gc gn : Reg) (se : Bool) (sem : SemNo) (s : State) : Host.Outcome State Fault Refusal :=
  issue x (se || sem == 0) [gc.toNat, gn.toNat] [] (fun s =>
    let cx := stCtx s x.core x.ctx
    let c := (readG cx gc.toNat).toNat
    if 255 < c then .fault .bounds 0 s
    else if !holdsDma s cx.tenant.toNat c then .fault .permission 0 s
    else queueEngine x { ctx := x.ctx, order := cx.order, gleaner := false, chan := c
                         pi := (readG cx gn.toNat).setWidth 16, se := se, sem := sem.toNat, tenant := cx.tenant.toNat } s) s

/-- gsub: ALIGN where the address is no multiple of 64. -/
def execGsub (x : Issue) (ga : Reg) (se : Bool) (sem : SemNo) (s : State) : Host.Outcome State Fault Refusal :=
  issue x (se || sem == 0) [ga.toNat] [] (fun s =>
    let cx := stCtx s x.core x.ctx
    let va := readG cx ga.toNat
    if va.toNat % 64 ≠ 0 then .fault .align va s
    else queueEngine x { ctx := x.ctx, order := cx.order, gleaner := true, va := va, se := se, sem := sem.toNat
                         tenant := cx.tenant.toNat } s) s

/-- The reference of a gsub in its core's list of open engine commands; those of dsub lie below 2^24. -/
def gsubRef (id : Nat) : Nat := 16777216 + id

/-- The engine can take the command at the head of a core's queue: a dsub with SE needs one of the channel's 16 pending
counts (R335), a gsub one of the 32 places of its Fold (R213). -/
def engineTakes (s : State) (core : Nat) (e : EngCmd) : Bool :=
  if e.gleaner then decide ((look ({} : Fold) s.folds (foldOf s core)).cmds.length < 32)
  else !e.se || decide ((dmaOf s e.chan).counts.length < 16)

/-- A dsub completes at once where no descriptor is left for it to name (R323, R335). -/
def dsubOpen (s : State) (c : Nat) (gn : Half) : Bool :=
  let d := dmaOf s c
  d.st != .stopped && gn != d.ci

def takeDsub (s : State) (core : Nat) (e : EngCmd) : State :=
  if !holdsDma s e.tenant e.chan then (if e.se then sendSig s core e.sem 1 else s)
  else
    let s1 := submitPi s e.chan e.pi (if e.se then some (core, e.sem) else none)
    if dsubOpen s1 e.chan e.pi then
      onCore s1 core fun k => { k with engOpen := k.engOpen ++ [(e.ctx, e.order, dsubRef e.chan (e.pi - 1).toNat)] }
    else s1

def takeGsub (s : State) (core : Nat) (e : EngCmd) : State :=
  let f := foldOf s core
  let fd : Fold := look {} s.folds f
  let g : GCmd := { id := s.nextId, tenant := e.tenant, core := core, ctx := e.ctx, order := e.order, va := e.va
                    se := e.se, sem := e.sem }
  let s1 := { s with nextId := s.nextId + 1, folds := put s.folds f { fd with cmds := fd.cmds ++ [g] } }
  onCore s1 core fun k => { k with engOpen := k.engOpen ++ [(e.ctx, e.order, gsubRef g.id)] }

/-- The command at the head of the core's queue is accepted, frees its slot (R169) and counts for its context while the task that
issued it runs there (R476): a command that outlived its task, or whose task is saved, stands under a number above 7. -/
def execEngineCommandAccept (core : Nat) (s : State) : Host.Outcome State Fault Refusal :=
  match (coreOf s core).eq with
  | [] => .next s
  | e :: t =>
    if !engineTakes s core e || (coreOf s core).fenced then .next s
    else
      let s1 := onCore s core fun k => if e.ctx < 8 then ctxBump { k with eq := t } e.ctx 0x10B 1 else { k with eq := t }
      .next (settle (if e.gleaner then takeGsub s1 core e else takeDsub s1 core e) core)

end Sys2Proof.Machine
end

