-- ==== Sys2Proof/Machine/Tasks.lean ====
section
/-! DEFINITION. The life of a task (R62 to R65, R83, R84, R94, R113, R318, R319) and time-slicing (R394 to R396). -/

namespace Sys2Proof.Machine
open Sys2Proof

def handleOf (s : State) (t h : Nat) : Option Handle := tabFind (tenantOf s t).handles h
def setHandle (s : State) (t h : Nat) (x : Handle) : State :=
  setTenant s t { tenantOf s t with handles := put (tenantOf s t).handles h x }

/-! ## Masks (R63, R396) -/

def ownedTiles (x : Ctx) : List Nat := (List.range 16).filter (ownsTile x)
def ownedBanks (x : Ctx) : List Nat := (List.range 4).filter (ownsBank x)
def ownedVregs (x : Ctx) : List Nat := (List.range 32).filter (ownsVreg x)
def ownedSems (r1 : Word64) : List Nat := (List.range 64).filter (r1.getLsbD ·)

/-- A context of the core that carries a task. -/
def taskCtxs (k : Core) : List (Nat × Ctx) := k.ctxs.filter fun x => x.2.st != .free && x.2.task.isSome

/-- The masks leave the masks of every bound context, and the semaphores of every other saved task, alone (R63, R396). -/
def maskFree (k : Core) (t h : Nat) (r0 r1 : Word64) : Bool :=
  (taskCtxs k).all (fun x => x.2.res0 &&& r0 == 0 && x.2.res1 &&& r1 == 0) &&
  k.saved.all fun v => (v.task.tenant == t && v.task.handle == h) || v.ctx.res1 &&& r1 == 0

def savedOf (k : Core) (t h : Nat) : Option Saved := k.saved.find? fun v => v.task.tenant == t && v.task.handle == h

/-- The masks of the task that a handle would start or resume next. -/
def nextMasks (k : Core) (t h : Nat) (x : Handle) : Option (Word64 × Word64) :=
  match savedOf k t h with
  | some v => some (v.ctx.res0, v.ctx.res1)
  | none => x.queue.head?.map fun d => (d.res0, d.res1)

/-- A handle has a task that may start or resume. -/
def wantsStart (k : Core) (t h : Nat) (x : Handle) : Bool :=
  x.st == .open_ && !x.killing && x.onCtx.isNone && ((savedOf k t h).isSome || !x.queue.isEmpty)

/-- Keep the core's list of waiting tasks, in order of arrival, true for one handle (R395). -/
def refreshWait (s : State) (t h : Nat) : State :=
  match handleOf s t h with
  | none => { s with cores := s.cores.map fun k => (k.1, { k.2 with waiting := k.2.waiting.filter fun w => !(w.1 == t && w.2.1 == h) }) }
  | some x => onCore s x.core fun k =>
    let had := k.waiting.any fun w => w.1 == t && w.2.1 == h
    if wantsStart k t h x then (if had then k else { k with waiting := k.waiting ++ [(t, h, s.ftime)] })
    else { k with waiting := k.waiting.filter fun w => !(w.1 == t && w.2.1 == h) }

/-! ## Start (R64, R94, R318, R396) -/

/-- What Uango records at the start (R318); `setup` is how each channel stands set up. -/
def startRecord (setup : Nat → ChanCfg) (k : Core) (d : TaskDesc) : TaskRecord :=
  { sems := (ownedSems d.res1).map fun q => (q, ((semOf k q).count, (semOf k q).ovf))
    tiles := ((List.range 16).filter fun i => d.res0.getLsbD i).map fun i => (i, look 0 d.tileCfg i)
    chans := d.chans.map fun c => (c, setup c) }

/-- The snapshot that a task of an evaluation handle pins: the working copy as it stands (R31, R210). -/
def snapshotOf (s : State) (t : Nat) (x : Handle) (d : TaskDesc) : Option Nat :=
  if x.kind = 1 then (tabFind (tenantOf s t).jobs d.job.toNat).map (·.buf) else none

/-- A queued task starts on a context: its state is as R64 gives it at task start, and the instruction cache is
invalidated (R151). -/
def startQueued (setup : Nat → ChanCfg) (k : Core) (n t h : Nat) (d : TaskDesc) (now : Nat) (pin : Option Nat) : Core :=
  let r := startRecord setup k d
  let k1 := r.tiles.foldl (fun k e => configure k n e.1 e.2) k
  setCtx { k1 with icache := [] } n
    { st := .ready, pc := d.entry, res0 := d.res0, res1 := d.res1, tenant := BitVec.ofNat 6 t
      taskSeq := (ctxOf k n).taskSeq + 1
      regs := (d.args.zipIdx.filter fun a => a.1 != 0).map fun a => (a.2 + 1, a.1)
      task := some { tenant := t, handle := h, desc := d, record := r, startedAt := now, pin := pin } }

/-- The state in which a saved context comes back: WAIT_PAGE stays unless its page has come in; everything else is
executed again (R78, R79, R168). -/
def resumedCtx (s : State) (x : Ctx) : Ctx :=
  match x.st, x.wait with
  | .waitPage, .page va =>
    match leafOf s x.tenant.toNat va with
    | some (l, _) => if pteV l.pte && pteBroken l.pte == 0 && !pteRes l.pte then x else readyCtx x
    | none => readyCtx x
  | .waitSem, _ => x
  | _, _ => readyCtx x

/-- Engine commands of context `n` go under another number: they outlive a fault (R83), and follow a saved task to the
context it comes back on (R396). -/
def moveEngine (k : Core) (n m : Nat) : Core :=
  { k with eq := k.eq.map fun e => if e.ctx == n then { e with ctx := m } else e
           engOpen := k.engOpen.map fun e => if e.1 == n then (m, e.2) else e }

/-- The number under which the engine commands of a saved task of a handle stand. -/
def savedNo (h : Nat) : Nat := 16 + h

/-- A recorded pass as its tmma issues again: none of its work has been done (R120). -/
def freshPass (n : Nat) (p : Pass) : Pass :=
  { p with ctx := n, stage := .queued, counted := false, hit := false, sums := [], qs := [], clears := [], ovfls := [], psnis := [] }

/-- A saved task comes back on a context (R65, R107, R113, R120, R396): its passes and vector entries enter their queues
again as there is room (R112). -/
def restoreSaved (s : State) (k : Core) (n : Nat) (v : Saved) : Core :=
  let old := ctxOf k n
  let x := resumedCtx s v.ctx
  let k1 := v.tiles.foldl (fun k e => setTile (dropTile k e.1) e.1 e.2) k
  let k2 := v.banks.foldl (fun k e => setBank k e.1 e.2) k1
  let k3 := v.vregs.foldl (fun k e => setVreg k e.1 e.2) k2
  let k4 := { moveEngine k3 (savedNo v.task.handle) n with
    saved := k3.saved.erase v
    rsrq := k3.rsrq ++ v.rsrs.map fun q => { q with ctx := n }
    sets := k3.sets.map fun e => match e.2.tag with
      | some g => if g.ctx == n then (e.1, { e.2 with tag := none }) else e
      | none => e }
  setCtx (coreBump k4 0x150 v.passes.length) n
    { x with taskSeq := v.ctx.taskSeq, yieldTimer := 0
             backP := v.passes.map (freshPass n)
             backV := v.entries.map fun e => { e with ctx := n }
             task := some { v.task with startedAt := s.ftime, issuedAt := look 0 x.counters 0x101 }
             order := max old.order x.order }

/-- The first task of a handle starts, or its saved task comes back, on a hardware context that is free for it (R64, R396,
R415). -/
def startTask (tenant handle ctx : Nat) (s : State) : State :=
  match handleOf s tenant handle with
  | none => s
  | some x =>
    let k := coreOf s x.core
    match nextMasks k tenant handle x with
    | none => s
    | some (r0, r1) =>
      if !wantsStart k tenant handle x || k.fenced || k.tenant != some tenant || !k.scrubbed || 8 ≤ ctx ||
          (ctxOf k ctx).st != .free || !maskFree k tenant handle r0 r1 then s
      else
        let k1 := match savedOf k tenant handle, x.queue with
          | some v, _ => restoreSaved s k ctx v
          | none, d :: _ => startQueued (fun c => (chanOf s c).cfg) k ctx tenant handle d s.ftime (snapshotOf s tenant x d)
          | none, [] => k
        let q := if (savedOf k tenant handle).isSome then x.queue else x.queue.drop 1
        let s1 := setHandle (setCore s x.core k1) tenant handle { x with queue := q, onCtx := some ctx }
        settle (refreshWait s1 tenant handle) x.core

/-- Uango starts or restores a task on a free context (R64, R396, R415); a start waits while Uango is away (R428, R450). -/
def execTaskStart (tenant handle ctx : Nat) (s : State) : Host.Outcome State Fault Refusal :=
  if uangoAway s then .next s else .next (startTask tenant handle ctx s)

/-! ## The end (R83, R84, R94, R319, R426, R427) -/

/-- TASK_CANCELLED (R424). -/
def cancelTask (s : State) (t h reason ticket : Nat) : State :=
  postEvent s t 0x0003 [(0, 2, h), (4, 1, reason), (28, 4, ticket)]

/-- FLUSH: the queued tasks are discarded, and a HALTED handle becomes OPEN (R415). -/
def flushHandle (s : State) (t h reason : Nat) : State :=
  match handleOf s t h with
  | none => s
  | some x =>
    let s1 := x.queue.foldl (fun s d => cancelTask s t h reason d.ticket) s
    refreshWait (setHandle s1 t h { x with queue := [], st := if x.st == .halted then .open_ else x.st }) t h

/-- The object of a CTX_CTRL command: tenant, handle and operation. -/
def ctxObj (t h op : Nat) : Nat := h + 65536 * op + 16777216 * t

/-- The killed context is FREE: the flush follows, a closing handle is freed, and the commands are answered. -/
def finishKill (s : State) (t h : Nat) : State :=
  match handleOf s t h with
  | none => s
  | some x =>
    if !x.killing then s
    else
      let reason := if (funcOf s t).fstate == .ending then 2 else 0
      let s1 := flushHandle (setHandle s t h { x with killing := false }) t h reason
      let s2 := if x.st == .closing then
          refreshWait (setTenant s1 t { tenantOf s1 t with handles := del (tenantOf s1 t).handles h }) t h else s1
      completeObj (completeObj s2 0x0121 (ctxObj t h 2) stOK 0 0) 0x0121 (ctxObj t h 3) stOK 0 0

/-- Return a context to FREE: the row validity of its tiles and the tags of its sets go (R94, R113). -/
def freeCtx (k : Core) (n : Nat) : Core :=
  let x := ctxOf k n
  let k1 := (ownedTiles x).foldl (fun k t => setTile (dropTile k t) t { tileOf k t with rowv := 0 })
    (moveEngine (offSlot k n) n 8)
  let k2 := { k1 with
    saving := k1.saving.filter fun e => e.1 != n
    sets := k1.sets.map fun e => match e.2.tag with
      | some g => if g.ctx == n then (e.1, { e.2 with tag := none }) else e
      | none => e }
  setCtx k2 n { x with st := .free, wait := .none, task := none, pendRegs := [], pendPreds := [], granted := [], absent := none
                       resume := false, backP := [], backV := [] }

/-- Every task of an ending tenant has ended. -/
def tasksOver (s : State) (t : Nat) : Bool :=
  s.cores.all fun k => k.2.tenant != some t || ((taskCtxs k.2).isEmpty && k.2.saved.isEmpty)

/-- Channels, DMA channels, tables and jobs of an ending tenant go once its tasks have ended (R426). -/
def tearDown (s : State) (t : Nat) : State :=
  match (tenantOf s t).scrub with
  | some b =>
    if b.torn || !tasksOver s t then s
    else
      let s0 := setTenant s t { tenantOf s t with scrub := some { b with torn := true } }
      let s1 := endChans s0 (fun _ x => x.cfg.tenant.toNat == t) 1
      let mine := (s1.dma.filter fun d => d.2.held && d.2.tenant.toNat == t).map (·.1)
      let s2 := mine.foldl releaseDma s1
      setTenant s2 t { tenantOf s2 t with handles := [], tables := [], jobs := [] }
  | none => s

/-- The object of a command on a job. -/
def jobObj (t j : Nat) : Nat := j + 65536 * t

/-- A task of the job has a context, or stands saved. -/
def jobBusy (s : State) (t j : Nat) : Bool :=
  s.cores.any fun k => k.2.tenant == some t &&
    ((taskCtxs k.2).any (fun x => match x.2.task with | some r => r.desc.job.toNat == j | none => false) ||
     k.2.saved.any fun v => v.task.desc.job.toNat == j)

/-- A JOB_STOP at once is whole when the last task of its job has ended (R417). -/
def settleStops (s : State) (t : Nat) : State :=
  (tenantOf s t).jobs.foldl (fun s j =>
    if j.2.stopping && !jobBusy s t j.1 then
      completeObj (setTenant s t { tenantOf s t with jobs := put (tenantOf s t).jobs j.1 { j.2 with stopping := false } })
        0x0405 (jobObj t j.1) stOK 0 0
    else s) s

/-- What follows once the context of a handle is FREE. -/
def handleIdle (s : State) (t h : Nat) : State :=
  settleStops (match handleOf s t h with
    | none => tearDown s t
    | some x => tearDown (finishKill (refreshWait (setHandle s t h { x with onCtx := none }) t h) t h) t) t

/-- A task has ended of itself: with a fault while others are queued the handle becomes HALTED (R427). -/
def countTicket (s : State) (t h : Nat) (fault : Bool) : State :=
  match handleOf s t h with
  | none => s
  | some x => setHandle s t h { x with ticketsDone := x.ticketsDone + 1
                                       st := if fault && !x.queue.isEmpty && x.st == .open_ then .halted else x.st }

/-- The fields of CTX_FAULT and TASK_DONE (R424). -/
def taskEvent (core n : Nat) (x : Ctx) (r : TaskRun) (cause : Nat) : List (Nat × Nat × Nat) :=
  [(0, 2, r.handle), (2, 1, n), (3, 1, cause), (4, 1, b2n x.imprecise + 2 * b2n x.multi), (6, 2, x.taskSeq.toNat),
   (8, 8, x.faultPc.toNat), (16, 8, x.faultAddr.toNat), (24, 2, core), (28, 4, r.desc.ticket)]

/-- The source of a channel on a core is not clean (R318): a frame of the core's task, or a block of it for the tree, waits uninjected.
A slot that the task's blocks opened has taken the core's input and waits for none of its own again (R294). -/
def sourceDirty (s : State) (core c : Nat) : Bool :=
  let x := chanOf s c
  let mine := fun (f : TxFrame) => f.core == some core && f.chan == x.cfg.peerChan && f.dest == x.cfg.peer
  let d := dieOf s x.cfg.plane
  let at_ := placeOf s core
  x.valid && !x.ended &&
  (x.later.any mine || s.fabric.held.any (fun e => mine e.2) || d.queue.any (fun e => mine e.2) || d.mcWait.any (fun e => mine e.2) ||
   (match x.tree with
    | some t => (meshPlanes x.cfg).any fun p => (routerOf s p (at_.2 * 16 + at_.1)).fifo.any fun e => e.2.dest == .tree t
    | none => false))

/-- End the open trees of a dirty channel and set it up again as recorded, with its sequence position unchanged (R319): the task's frames
and the tree's blocks go, and every module of the channel gets CEND and then the setup record. -/
def renewChan (core : Nat) (s : State) (e : Nat × ChanCfg) : State :=
  let c := e.1
  let x := chanOf s c
  let key := chanTreeKey s c
  let mine := fun (f : TxFrame) => f.core == some core && f.chan == x.cfg.peerChan && f.dest == x.cfg.peer
  let d := dieOf s x.cfg.plane
  let s1 := setDie { s with fabric := { s.fabric with held := s.fabric.held.filter fun e => !mine e.2 } } x.cfg.plane
    { d with slots := d.slots.filter (·.tree != key), parked := d.parked.filter (·.block.tree != key)
             queue := d.queue.filter fun e => !mine e.2, mcWait := d.mcWait.filter fun e => !mine e.2 }
  let s2 := match x.tree with
    | some t => onMesh s1 x.cfg fun r =>
        { r with slots := r.slots.filter (·.tree != t), inbuf := r.inbuf.filter (·.2.dest != .tree t)
                 fifo := r.fifo.filter (·.2.dest != .tree t), out := r.out.filter (·.2.dest != .tree t)
                 arbs := r.arbs.map fun a => (a.1, { a.2 with waiting := a.2.waiting.filter (·.2.dest != .tree t) }) }
    | none => s1
  (chanModules x).foldl (fun s m => fabSend (fabSend s 10 m.1 [m.2, 3]) 8 m.1 [m.2, c])
    (setChan s2 c { x with cfg := e.2, later := x.later.filter fun f => !mine f })

/-- Compare with the record and restore what differs (R319). -/
def compareTask (s : State) (core n : Nat) (r : TaskRun) : State × Bool :=
  let k := coreOf s core
  let sems := r.record.sems.filter fun e => ((semOf k e.1).count, (semOf k e.1).ovf) != e.2
  let tiles := r.record.tiles.filter fun e => (tileOf k e.1).cfg != e.2
  let chans := r.record.chans.filter fun e => sourceDirty s core e.1
  let k1 := sems.foldl (fun k e => setSem k e.1 { count := e.2.1, ovf := e.2.2 }) k
  let k2 := tiles.foldl (fun k e => configure k n e.1 e.2) k1
  (chans.foldl (renewChan core) (setCore s core k2), !(sems.isEmpty && tiles.isEmpty && chans.isEmpty))

/-- Signals of the context that its finished stores no longer hold (R167). -/
def flushHeld (s : State) (c n : Nat) : State :=
  ((coreOf s c).held.filter fun h => h.ctx == n).foldl (fun s h => releaseHeld s c h) s

/-- At DONE, Uango compares and restores, posts TASK_DONE or a fault with TASK_STATE_DIRTY, and frees the context (R84,
R319). -/
def execTaskDoneCompare (core ctx : Nat) (s : State) : Host.Outcome State Fault Refusal :=
  let x := stCtx s core ctx
  match x.task with
  | none => .next s
  | some r =>
    if x.st != .done || (coreOf s core).fenced || uangoAway s then .next s
    else
      let a := compareTask (flushHeld s core ctx) core ctx r
      let s1 := if a.2 then postEvent a.1 r.tenant 0x0001 (taskEvent core ctx x r (causeCode .taskStateDirty))
                else postEvent a.1 r.tenant 0x0002 [(0, 2, r.handle), (2, 1, ctx), (6, 2, x.taskSeq.toNat), (24, 2, core),
                                                    (28, 4, r.desc.ticket)]
      let s2 := onCore (countTicket s1 r.tenant r.handle a.2) core fun k => freeCtx k ctx
      .next (settle (handleIdle s2 r.tenant r.handle) core)

/-- The divider works for the context (R148). -/
def divides (k : Core) (n : Nat) : Bool := match k.divide with | some d => d.ctx == n | none => false

/-- The work R81 and R83 steps 2 and 3 let run has run. -/
def quietCtx (s : State) (c n : Nat) : Bool :=
  let k := coreOf s c
  !(s.reqs.any fun r => r.core == c && r.ctx == n && !isPrefetch r.who) && !(k.moves.any (·.ctx == n)) &&
  !((vecOpen k).any (·.ctx == n)) && !(k.aq.any (·.ctx == n)) && (ctxOf k n).backV.isEmpty &&
  !(k.rsrq.any (·.ctx == n)) && !divides k n

/-- Zero the banks a context owns (R83 step 5). -/
def zeroBanks (k : Core) (n : Nat) : Core := (ownedBanks (ctxOf k n)).foldl (fun k b => setBank k b {}) k

/-- Steps 5 to 7 of R83; a signal that waited behind a discarded sig.rel has left before them, and a tree that the task fed ends (R295). A killed task posts TASK_CANCELLED in place of CTX_FAULT
(R415). -/
def execFaultCleanupComplete (core ctx : Nat) (s : State) : Host.Outcome State Fault Refusal :=
  let x := stCtx s core ctx
  if x.st != .faulted || !quietCtx s core ctx || (coreOf s core).fenced || uangoAway s then .next s
  else match x.task with
    | none => .next (settle (onCore (followHeld s core) core fun k => freeCtx (zeroBanks k ctx) ctx) core)
    | some r =>
      let s1 := endTrees (followHeld s core) fun c => r.desc.chans.contains c
      let s2 := match r.killed with
        | some why => cancelTask s1 r.tenant r.handle why r.desc.ticket
        | none => postEvent s1 r.tenant 0x0001 (taskEvent core ctx x r (match x.cause with | some c => causeCode c | none => 0))
      let s3 := if r.killed.isSome then s2 else countTicket s2 r.tenant r.handle true
      .next (settle (handleIdle (onCore s3 core fun k => freeCtx (zeroBanks k ctx) ctx) r.tenant r.handle) core)

/-- KILL of the task on a context: as a fault, without its record; an exit that has issued, a fault and an end stand
(R415, R427). -/
def killCtx (s : State) (c n reason : Nat) : State :=
  let x := stCtx s c n
  if x.st == .free || x.st == .done || x.st == .faulted || x.wait == .exit then s
  else onCtx (faultCtx s c n .aborted 0 false 0 x.order) c n fun y =>
    { y with cause := none, faultPc := 0, faultAddr := 0, task := y.task.map fun r => { r with killed := some reason } }

/-- KILL of a handle, and CLOSE with `close`: its saved task ends at once, its running task as R83 says. -/
def killHandle (s : State) (t h : Nat) (close : Bool) (reason : Nat) : State :=
  match handleOf s t h with
  | none => s
  | some x =>
    let s1 := setHandle s t h { x with killing := true, st := if close then .closing else x.st }
    let s2 := match savedOf (coreOf s1 x.core) t h with
      | some v => cancelTask (onCore s1 x.core fun k => { k with saved := k.saved.erase v }) t h reason v.task.desc.ticket
      | none => s1
    match x.onCtx with
    | some n => killCtx (refreshWait s2 t h) x.core n reason
    | none => finishKill (refreshWait s2 t h) t h

/-! ## Time-slicing (R65, R79, R107, R120, R394 to R396) -/

/-- The quantum of a task in ns: its job's, or 2,000 µs where it names none (R383, log entry 32). -/
def quantumOf (s : State) (t : Nat) (job : Half) : Nat :=
  match tabFind (tenantOf s t).jobs job.toNat with
  | some j => field j.map 96 20 * 1000
  | none => 2000000

/-- The job of the task that a handle would start or resume next. -/
def nextJob (k : Core) (t h : Nat) (x : Handle) : Half :=
  match savedOf k t h with
  | some v => v.task.desc.job
  | none => match x.queue with | d :: _ => d.job | [] => 0xFFFF

/-- Rank of a context for a save (R395): 0 WAIT_SEM, 1 WAIT_PAGE, 2 the others. -/
def saveRank (x : Ctx) : Nat := match x.st with | .waitSem => 0 | .waitPage => 1 | _ => 2

/-- How long a context has issued since it last started or was restored. -/
def issuedFor (x : Ctx) : Nat :=
  look 0 x.counters 0x101 - (match x.task with | some r => r.issuedAt | none => 0)

/-- The context to save, ties to the lower index. -/
def saveChoice (l : List (Nat × Ctx)) : Option Nat :=
  match l with
  | [] => none
  | e :: t => some (t.foldl (fun b c =>
      if saveRank c.2 < saveRank b.2 ∨ (saveRank c.2 = saveRank b.2 ∧ saveRank c.2 = 2 ∧ issuedFor b.2 < issuedFor c.2) then c
      else b) e).1

/-- Two tasks share no resource of their masks. -/
def apart (a b : Word64 × Word64) : Bool := a.1 &&& b.1 == 0 && a.2 &&& b.2 == 0

/-- A free context that no earlier waiting task counts on can take a task of these masks without slicing; `claims` holds the
masks of those earlier tasks. -/
def canStart (k : Core) (claims : List (Word64 × Word64)) (t h : Nat) (m : Word64 × Word64) : Bool :=
  decide (claims.length < ((List.range 8).filter fun n => (ctxOf k n).st == .free).length) &&
  maskFree k t h m.1 m.2 && claims.all (apart m)

/-- Fabric time has just reached a multiple of the quantum, or has stepped over one while an offset is steered out (R376,
R395). -/
def atQuantum (s : State) (q : Nat) : Bool := decide (s.ftime % q < if s.fabric.rateTick = 0 then 20 else 10)

/-- The contexts that R395 lets a boundary save: those that started or came back before this window, and of which no save is
under way. -/
def saveFits (s : State) (k : Core) (q : Nat) : List (Nat × Ctx) :=
  (taskCtxs k).filter fun e =>
    e.2.st != .done && e.2.st != .faulted && !(k.saving.any fun v => v.1 == e.1) &&
    (match e.2.task with | some r => decide (r.startedAt < s.ftime / q * q) | none => false)

/-- Choose a context for one waiting task that has none yet, at the boundary of its quantum; the masks of the tasks that a free
context takes are carried along. -/
def sliceOne (core : Nat) (a : State × List (Word64 × Word64)) (w : Nat × Nat × Nat) : State × List (Word64 × Word64) :=
  let s := a.1
  let k := coreOf s core
  match handleOf s w.1 w.2.1 with
  | none => a
  | some x =>
    match nextMasks k w.1 w.2.1 x with
    | none => a
    | some m =>
      let q := max 1 (quantumOf s w.1 (nextJob k w.1 w.2.1 x))
      if canStart k a.2 w.1 w.2.1 m then (s, m :: a.2)
      else if !atQuantum s q || k.saving.any (·.2 == w.2.1) then a
      else match saveChoice (saveFits s k q) with
      | none => a
      | some n =>
        let k1 := if k.running == some n then setCtx (offSlot k n) n (readyCtx (ctxOf k n)) else k
        (setCore s core { k1 with saving := k1.saving ++ [(n, w.2.1)] }, a.2)

/-- At a boundary of the quantum Uango chooses a context to save for each waiting task, in order of arrival (R395). -/
def execTimeSliceBoundary (core : Nat) (s : State) : Host.Outcome State Fault Refusal :=
  if (coreOf s core).fenced || uangoAway s then .next s else .next ((coreOf s core).waiting.foldl (sliceOne core) (s, [])).1

/-- A vector entry that the save records with the passes it removes (R120): it waits behind one of them, and it moves no
memory data (log entry 153). -/
def savesEntry (k : Core) (e : VEntry) : Bool :=
  !(e.op == .ld || e.op == .st || e.op == .ldl || e.op == .stl) &&
  k.aq.any fun p => p.ctx == e.ctx && p.stage != .committing && decide (p.order < e.order)

/-- The requests and the divide of a chosen context have ended, and its units hold only passes that have not begun to commit
and what waits behind them (R65, R120). -/
def saveReady (s : State) (c n : Nat) : Bool :=
  let k := coreOf s c
  let x := ctxOf k n
  let fence := match x.wait with | .fence _ => true | .exit => true | _ => false
  !(s.reqs.any fun r => r.core == c && r.ctx == n && !isPrefetch r.who) && !(k.moves.any (·.ctx == n)) &&
  (k.vq.all fun e => e.ctx != n || savesEntry k e) && !(k.vrun.any (·.entry.ctx == n)) && !divides k n &&
  !(k.aq.any fun p => p.ctx == n && p.stage == .committing) &&
  (x.st != .waitMem || fence) && x.st != .free && x.st != .done && x.st != .faulted

/-- The rows of a tile that a save keeps (R107). -/
def savedTile (x : Tile) : Tile :=
  { x with data := (List.range 64).foldl (fun m r => if x.rowv.getLsbD r then setBytes m (64 * r) (tileRow x r) else m) []
           strip := (List.range 64).foldl (fun m r =>
             let b := blocksPerRow (cfgFmt x.cfg) (cfgWords x.cfg)
             if x.rowv.getLsbD r then setBytes m (r * b) (tileScales x r) else m) [] }

/-- Save a context and free it (R65, R107, R120, R396): its semaphores stay and their counts are recorded, and so are its
unfinished passes with what waits behind them. -/
def saveCtx (k : Core) (n : Nat) (r : TaskRun) : Core :=
  let x := ctxOf k n
  let v : Saved :=
    { task := r, ctx := { x with yieldTimer := 0, granted := [] }
      tiles := (ownedTiles x).map fun t => (t, savedTile (tileOf k t))
      banks := (ownedBanks x).map fun b => (b, bankOf k b)
      vregs := (ownedVregs x).map fun v => (v, vregOf k v)
      sems := (ownedSems x.res1).map fun q => (q, ((semOf k q).count, (semOf k q).ovf))
      passes := k.aq.filter (fun p => p.ctx == n) ++ x.backP
      entries := k.vq.filter (fun e => e.ctx == n) ++ x.backV
      rsrs := k.rsrq.filter (fun q => q.ctx == n) }
  let k0 := moveEngine k n (savedNo r.handle)
  let k1 := returnTags { k0 with aq := k0.aq.filter (fun p => p.ctx != n), vq := k0.vq.filter (fun e => e.ctx != n)
                                 saved := k0.saved ++ [v], rsrq := k0.rsrq.filter (fun q => q.ctx != n)
                                 tagQueue := k0.tagQueue.filter (fun q => q.1 != n) } n
  freeCtx k1 n

/-- A save has completed: the context is FREE, its task waits to resume, and the task that the save was made for starts or
comes back on it (R396). -/
def execContextSaveComplete (core ctx : Nat) (s : State) : Host.Outcome State Fault Refusal :=
  let k := coreOf s core
  match (ctxOf k ctx).task with
  | none => .next s
  | some r =>
    if !(k.saving.any fun e => e.1 == ctx) || !saveReady s core ctx || k.fenced || uangoAway s then .next s
    else
      let s0 := flushHeld s core ctx
      let s1 := onCore s0 core fun k => saveCtx k ctx r
      let s2 := match handleOf s1 r.tenant r.handle with
        | none => s1
        | some x => settle (refreshWait (setHandle s1 r.tenant r.handle { x with onCtx := none }) r.tenant r.handle) core
      .next (match k.saving.find? (fun e => e.1 == ctx) with
        | some e => startTask r.tenant e.2 ctx s2
        | none => s2)

end Sys2Proof.Machine
end

