-- ==== Sys2Proof/Machine/MemCmd.lean ====
section
/-! DEFINITION. The memory commands of R418 under R77 and R260 to R266, the distance table's mapping (R290), and host
accesses that wait for a page. -/

namespace Sys2Proof.Machine
open Sys2Proof

/-! ## Ranges of pages -/

/-- The leaves that a range touches: page address, leaf, 1 GiB page. -/
def leavesIn (x : Tenant) (va n : Nat) : List (Nat × Leaf × Bool) :=
  (x.small.filter fun e => decide (e.1 * Config.page2M < va + n) && decide (va < (e.1 + 1) * Config.page2M)).map
    (fun e => (e.1 * Config.page2M, e.2, false)) ++
  (x.big.filter fun e => decide (e.1 * Config.page1G < va + n) && decide (va < (e.1 + 1) * Config.page1G)).map
    fun e => (e.1 * Config.page1G, e.2, true)

/-- The range is exactly a set of mapped pages (R418 MEM_UNMAP and MEM_PIN). -/
def wholePages (x : Tenant) (va n : Nat) : Bool :=
  let l := leavesIn x va n
  l.all (fun e => decide (va ≤ e.1) && decide (e.1 + pageBytes e.2.2 ≤ va + n)) &&
  l.foldl (fun a e => a + pageBytes e.2.2) 0 == n

/-- The bytes of [lo, hi) that page `e` backs: of a page on local stores, those of the 640 KiB of either core's window (R11, R72). -/
def backedIn (e : Nat × Leaf × Bool) (lo hi : Nat) : Nat :=
  let within := fun (a n : Nat) => min hi (a + n) - max lo a
  if pteTier e.2.1.pte = 3 then within e.1 Config.lsBytes + within (e.1 + 0x100000) Config.lsBytes
  else within e.1 (pageBytes e.2.2)

/-- The range is mapped whole, and every byte of it exists. -/
def mappedAll (x : Tenant) (va n : Nat) : Bool :=
  decide (va + n ≤ 2 ^ 48) && (leavesIn x va n).foldl (fun a e => a + backedIn e va (va + n)) 0 == n

/-! ## The order of commands on the same bytes (R408) -/

/-- Two commands name overlapping ranges, or the same weight set, so that they take effect in ring order (R408). -/
def hostClash (a b : HostAcc) : Bool :=
  a.tenant == b.tenant && ((decide (a.va < b.va + b.len) && decide (b.va < a.va + a.len)) ||
    match a.weight, b.weight with | some x, some y => x.1 == y.1 | _, _ => false)

/-- A MEM_UNMAP of an overlapping range waits behind an access: a command that looks at the pages is read once it is done (R408, log
entry 198). -/
def unmapAhead (s : State) (e : Entry) (va n : Nat) : Bool :=
  s.hostWait.any fun b => b.op == 0x0201 && hostClash { op := 0, obj := 0, tenant := targetOf e, va := va, len := n, write := true } b

/-! ## MEM_MAP (R260 to R266, R418) -/

/-- The fields of MEM_MAP. -/
structure MapReq where
  va : Nat
  size : Nat
  tier : Nat
  perm : Nat
  paged : Bool
  pin : Bool
  big : Bool
  place : Nat
  core : Nat
  deriving DecidableEq, Repr

def mapPage (q : MapReq) : Nat := pageBytes q.big

/-- The page addresses of a mapping. -/
def mapPages (q : MapReq) : List Nat := (List.range (q.size / mapPage q)).map fun i => q.va + i * mapPage q

/-- The field rules of MEM_MAP (R263, R418). -/
def mapBad (x : Tenant) (q : MapReq) : Bool :=
  decide (3 < q.tier) || decide (7 < q.perm) || q.va % mapPage q != 0 || q.size % mapPage q != 0 ||
  (q.paged && (decide (2 ≤ q.tier) || q.big)) || (q.tier == 3 && q.big) ||
  (if q.tier = 0 then decide (8 < q.place) else q.place != 0) ||
  (if q.tier = 3 then q.core % 2 != 0 || decide (Config.nCores < q.core + 2 * (q.size / mapPage q)) else q.core != 0) ||
  !(leavesIn x q.va q.size).isEmpty

/-- The leaf word of a new page (R261). -/
def newPte (q : MapReq) (addr : Nat) : Word64 :=
  BitVec.ofNat 64 (1 + 2 * q.perm + 16 + 32 * b2n (!q.paged) + 64 * q.tier + 256 * b2n q.pin + 2048 * b2n q.paged +
    (if q.paged then 0 else addr))

def newLeaf (q : MapReq) (addr : Nat) (backing : Option Nat) : Leaf :=
  { pte := newPte q addr, place := q.place, backing := backing }

/-- Give `n` frames to a tenant. -/
def assignFrames (t f n : Nat) (s : State) : State := (List.range n).foldl (fun s i => assignFrame s t (f + i)) s

/-- Place one page: none where no frame, no share or no Far unit is left (R263, R264), or where the Far tier is read-only: for
a paged mapping by R281, for a fixed one because its frames cannot be zeroed (log entry 155). A backing copy stands for zeros
and is not written (R266). -/
def placePage (t : Nat) (q : MapReq) (s : State) (va : Nat) : Option State :=
  let x := tenantOf s t
  let n := if q.big then 512 else 1
  let stack := if q.tier = 0 then stackOf va { place := q.place } q.big else 0
  let used := usedFrames s
  let farRoom := decide (farUsed x + (if q.tier = 2 then n else 1) ≤ x.farUnits)
  if q.tier = 3 then some (setLeaf s t va q.big (newLeaf q (lsAddr (q.core + 2 * ((va - q.va) / Config.page2M)) 0) none))
  else if s.far.readOnly && (q.paged || q.tier == 2) then none
  else if q.paged then
    if !farRoom then none
    else match freeFrame used 2 0 with
      | none => none
      | some b => some (setLeaf (giveFrame s t b) t va q.big (newLeaf q 0 (some b)))
  else if q.tier = 2 && !farRoom then none
  else if q.tier != 2 && decide (poolShare x q.tier < poolUsed s t q.tier stack + pinnedOut s t q.tier stack (2 ^ 48) + n) then none
  else ((if q.big then freeRange used q.tier stack else freeFrame used q.tier stack)).map fun f =>
    setLeaf (assignFrames t f n s) t va q.big (newLeaf q (f * Config.page2M) none)

def placeAll (t : Nat) (q : MapReq) : List Nat → State → Option State
  | [], s => some s
  | va :: rest, s => match placePage t q s va with | some s1 => placeAll t q rest s1 | none => none

/-- Frames of an allotment that a mapping or a pin takes from paging leave at least 16 (R264). -/
def leaves16 (x : Tenant) (tier more : Nat) : Bool :=
  let all := match tier with | 0 => x.nearFrames | _ => x.midFrames
  decide (2 ≤ tier) || decide (heldFrames x tier + more + 16 ≤ all)

/-- Map a range: the whole of it or nothing. -/
def mapRange (s : State) (t : Nat) (q : MapReq) : Option State :=
  let fixedN := if q.paged && !q.pin then 0 else q.size / Config.page2M
  if fixedN != 0 && !leaves16 (tenantOf s t) q.tier fixedN then none else placeAll t q (mapPages q) s

def execMemMap (e : Entry) (s : State) : Host.Outcome State Fault Refusal :=
  let f := fun (o n : Nat) => fld e.body o n
  let q : MapReq := { va := f 0 8, size := f 8 8, tier := f 16 1, perm := f 17 1, paged := (f 18 1).testBit 0
                      pin := (f 18 1).testBit 1, big := (f 18 1).testBit 2, place := f 19 1, core := f 20 2 }
  if unmapAhead s e q.va q.size then .next s
  else cmdIn spMemMap .may (q.size == 0 || decide (2 ^ 48 < q.va + q.size))
    (decide (7 < f 18 1) || mapBad {} q) (mapBad (tenantOf s (targetOf e)) q)
    (fun t s => match mapRange s t q with
      | none => (resFail stNoResource, s)
      | some s1 =>
        if q.tier = 3 && !(List.range (2 * (q.size / Config.page2M))).all fun i => (coreOf s (q.core + i)).tenant == some t then
          (resFail stDenied, s)
        else (resOk, s1)) e s

/-! ## MEM_UNMAP (R77, R418) -/

/-- The frames a leaf gives back, its backing copy among them. -/
def leafBack (l : Leaf) (big : Bool) : List Nat := if l.dist then [] else leafFrames l (if big then 512 else 1)

/-- Remove one page: its leaf goes at once, its frames after the acknowledgements. -/
def unmapPage (t c : Nat) (s : State) (e : Nat × Leaf × Bool) : State :=
  let va := e.1
  let x := tenantOf s t
  let job := s.jobsPg.filter fun j => j.tenant == t && j.va == va
  let s1 := setTenant s t (if e.2.2 then { x with big := del x.big (va / Config.page1G) }
                           else { x with small := del x.small (va / Config.page2M) })
  let s2 := { s1 with jobsPg := s1.jobsPg.filter fun j => !(j.tenant == t && j.va == va) }
  let r := sendInval s2 t va (pageBytes e.2.2) (pteAddr e.2.1.pte)
  let frames := leafBack e.2.1 e.2.2 ++ job.flatMap fun j => jobFrame j.work
  answerAllPage { r.2 with invals := r.2.invals.map fun v => if v.id == r.1 then { v with frames := frames, cmd := c } else v }
    t (va / Config.page2M)

/-- Unmap a range of whole pages; `c` is the number by which its command waits. BAR2 windows over it go. -/
def unmapRange (s : State) (t c va n : Nat) : State :=
  let s1 := (leavesIn (tenantOf s t) va n).foldl (unmapPage t c) s
  let x := tenantOf s1 t
  setTenant s1 t { x with apertures := x.apertures.filter fun a => !(decide (a.2.2 < va + n) && decide (va < a.2.2 + a.2.1)) }

def execMemUnmap (e : Entry) (s : State) : Host.Outcome State Fault Refusal :=
  let va := fld e.body 0 8
  let n := fld e.body 8 8
  cmdIn spMemUnmap .long false false (!wholePages (tenantOf s (targetOf e)) va n)
    (fun t s =>
      let a : HostAcc := { op := 0x0201, obj := s.nextId, tenant := t, va := va, len := n, write := true }
      let s1 := { s with nextId := s.nextId + 1 }
      if n = 0 then (resOk, s)
      else if s.hostWait.any (hostClash a) then (.wait a.obj, { s1 with hostWait := s1.hostWait ++ [a] })
      else (.wait a.obj, unmapRange s1 t a.obj va n)) e s

/-- The commands that wait for an invalidation. -/
def endUnmap (s : State) (c : Nat) : State :=
  if c = 0 ∨ (s.invals.any fun v => v.cmd == c) then s
  else completeObj (completeObj s 0x0201 c stOK 0 0) 0x0301 c stOK 0 0

/-- Every agent has acknowledged: the page's frames are free (R77). -/
def inval1 (s : State) (v : Inval) (agent : Nat) : State :=
  let left := v.left.erase agent
  if left.isEmpty then
    let s1 := { s with invals := s.invals.filter fun o => o.id != v.id }
    pumpPages (endUnmap (v.frames.foldl releaseFrame s1) v.cmd)
  else { s with invals := s.invals.map fun o => if o.id == v.id then { o with left := left } else o }

/-- An agent drops the entries an invalidation names, prefetch lines with them (R275), and acknowledges once every
request translated with them has ended (R77). -/
def execTranslationInvalidate (id agent : Nat) (s : State) : Host.Outcome State Fault Refusal :=
  match s.invals.find? (fun v => v.id == id && v.left.contains agent) with
  | none => .next s
  | some v =>
    let s1 := if agent < 1000 then onCore s agent fun k =>
        pfInvalidate { k with tlb := k.tlb.filter fun e =>
          !(e.tenant == v.tenant && decide (e.vpn * pageBytes e.big < v.va + v.len) &&
            decide (v.va < e.vpn * pageBytes e.big + pageBytes e.big)) } v.pa v.len
      else s
    if agent < 1000 && openIn s agent v then .next s1 else .next (inval1 s1 v agent)

/-! ## MEM_PIN and MEM_UNPIN (R264) -/

def pinLeaf (t : Nat) (on : Bool) (s : State) (e : Nat × Leaf × Bool) : State :=
  setLeaf s t e.1 e.2.2 { e.2.1 with pte := setField e.2.1.pte 8 1 (b2n on) }

/-- Frames that a pin takes from paging, per tier. -/
def pinTakes (x : Tenant) (va n tier : Nat) : Nat :=
  ((leavesIn x va n).filter fun e => pteTier e.2.1.pte == tier && ptePaged e.2.1.pte && !ptePin e.2.1.pte).length

/-- The two rows of MEM_PIN share opcode 0x0202. -/
def memPin (on : Bool) (e : Entry) (s : State) : Host.Outcome State Fault Refusal :=
  let va := fld e.body 0 8
  let n := fld e.body 8 8
  let op := fld e.body 16 1
  if op = b2n on || unmapAhead s e va n then .next s
  else
    cmdIn spMemPin .may (n == 0) (decide (1 < op)) (!wholePages (tenantOf s (targetOf e)) va n)
      (fun t s =>
        let x := tenantOf s t
        let fits := fun (tier : Nat) => pinTakes x va n tier = 0 || leaves16 x tier (pinTakes x va n tier)
        if on && !(fits 0 && fits 1) then (resFail stNoResource, s)
        else (resOk, (leavesIn x va n).foldl (pinLeaf t on) s)) e s

/-- Pin: OP 0, and an OP beyond the range. -/
def execMemPin (e : Entry) (s : State) : Host.Outcome State Fault Refusal := memPin true e s
/-- Unpin: OP 1. -/
def execMemUnpin (e : Entry) (s : State) : Host.Outcome State Fault Refusal := memPin false e s

/-! ## Host accesses (R418) -/

/-- Every page of a range is resident, or the cause with which one has been lost. -/
def rangeReady (s : State) (t va n : Nat) : Except Cause Bool :=
  let l := leavesIn (tenantOf s t) va n
  match l.find? fun e => pteBroken e.2.1.pte != 0 with
  | some e => .error (if pteBroken e.2.1.pte = 2 then .integrity else .memError)
  | none => .ok (mappedAll (tenantOf s t) va n && l.all fun e => pteRes e.2.1.pte)

/-- The final outcome of an owed command, data included (R406, R408). -/
def completeData (s : State) (op obj : Nat) (st : Half) (len : Nat) (body : BitVec 384) (data : Option (List Byte)) : State :=
  { s with funcs := s.funcs.map fun f => (f.1, { f.2 with owed := f.2.owed.map fun c =>
      if c.opcode.toNat == op && c.obj == obj && c.status.isNone then
        { c with status := some st, length := len, body := body, data := data } else c }) }

/-- A part of a weight set has been written: the set is extended by it, and its digest is measured at FINAL (R419). -/
def extendSet (s : State) (a : HostAcc) : State :=
  match a.weight with
  | none => s
  | some (p, off, final) =>
    let x := tenantOf s a.tenant
    let all := (look ({} : WeightSet) x.weights p).got ++ a.bytes
    let w : WeightSet := if final then { off := off + a.len, final := true, digest := Config.sha384 all, at_ := s.ftime }
                         else { got := all, off := off + a.len }
    setTenant s a.tenant { x with weights := put x.weights p w }

/-- OFFSET of a part is no longer what the set has received: the part before it has failed. -/
def wrongPart (s : State) (a : HostAcc) : Bool :=
  match a.weight with
  | none => false
  | some (p, off, _) => (look ({} : WeightSet) (tenantOf s a.tenant).weights p).off != off

/-- Do an access whose pages are resident. -/
def hostAccess (s : State) (a : HostAcc) : State × Half × Option (List Byte) :=
  if wrongPart s a then (s, stBadField, none)
  else if a.write then
    match vaWrite s a.tenant a.va a.bytes .clean with
    | (s1, none) => (extendSet s1 a, stOK, none)
    | (s1, some c) => (s1, causeStatus c, none)
  else match vaRead s a.tenant a.va a.len .clean with
    | (s1, .ok b) => (s1, stOK, some b)
    | (s1, .err c) => (s1, causeStatus c, none)

/-- One access of the host: at once where its pages are resident and no command before it waits on the same bytes, else it waits
(R408, R418). -/
def hostStart (s : State) (a : HostAcc) : Res × State :=
  if s.hostWait.any (hostClash a) then (.wait a.obj, { s with hostWait := s.hostWait ++ [a] })
  else match rangeReady s a.tenant a.va a.len with
  | .error c => (resFail (causeStatus c), s)
  | .ok true =>
    let r := hostAccess s a
    (if r.2.1 = stOK then .done stOK a.blen a.body r.2.2 else resFail r.2.1, r.1)
  | .ok false => (.wait a.obj, { s with hostWait := s.hostWait ++ [a] })

/-- A waiting command goes on once its pages are in and no command before it waits on the same bytes; one whose page is gone or lost
ends. -/
def hostGo (s : State) (a : HostAcc) : State :=
  let drop := fun (s : State) => { s with hostWait := s.hostWait.erase a }
  if (s.hostWait.takeWhile fun b => b.obj != a.obj).any (hostClash a) then s
  else if a.op = 0x0201 then unmapRange (drop s) a.tenant a.obj a.va a.len
  else if !mappedAll (tenantOf s a.tenant) a.va a.len then completeData (drop s) a.op a.obj stBadLength 0 0 none
  else match rangeReady s a.tenant a.va a.len with
    | .error c => completeData (drop s) a.op a.obj (causeStatus c) 0 0 none
    | .ok false => s
    | .ok true =>
      let r := hostAccess (drop s) a
      if r.2.1 = stOK then completeData r.1 a.op a.obj stOK a.blen a.body r.2.2 else completeData r.1 a.op a.obj r.2.1 0 0 none

/-- The waiting commands of a tenant go on, in ring order. -/
def pumpHost (s : State) (tenant : Nat) : State := (s.hostWait.filter fun a => a.tenant == tenant).foldl hostGo s

/-- A page becomes resident: every context waiting on it becomes READY (R78), and host accesses go on (R418). -/
def execPageResident (tenant : Nat) (va : Word64) (s : State) : Host.Outcome State Fault Refusal :=
  .next (pumpHost (answerAllPage s tenant (va.toNat / Config.page2M)) tenant)

/-- The last write response of a page-in (R266). One that fails loses the page, and the host accesses that wait for it end (R269,
R418). -/
def execPageInCopyComplete (tenant : Nat) (va : Word64) (err : Option Cause) (s : State) : Host.Outcome State Fault Refusal :=
  .next (pumpHost (pageInDone tenant va err s) tenant)

def execMemWrite (e : Entry) (s : State) : Host.Outcome State Fault Refusal :=
  let va := fld e.body 8 8
  let n := e.payloadLength.toNat
  cmd spMemWrite .long (!mappedAll (tenantOf s (targetOf e)) va n) false
    (fun t s => hostStart { s with nextId := s.nextId + 1 }
      { op := 0x0203, obj := s.nextId, tenant := t, va := va, len := n, write := true, bytes := e.data.take n }) e s

def execMemRead (e : Entry) (s : State) : Host.Outcome State Fault Refusal :=
  let va := fld e.body 8 8
  let n := e.payloadLength.toNat
  cmd spMemRead .long (!mappedAll (tenantOf s (targetOf e)) va n) false
    (fun t s => hostStart { s with nextId := s.nextId + 1 }
      { op := 0x0204, obj := s.nextId, tenant := t, va := va, len := n, write := false }) e s

/-! ## BAR2 windows, queries and the distance table -/

def execApertureMap (e : Entry) (s : State) : Host.Outcome State Fault Refusal :=
  let va := fld e.body 0 8
  let n := fld e.body 8 8
  let off := fld e.body 16 8
  let x := tenantOf s (targetOf e)
  let fixed := mappedAll x va n && (leavesIn x va n).all fun l => !ptePaged l.2.1.pte && pteTier l.2.1.pte != 3
  cmdIn spApertureMap .never (decide (2 ^ (funcOf s (targetOf e)).barLog2 < off + n))
    (va % Config.page2M != 0 || n % Config.page2M != 0 || off % Config.page2M != 0)
    (!fixed || x.apertures.any fun a => decide (a.1 < off + n) && decide (off < a.1 + a.2.1))
    (fun t s => (resOk, setTenant s t { tenantOf s t with apertures := (tenantOf s t).apertures ++ [(off, n, va)] })) e s

def execApertureUnmap (e : Entry) (s : State) : Host.Outcome State Fault Refusal :=
  let off := fld e.body 0 8
  let n := fld e.body 8 8
  cmdIn spApertureUnmap .never false false (!(tenantOf s (targetOf e)).apertures.any fun a => a.1 == off && a.2.1 == n)
    (fun t s => (resOk, setTenant s t { tenantOf s t with
      apertures := (tenantOf s t).apertures.filter fun a => !(a.1 == off && a.2.1 == n) })) e s

/-- MEM_QUERY: tier, RES, PIN, PAGED and DIRTY, BROKEN, and the stack of a Near page. -/
def execMemQuery (e : Entry) (s : State) : Host.Outcome State Fault Refusal :=
  let va := fld e.body 0 8
  cmdIn spMemQuery .never false (decide (2 ^ 48 ≤ va)) ((leafOf s (targetOf e) va).isNone) (fun t s =>
    match leafOf s t va with
    | none => (resFail stBadField, s)
    | some (l, big) =>
      let p := l.pte
      (resBody 4 [(0, 1, pteTier p), (1, 1, b2n (pteRes p) + 2 * b2n (ptePin p) + 4 * b2n (ptePaged p) + 8 * b2n (pteDirty p)),
                  (2, 1, pteBroken p), (3, 1, if pteTier p = 0 then stackOf va l big else 0)], s)) e s

/-- DIST_MAP: one read-only page of the distance table (R290). -/
def execDistMap (e : Entry) (s : State) : Host.Outcome State Fault Refusal :=
  let va := fld e.body 0 8
  cmdIn spDistMap .never false (va % Config.page2M != 0 || decide (2 ^ 48 ≤ va))
    (!(leavesIn (tenantOf s (targetOf e)) va Config.page2M).isEmpty)
    (fun t s => match s.grid.distFrame with
      | none => (resFail stInternal, s)
      | some f =>
        let q : MapReq := { va := va, size := Config.page2M, tier := 0, perm := 1, paged := false, pin := false, big := false
                            place := 0, core := 0 }
        (resOk, setLeaf s t va false { newLeaf q (f * Config.page2M) none with dist := true })) e s

end Sys2Proof.Machine
end

