-- ==== Sys2Proof/Machine/TenantCmd.lean ====
section
/-! DEFINITION. Sessions, tenants, cores and context handles (R411 to R416, R426, R427), the scrub (R62, R472, R473), and
programs and weight sets (R419). -/

namespace Sys2Proof.Machine
open Sys2Proof

/-! ## Sessions (R411, R412, R414) -/

/-- The command passes every check of R407. -/
def accepted (p : CmdSpec) (e : Entry) (s : State) : Bool :=
  slotReady s e && !e.readFails && !switching s (funcOf s e.fn) && (headerCheck (funcOf s e.fn) e (p.op == 0) (some p) false).isNone &&
  (bodyCheck s e p false).isNone

/-- The build that runs, or stands in a slot (R401, R422). -/
def buildOf (s : State) (slotB : Bool) : Word32 :=
  match tabFind s.drover.imgBuild (b2n slotB) with
  | some b => b
  | none => if slotB then Config.buildB else Config.buildA

/-- Responses still owed to the commands of the old session are discarded; the commands run on (R412). -/
def dropOwed (f : Func) : Func := { f with owed := [], rspWait := [] }

/-- After a boot that left the module out of service, MODULE_LOST is posted when the session opens (R502). -/
def tellLost (s : State) (fn : Nat) : State :=
  if s.drover.lostUntold.contains fn then
    postEvent { s with drover := { s.drover with lostUntold := s.drover.lostUntold.erase fn } } fn 0x0052 []
  else s

/-- HELLO opens or resets the session (R411): major 1, and the lower minor where the driver speaks major 1. -/
def execHelloCommand (e : Entry) (s : State) : Host.Outcome State Fault Refusal :=
  cmd spHello .never false false (fun t s =>
    let minor := if e.verMajor = 1 then min e.verMinor.toNat Config.minor else Config.minor
    let x := tenantOf s t
    (resBody 42 [(0, 1, 1), (1, 1, minor), (2, 1, e.fn), (3, 1, t), (4, 1, 0x10), (5, 1, 4), (6, 2, s.fabric.modid),
                 (8, 8, Config.serialNo.toNat), (16, 4, (buildOf s s.drover.slotB).toNat), (20, 1, b2n s.drover.slotB),
                 (24, 4, x.nearFrames), (28, 4, x.midFrames), (32, 4, x.farUnits), (36, 2, x.maxCores), (38, 2, x.maxChan),
                 (40, 2, x.maxDma)],
     tellLost (onFunc s e.fn fun f => { dropOwed f with sMajor := 1, sMinor := BitVec.ofNat 8 minor, driverId := BitVec.ofNat 64 (fld e.body 0 8) }) e.fn)) e s

/-- BYE closes the session (R412); it is answered in the version it closes. -/
def execBye (e : Entry) (s : State) : Host.Outcome State Fault Refusal :=
  let ok := accepted spBye e s
  let s1 := runCmd spBye .never false false false (fun _ s => (resOk, onFunc s e.fn dropOwed)) e s
  .next (if ok then onFunc s1 e.fn fun f => { f with sMajor := 0, sMinor := 0 } else s1)

def execPing (e : Entry) (s : State) : Host.Outcome State Fault Refusal :=
  cmd spPing .never false false (fun _ s => (resBody 16 [(0, 8, fld e.body 0 8), (8, 8, copyOf s 7)], s)) e s

/-! ## Allotments (R264, R415, R454) -/

/-- The six allotments of a tenant: Near, Mid, Far, cores, channels, DMA channels. -/
def allots (x : Tenant) : List Nat := [x.nearFrames, x.midFrames, x.farUnits, x.maxCores, x.maxChan, x.maxDma]

def coresBound (s : State) (t : Nat) : List Nat := (s.cores.filter fun k => k.2.tenant == some t).map (·.1)
def dmaHeld (s : State) (t : Nat) : List Nat := (s.dma.filter fun d => d.2.held && d.2.tenant.toNat == t).map (·.1)

/-- What a tenant uses of each allotment. -/
def uses (s : State) (t : Nat) : List Nat :=
  [tierUsed s t 0, tierUsed s t 1, tierUsed s t 2, (coresBound s t).length, chansHeld s t, (dmaHeld s t).length]

/-- Frames of a tier that no tenant can be given: Uango's own and retired ones (log entry 33). -/
def setAside (s : State) (tier : Nat) : Nat :=
  (s.frames.filter fun f =>
    (if f.1 < 262144 then 0 else if f.1 < 524288 then 1 else 2) == tier &&
    (f.2.retired || decide (0x40 ≤ f.2.keyTag.toNat ∧ f.2.keyTag.toNat ≤ 0x81))).length

/-- The module's capacity of each kind (R7, R17, R253, R366). -/
def capacity (s : State) : List Nat :=
  [262144 - setAside s 0, 262144 - setAside s 1, 1572864 - setAside s 2, Config.nCores - s.grid.retired.length, 4092, 240]

/-- The new allotments fit beside those of the other tenants, and lie at or above the tenant's present use. -/
def allotFits (s : State) (t : Nat) (a : List Nat) : Bool :=
  let others := (s.tenants.filter fun x => x.1 != t).map fun x => allots x.2
  ((List.range 6).all fun i => decide (others.foldl (fun n o => n + o.getD i 0) (a.getD i 0) ≤ (capacity s).getD i 0)) &&
  (List.range 6).all fun i => decide ((uses s t).getD i 0 ≤ a.getD i 0)

/-- Uango writes the root address of the tenant's page tables to every Fold walker (R260). -/
def giveRoots (s : State) (t : Nat) : State :=
  { s with folds := (List.range 48).foldl (fun m f =>
      put m f { look ({} : Fold) m f with roots := put (look ({} : Fold) m f).roots t (tableAddr t 0 0) }) s.folds }

/-- A tenant enters READY: its memory keys are drawn, its salt where none stands (R454), and the walkers get its root. -/
def drawKeys (s : State) (t : Nat) : State :=
  let x := tenantOf s t
  let s1 := giveRoots (setTenant s t { x with keys := { x.keys with memory := true, salt := true } }) t
  if s1.far.salts.contains t then s1 else storeRecord s1 { s1.far with salts := s1.far.salts ++ [t] } Config.farRecordBytes

def execTenantConfig (e : Entry) (s : State) : Host.Outcome State Fault Refusal :=
  let f := fun (o n : Nat) => fld e.body o n
  let a := [f 0 4, f 4 4, f 8 4, f 12 2, f 14 2, f 16 2]
  let zero := a.all (· == 0)
  cmd spTenantConfig .never false (f 0 4 % 8 != 0 || f 4 4 % 8 != 0) (fun t s =>
    if !allotFits s t a then (resFail stNoResource, s)
    else if !zero && !s.drover.drbgOk then (resFail stRetryLater, s)
    else
      let s1 := setTenant s t { tenantOf s t with nearFrames := f 0 4, midFrames := f 4 4, farUnits := f 8 4
                                                  maxCores := f 12 2, maxChan := f 14 2, maxDma := f 16 2 }
      let g := funcOf s1 t
      if zero then (resOk, setFunc s1 t { g with fstate := if g.fstate == .ready then .idle else g.fstate })
      else if g.fstate == .idle then (resOk, drawKeys (setFunc s1 t { g with fstate := .ready }) t)
      else (resOk, s1)) e s

def fstateCode (f : FState) : Nat :=
  match f with | .idle => 0 | .ready => 1 | .ending => 2 | .scrub => 3 | .booting => 4 | .recovery => 5 | .lost => 6 | .updating => 7

def execTenantQuery (e : Entry) (s : State) : Host.Outcome State Fault Refusal :=
  cmd spTenantQuery .never false false (fun t s =>
    let x := tenantOf s t
    (resBody 29 [(0, 1, fstateCode (funcOf s t).fstate), (4, 4, tierUsed s t 0), (8, 4, tierUsed s t 1), (12, 4, tierUsed s t 2),
                 (16, 2, (coresBound s t).length), (18, 2, x.handles.length), (20, 2, x.jobs.length), (22, 2, chansHeld s t),
                 (24, 2, (dmaHeld s t).length), (28, 1, pendingCount (funcOf s t))], s)) e s

/-! ## The end of a tenant (R400, R426, R472, R473) -/

/-- M of R473: the memory that the tenant has mapped. -/
def mappedBytes (x : Tenant) : Nat := (leavesOf x).foldl (fun n e => n + e.2.2 * Config.page2M) 0

/-- Setups of the tenant that are still open end, and commands that wait for memory go. -/
def dropSetups (s : State) (t : Nat) : State :=
  let mine := (s.setups.filter fun q => q.far.isNone && q.fn == t && !(q.installing && (chanOf s q.chan).valid)).map (·.chan)
  let s1 := mine.foldl (fun s c => rollback s c stAborted) s
  { s1 with hostWait := s1.hostWait.filter fun a => a.tenant != t }

/-- The engine commands that would hold an exit back are let go (R426: the DMA channels are released after the tasks
end). -/
def letExit (k : Core) : Core :=
  let ns := (k.ctxs.filter fun x => x.2.wait == .exit).map (·.1)
  { k with eq := k.eq.filter fun e => !ns.contains e.ctx, engOpen := k.engOpen.filter fun e => !ns.contains e.1 }

/-- TENANT_END, a Function Level Reset and VF disable begin alike (R400, R426, R427, R472). -/
def beginEnd (s : State) (t : Nat) (gone : Bool) : State :=
  let x := tenantOf s t
  match x.scrub with
  | some b => setTenant s t { x with scrub := some { b with gone := b.gone || gone } }
  | none =>
    let s1 := abortOwed (dropSetups s t) t 0x0102
    let s2 := storeRecord s1 { s1.far with endingMarks := s1.far.endingMarks ++ [t] } Config.farRecordBytes
    let x2 := tenantOf s2 t
    let s3 := setTenant (onFunc s2 t fun f => { f with fstate := .ending }) t
      { x2 with scrub := some { bytes := mappedBytes x, gone := gone }, keys := { x2.keys with rotating := false, left := [] } }
    let s4 := x2.handles.foldl (fun s h => killHandle (flushHandle s t h.1 2) t h.1 true 2) s3
    let s5 := (coresBound s4 t).foldl (fun s c => settle (onCore s c letExit) c) s4
    tearDown s5 t

def execTenantEnd (e : Entry) (s : State) : Host.Outcome State Fault Refusal :=
  cmd spTenantEnd .long false false (fun t s => (.wait t, beginEnd s t false)) e s

/-- A core as the scrub leaves it (R62, R472 step 3); it stays bound as `t` says. A tenant change is a core reset (R498), so the
array has no preceding pass then (R117). -/
def scrubbedCore (k : Core) (t : Option Nat) : Core :=
  { tenant := t, scrubbed := true, resetAt := k.resetAt, lasting := k.lasting, probed := k.probed, fenced := k.fenced
    fill := k.fill }

def scrubCore (s : State) (c : Nat) (t : Option Nat) : State :=
  { setCore s c (scrubbedCore (coreOf s c) t) with
    mem := zeroRange s.mem (lsAddr c 0) Config.lsBytes
    badWords := s.badWords.filter fun w => !inRange (lsAddr c 0) 0x100000 (w.1 * 8)
    reqs := s.reqs.filter fun r => r.core != c || (match r.who with | .host => true | _ => false) }

/-- Every frame that belongs to a tenant. -/
def tenantFrames (s : State) (t : Nat) : List Nat :=
  (s.frames.filter fun f => f.2.keyTag.toNat == t || f.2.keyTag.toNat == 0x40 + t).map (·.1)

/-- Fold counters of a tenant stand at 64 × tenant (R475). -/
def dropCounters (t : Nat) (m : Tab Nat) : Tab Nat := m.filter fun e => e.1 / 64 != t

/-- Steps 1 to 5 of R472, after the last mapping has been removed (R426). -/
def scrubSteps (s : State) (t : Nat) : State :=
  let x := tenantOf s t
  let s1 := eraseSalt s t
  let s2 := (tenantFrames s1 t).foldl releaseFrame s1
  let s3 := setTenant s2 t { nearFrames := x.nearFrames, midFrames := x.midFrames, farUnits := x.farUnits
                             maxCores := x.maxCores, maxChan := x.maxChan, maxDma := x.maxDma, scrub := x.scrub }
  let s4 := { s3 with jobsPg := s3.jobsPg.filter (fun j => j.tenant != t), invals := s3.invals.filter (fun v => v.tenant != t)
                      hostWait := s3.hostWait.filter (fun a => a.tenant != t) }
  let s5 := (coresBound s4 t).foldl (fun s c => scrubCore s c none) s4
  { s5 with
    telem := { s5.telem with rings := s5.telem.rings.filter (fun e => e.1 / 2 ^ 32 == 8 || e.1 % 2 ^ 32 != t)
                             last := s5.telem.last.filter (fun e => e.1 / 2 ^ 32 == 8 || e.1 % 2 ^ 32 != t) }
    folds := s5.folds.map fun f => (f.1, { f.2 with
      walks := f.2.walks.filter (fun w => w.tenant != t), roots := del f.2.roots t, cmds := f.2.cmds.filter (fun g => g.tenant != t)
      counters := dropCounters t f.2.counters }) }

/-- The last task, channel and DMA channel of an ending tenant have ended: SCRUB begins (R426, R472). -/
def execScrubStart (tenant : Nat) (s : State) : Host.Outcome State Fault Refusal :=
  match (tenantOf s tenant).scrub with
  | none => .next s
  | some b =>
    if b.inScrub || !b.torn || !(dmaHeld s tenant).isEmpty then .next s
    else
      let s1 := onFunc s tenant fun f => { f with fstate := .scrub }
      .next (setTenant (scrubSteps s1 tenant) tenant
        { tenantOf (scrubSteps s1 tenant) tenant with scrub := some { b with inScrub := true, since := s.ftime } })

/-- D of R473. -/
def scrubTime (bytes : Nat) : Nat := 3000000 + 1000000 * ((bytes + 2 ^ 36 - 1) / 2 ^ 36)

/-- Messages held back during the scrub go out (R474, log entry 16). -/
def releaseMsgs (f : Func) : Func := f.heldMsgs.foldl sendMsg { f with heldMsgs := [] }

/-- The fixed duration has passed: the mark goes, TENANT_ENDED and the final response are given, and the function is
READY or IDLE by its allotments (R415, R472 step 6). -/
def execScrubHoldEnd (tenant : Nat) (s : State) : Host.Outcome State Fault Refusal :=
  let x := tenantOf s tenant
  match x.scrub with
  | none => .next s
  | some b =>
    if !b.inScrub || decide (s.ftime < b.since + scrubTime b.bytes) then .next s
    else
      let d := if b.restarted then s.ftime - b.since else scrubTime b.bytes
      let st := if (allots x).all (· == 0) then FState.idle else .ready
      let s1 := setTenant (storeRecord s { s.far with endingMarks := s.far.endingMarks.filter (· != tenant) } Config.farRecordBytes) tenant
        { x with scrub := none }
      let s2 := if b.gone then { s1 with funcs := del s1.funcs tenant, tenants := del s1.tenants tenant }
                else onFunc s1 tenant fun f => releaseMsgs { f with fstate := st }
      let s3 := if st == .ready && !b.gone then drawKeys s2 tenant else s2
      let s4 := { s3 with power := { s3.power with scrubs := s3.power.scrubs ++ [(b.since, s.ftime)] } }
      .next (postPf (completeObj s4 0x0102 tenant stOK 8 (bodyOf [(0, 8, d)])) 0x0061 [(0, 1, tenant), (8, 8, d)])

/-! ## Cores (R62, R415) -/

/-- The cores of a mask. -/
def maskCores (e : Entry) : List Nat := (List.range Config.nCores).filter fun c => e.body.getLsbD c

def execCoreBind (e : Entry) (s : State) : Host.Outcome State Fault Refusal :=
  cmd spCoreBind .may false false (fun t s =>
    let fresh := (maskCores e).filter fun c => (coreOf s c).tenant != some t
    if fresh.any (fun c => (coreOf s c).tenant.isSome) || (maskCores e).any s.grid.retired.contains ||
        decide ((tenantOf s t).maxCores < (coresBound s t).length + fresh.length) then (resFail stNoResource, s)
    else (resOk, fresh.foldl (fun s c => scrubCore s c (some t)) s)) e s

/-- Some handle of the tenant is open on the core. -/
def handleOn (x : Tenant) (c : Nat) : Bool := x.handles.any fun h => h.2.core == c

def execCoreUnbind (e : Entry) (s : State) : Host.Outcome State Fault Refusal :=
  cmdIn spCoreUnbind .never false false ((maskCores e).any fun c => (coreOf s c).tenant != some (targetOf e)) (fun t s =>
    if (maskCores e).any (handleOn (tenantOf s t)) then (resFail stDenied, s)
    else (resOk, (maskCores e).foldl (fun s c => onCore s c fun k => { k with tenant := none }) s)) e s

/-! ## Context handles (R415, R427) -/

def execCtxOpen (e : Entry) (s : State) : Host.Outcome State Fault Refusal :=
  let c := fld e.body 0 2
  cmd spCtxOpen .never false (decide (1 < fld e.body 2 1)) (fun t s =>
    let hs := (tenantOf s t).handles
    if 32 ≤ (hs.filter fun h => h.2.core == c).length then (resFail stNoResource, s)
    else match (List.range 4096).find? fun h => (tabFind hs h).isNone with
      | none => (resFail stNoResource, s)
      | some h =>
        if Config.nCores ≤ c ∨ (coreOf s c).tenant ≠ some t then (resFail stDenied, s)
        else (resBody 2 [(0, 2, h)], setHandle s t h { core := c, kind := fld e.body 2 1 })) e s

/-- The rows of CTX_CTRL share opcode 0x0121; an OP above 3 is BAD_FIELD under any of them. -/
def ctxCtrl (op : Nat) (pend : Pend) (run : Nat → Nat → State → Res × State) (e : Entry) (s : State) :
    Host.Outcome State Fault Refusal :=
  let o := fld e.body 2 1
  if o ≠ op ∧ o ≤ 3 then .next s
  else cmdIn spCtxCtrl pend false (decide (3 < o)) (handleOf s (targetOf e) (fld e.body 0 2)).isNone
    (fun t s => run t (fld e.body 0 2) s) e s

def execCtxResume (e : Entry) (s : State) : Host.Outcome State Fault Refusal :=
  ctxCtrl 0 .may (fun t h s => match handleOf s t h with
    | some x => if x.st == .halted then (resOk, refreshWait (setHandle s t h { x with st := .open_ }) t h) else (resFail stDenied, s)
    | none => (resFail stBadField, s)) e s

def execCtxFlush (e : Entry) (s : State) : Host.Outcome State Fault Refusal :=
  ctxCtrl 1 .may (fun t h s => (resOk, flushHandle s t h 0)) e s

/-- KILL and CLOSE answer at once where no context has to become FREE first. -/
def killRes (s : State) (t h op : Nat) : Res :=
  match handleOf s t h with
  | some x => if x.killing then .wait (ctxObj t h op) else resOk
  | none => resOk

def execCtxKill (e : Entry) (s : State) : Host.Outcome State Fault Refusal :=
  ctxCtrl 2 .long (fun t h s => let s1 := killHandle s t h false 1; (killRes s1 t h 2, s1)) e s

def execCtxClose (e : Entry) (s : State) : Host.Outcome State Fault Refusal :=
  ctxCtrl 3 .long (fun t h s => let s1 := killHandle s t h true 1; (killRes s1 t h 3, s1)) e s

/-- CTX_STATUS of a context (R64). -/
def statusWord (x : Ctx) (n : Nat) : Nat :=
  (match x.st with
   | .free => 0 | .ready => 1 | .running => 2 | .waitMem => 3 | .waitPage => 4 | .waitTag => 5 | .waitSem => 6 | .waitTcfg => 7
   | .waitUnit => 8 | .done => 9 | .faulted => 10) + 16 * n +
  256 * (match x.cause with | some c => causeCode c | none => 0) + 2 ^ 16 * b2n x.imprecise + 2 ^ 17 * b2n x.multi +
  2 ^ 18 * x.tenant.toNat + 2 ^ 32 * x.taskSeq.toNat

def execCtxQuery (e : Entry) (s : State) : Host.Outcome State Fault Refusal :=
  let h := fld e.body 0 2
  cmdIn spCtxQuery .never false false (handleOf s (targetOf e) h).isNone (fun t s => match handleOf s t h with
    | none => (resFail stBadField, s)
    | some x =>
      let busy := x.onCtx.isSome || (savedOf (coreOf s x.core) t h).isSome
      let hs := match x.st with | .closing => 3 | .halted => 2 | .open_ => if busy then 1 else 0
      (resBody 24 [(0, 1, hs), (1, 1, x.onCtx.getD 0xFF), (2, 2, x.core), (4, 2, x.queue.length),
                   (8, 8, match x.onCtx with | some n => statusWord (stCtx s x.core n) n | none => 0),
                   (16, 8, x.ticketsDone)], s)) e s

def execCtxSignal (e : Entry) (s : State) : Host.Outcome State Fault Refusal :=
  let c := fld e.body 0 2
  cmd spCtxSignal .never false (decide (63 < fld e.body 2 1) || fld e.body 3 1 == 0) (fun t s =>
    if Config.nCores ≤ c ∨ (coreOf s c).tenant ≠ some t then (resFail stDenied, s)
    else (resOk, sendSig s c (fld e.body 2 1) (fld e.body 3 1))) e s

/-! ## TASK_SUBMIT (R416, R417) -/

/-- Where the bytes of a tenant's page stand, resident or not: its frame, a frame that an eviction still holds, its
backing copy, or nowhere where it has never been written (log entry 34). -/
def pageHome (s : State) (t va : Nat) (l : Leaf) : Option Nat :=
  if pteRes l.pte then some (pteAddr l.pte)
  else match (jobAt s t (va / Config.page2M)).map PageJob.work with
    | some (PageWork.evicting f) => some (f * Config.page2M)
    | some (PageWork.writing f) => some (f * Config.page2M)
    | _ => if l.backWritten then l.backing.map (· * Config.page2M) else none

/-- Uango writes bytes inside one page of a tenant, where the page stands: its frame, which becomes dirty, or its backing copy.
The first error is kept. -/
def homeWrite (t : Nat) (a : State × Option Cause) (e : Nat × List Byte) : State × Option Cause :=
  let s := a.1
  let r : State × Option Cause := match leafOf s t e.1 with
    | none => (s, some .translation)
    | some (l, big) =>
      match if pteRes l.pte then none else l.backing, pageHome s t e.1 l with
      | some b, none => anyWrite (setLeaf s t e.1 big { l with backWritten := true, written := true }) (b * Config.page2M + e.1 % Config.page2M) e.2 .clean
      | _, some h => anyWrite (setLeaf s t e.1 big { l with pte := setField l.pte 10 1 1 }) (h + e.1 % pageBytes big) e.2 .clean
      | none, none => (s, some .translation)
  (r.1, a.2.orElse fun _ => r.2)

/-- Uango writes bytes of a tenant, resident or not (R198, R199, R201, R446). -/
def uangoWrite (s : State) (t va : Nat) (b : List Byte) : State × Option Cause :=
  (chunksAt Config.page2M (b.length / Config.page2M + 2) va b).foldl (homeWrite t) (s, none)

/-- Uango reads `n` bytes inside one page of a tenant. -/
def peekPage (s : State) (t va n : Nat) : State × MemAns :=
  match leafOf s t va with
  | none => (s, .err .translation)
  | some (l, big) =>
    if pteBroken l.pte = 1 then (s, .err .memError)
    else if pteBroken l.pte = 2 then (s, .err .integrity)
    else match pageHome s t va l with
      | none => (s, .ok (List.replicate n 0))
      | some a => physRead s (a + va % pageBytes big) n .clean

/-- Uango reads 64-byte units of a tenant's memory. -/
def peek (s : State) (t : Nat) : Nat → Nat → State × MemAns
  | 0, _ => (s, .ok [])
  | n + 1, va => match peekPage s t va 64 with
    | (s1, .err c) => (s1, .err c)
    | (_, .ok b) => match peek s t n (va + 64) with
      | (s2, .ok b2) => (s2, .ok (b ++ b2))
      | r => r

/-- A little-endian field of a byte list. -/
def le (b : List Byte) (off n : Nat) : Nat := ofBytes ((b.drop off).take n)

/-- The descriptor of a task (R416). -/
def taskDesc (b : List Byte) (args : List Word64) (ticket : Nat) : TaskDesc :=
  { entry := BitVec.ofNat 64 (le b 0 8), res0 := BitVec.ofNat 64 (le b 8 8), res1 := BitVec.ofNat 64 (le b 16 8)
    progId := le b 24 4, job := BitVec.ofNat 16 (le b 28 2), ticket := ticket, args := args
    tileCfg := ((List.range 16).filter fun i => le b (32 + 4 * i) 4 != 0).map fun i => (i, BitVec.ofNat 32 (le b (32 + 4 * i) 4))
    chans := ((List.range 16).filter fun i => (le b (96 + 2 * i) 2).testBit 15).map fun i => le b (96 + 2 * i) 2 % 4096 }

/-- ENTRY lies in an executable page of the program. -/
def entryOk (s : State) (t : Nat) (d : TaskDesc) : Bool :=
  match tabFind (tenantOf s t).progs d.progId, leafOf s t d.entry.toNat with
  | some p, some (l, _) => p.loaded && l.pte.getLsbD 3 && p.segs.any fun g =>
      decide (g.1 ≤ d.entry.toNat) && decide (d.entry.toNat < g.1 + g.2)
  | _, _ => false

/-- The descriptor breaks R416, R88 or R64. -/
def descBad (s : State) (t : Nat) (b : List Byte) (d : TaskDesc) : Bool :=
  le b 30 2 != 0 || field d.res0 20 12 != 0 || d.entry.toNat % 8 != 0 || decide (2 ^ 48 ≤ d.entry.toNat) || !entryOk s t d ||
  ((List.range 16).any fun i => !cfgValid (BitVec.ofNat 64 (le b (32 + 4 * i) 4))) ||
  ((List.range 16).any fun i => le b (32 + 4 * i) 4 != 0 && !d.res0.getLsbD i) ||
  (d.job != 0xFFFF && (tabFind (tenantOf s t).jobs d.job.toNat).isNone) ||
  ((List.range 16).any fun i => let c := le b (96 + 2 * i) 2
    c / 4096 % 8 != 0 || (c.testBit 15 && !chanHeld s t (c % 4096)))

/-- SEMS overlap the semaphores of a task of another handle on the core (R417). -/
def semsTaken (s : State) (t h core : Nat) (r1 : Word64) : Bool :=
  let k := coreOf s core
  (taskCtxs k).any (fun x => (match x.2.task with | some r => r.handle != h | none => false) && x.2.res1 &&& r1 != 0) ||
  k.saved.any (fun v => v.task.handle != h && v.ctx.res1 &&& r1 != 0) ||
  (tenantOf s t).handles.any fun o => o.1 != h && o.2.core == core && o.2.queue.any fun d => d.res1 &&& r1 != 0

def execTaskSubmit (e : Entry) (s : State) : Host.Outcome State Fault Refusal :=
  let h := fld e.body 0 2
  let va := fld e.body 8 8
  let bad := (handleOf s (targetOf e) h).isNone || !mappedAll (tenantOf s (targetOf e)) va 128
  cmdIn spTaskSubmit .never false (va % 64 != 0) bad (fun t s => match handleOf s t h with
    | none => (resFail stBadField, s)
    | some x => match peek s t 2 va with
      | (s1, .err c) => (resFail (causeStatus c), s1)
      | (s1, .ok b) =>
        let args := (List.range 4).map fun i => BitVec.ofNat 64 (fld e.body (16 + 8 * i) 8)
        let d := taskDesc b args (x.nextTicket % 2 ^ 32)
        if descBad s1 t b d then (resFail stBadField, s1)
        else if semsTaken s1 t h x.core d.res1 then (resFail stNoResource, s1)
        else if x.st == .closing then (resFail stDenied, s1)
        else if 64 ≤ x.queue.length then (resFail stRetryLater, s1)
        else (resBody 4 [(0, 4, d.ticket)],
              refreshWait (setHandle s1 t h { x with queue := x.queue ++ [d], nextTicket := x.nextTicket + 1 }) t h)) e s

/-! ## Programs and weight sets (R419) -/

/-- The pages of a segment: what it asks for, and room for its bytes. -/
def segPages (g : Config.ImageSeg) : Nat := max g.pages ((g.bytes.length + Config.page2M - 1) / Config.page2M)

/-- Map one segment of an image: its pages fixed in the tier it names, or on the local stores of the tenant's cores (R72), with
its bytes. -/
def placeSeg (t : Nat) (s : State) (g : Config.ImageSeg) : Option State :=
  let q : MapReq := { va := g.page * Config.page2M, size := segPages g * Config.page2M, tier := g.tier, perm := g.perm, paged := false
                      pin := false, big := false, place := 0, core := g.core }
  let mine := (List.range (2 * segPages g)).all fun i => (coreOf s (g.core + i)).tenant == some t
  if mapBad (tenantOf s t) q || (q.tier == 3 && !mine) || decide (2 ^ 48 < q.va + q.size) then none
  else match mapRange s t q with
    | none => none
    | some s1 => match vaWrite s1 t q.va g.bytes .clean with
      | (s2, none) => some s2
      | (_, some _) => none

def placeSegs (t : Nat) : List Config.ImageSeg → State → Option State
  | [], s => some s
  | g :: rest, s => match placeSeg t s g with | some s1 => placeSegs t rest s1 | none => none

def progOf (s : State) (t p : Nat) : Prog := look {} (tenantOf s t).progs p
def setProg (s : State) (t p : Nat) (x : Prog) : State :=
  setTenant s t { tenantOf s t with progs := put (tenantOf s t).progs p x }
def dropProg (s : State) (t p : Nat) : State := setTenant s t { tenantOf s t with progs := del (tenantOf s t).progs p }

/-- The lowest number from 1 that a table lacks. -/
def freeNo {α : Type} (m : Tab α) : Nat := ((List.range (m.length + 1)).find? fun i => (tabFind m (i + 1)).isNone).getD 0 + 1

/-- The last part has arrived: digest, generation, mapping and measurement. A refused image is discarded. -/
def finishProg (s : State) (t p : Nat) (all : List Byte) : Res × State :=
  match Config.parseImage all with
  | none => (resFail stIntegrity, dropProg s t p)
  | some (gen, segs) =>
    if gen ≠ 4 then (resFail stBadVersion, dropProg s t p)
    else match placeSegs t segs s with
      | none => (resFail stNoResource, dropProg s t p)
      | some s1 =>
        let s2 := { s1 with cores := s1.cores.map fun k => (k.1, if k.2.tenant == some t then { k.2 with icache := [] } else k.2) }
        (resBody 4 [(0, 4, p)],
         setProg s2 t p { loaded := true, digest := Config.sha384 all, at_ := s.ftime
                          segs := segs.map fun g => (g.page * Config.page2M, segPages g * Config.page2M) })

def execProgLoad (e : Entry) (s : State) : Host.Outcome State Fault Refusal :=
  let id := fld e.body 8 4
  let final := fld e.body 12 1
  let off := fld e.body 16 4
  let x := tenantOf s (targetOf e)
  let known := match tabFind x.progs id with | some p => !p.loaded && p.got.length == off | none => false
  cmdIn spProgLoad .may (decide (268435456 < off + e.payloadLength.toNat)) (decide (1 < final))
    (if id = 0 then off != 0 else !known)
    (fun t s =>
      let p := if id = 0 then freeNo (tenantOf s t).progs else id
      let all := (progOf s t p).got ++ e.data.take e.payloadLength.toNat
      if final = 1 then finishProg s t p all
      else (resBody 4 [(0, 4, p)], setProg s t p { got := all })) e s

/-- A task or a job names the program. -/
def progUsed (s : State) (t p : Nat) : Bool :=
  (tenantOf s t).jobs.any (fun j => j.2.progId == p) ||
  (tenantOf s t).handles.any (fun h => h.2.queue.any fun d => d.progId == p) ||
  s.cores.any fun k => k.2.tenant == some t &&
    ((taskCtxs k.2).any (fun x => match x.2.task with | some r => r.desc.progId == p | none => false) ||
     k.2.saved.any fun v => v.task.desc.progId == p)

def execProgUnload (e : Entry) (s : State) : Host.Outcome State Fault Refusal :=
  let p := fld e.body 0 4
  cmdIn spProgUnload .long false false (tabFind (tenantOf s (targetOf e)).progs p).isNone (fun t s =>
    if progUsed s t p then (resFail stDenied, s)
    else
      let segs := (progOf s t p).segs
      let c := s.nextId
      let s1 := segs.foldl (fun s g => unmapRange s t c g.1 g.2) { dropProg s t p with nextId := c + 1 }
      (if s1.invals.any (fun v => v.cmd == c) then .wait c else resOk, pumpHost s1 t)) e s

/-- What a weight set has received, a part that still waits among it: its bytes, and whether the part was the last. -/
def setSoFar (s : State) (t p : Nat) : Option (Nat × Bool) :=
  let parts := s.hostWait.filterMap fun a => a.weight.bind fun w =>
    if a.tenant == t && w.1 == p then some (w.2.1 + a.len, w.2.2) else none
  match parts.getLast? with
  | some r => some r
  | none => (tabFind (tenantOf s t).weights p).map fun w => (w.off, w.final)

/-- The lowest number from 1 that no set has, a first part that still waits among them. -/
def freeSet (s : State) (t : Nat) : Nat :=
  let n := (tenantOf s t).weights.length + s.hostWait.length + 1
  ((List.range n).find? fun i => (setSoFar s t (i + 1)).isNone).getD 0 + 1

/-- WEIGHT_LOAD: writes as MEM_WRITE, and extends the set's digest by what it has written (R419). -/
def execWeightLoad (e : Entry) (s : State) : Host.Outcome State Fault Refusal :=
  let id := fld e.body 8 4
  let final := fld e.body 12 1
  let off := fld e.body 16 8
  let va := fld e.body 24 8 + off
  let n := e.payloadLength.toNat
  cmdIn spWeightLoad .long (!mappedAll (tenantOf s (targetOf e)) va n) (decide (1 < final))
    (if id = 0 then off != 0 else setSoFar s (targetOf e) id != some (off, false)) (fun t s =>
    let p := if id = 0 then freeSet s t else id
    hostStart { s with nextId := s.nextId + 1 }
      { op := 0x0302, obj := s.nextId, tenant := t, va := va, len := n, write := true, bytes := e.data.take n, blen := 4
        body := bodyOf [(0, 4, p)], weight := some (p, off, final == 1) }) e s

end Sys2Proof.Machine
end

