-- ==== Sys2Proof/Machine/Cores.lean ====
section
/-! DEFINITION. Failed cores and their Fallow substitutes (R18 to R22, R431 to R435), an unusable Near stack (R282) and the
status probes of Uango. -/

namespace Sys2Proof.Machine
open Sys2Proof

/-! ## Choice of a Fallow core (R21) -/

/-- Local index within the Fold (R18). -/
def localIdx (x y : Nat) : Nat := y % 4 * 2 + x % 2

/-- The place with the least key. -/
def leastBy (key : Nat × Nat → Nat) : List (Nat × Nat) → Option (Nat × Nat)
  | [] => none
  | a :: t => some (t.foldl (fun b c => if key c < key b then c else b) a)

/-- Ties go to the lower Fold ID, then to the lower local index. -/
def tieKey (q : Nat × Nat) : Nat := foldAt q.1 q.2 * 8 + localIdx q.1 q.2

/-- A Fallow core whose router works on both planes: the core of a failed router is fenced (R300). -/
def usable (s : State) (q : Nat × Nat) : Bool :=
  !(routerOf s false (rtr q.1 q.2)).failed && !(routerOf s true (rtr q.1 q.2)).failed

/-- The Fallow core that takes the number of core `c`: same Fold, else same row band, else fewest mesh hops (R21). -/
def chooseFallow (s : State) (c : Nat) : Option (Nat × Nat) :=
  let p := placeOf s c
  let all := s.grid.fallow.filter (usable s)
  let near := all.filter fun q => foldAt q.1 q.2 == foldAt p.1 p.2
  let band := all.filter fun q => q.2 / 4 == p.2 / 4
  if !near.isEmpty then leastBy tieKey near
  else if !band.isEmpty then leastBy tieKey band
  else leastBy (fun q => hopsTo s (rtr p.1 p.2) (.core q.1 q.2) * 512 + tieKey q) all

/-! ## What becomes of the tasks (R433 step 5, R435) -/

/-- A task that was running on the core when it failed: neither its exit nor a fault had ended it. -/
def wasRunning (x : Ctx) : Bool := x.st != .done && x.st != .faulted

/-- A task whose exit or fault came before the failure is reported as it ended (log entry 35). -/
def reportEnded (c : Nat) (s : State) (e : Nat × Ctx) : State :=
  match e.2.task with
  | none => s
  | some r =>
    if e.2.st == .done then
      countTicket (postEvent s r.tenant 0x0002 [(0, 2, r.handle), (2, 1, e.1), (6, 2, e.2.taskSeq.toNat), (24, 2, c),
        (28, 4, r.desc.ticket)]) r.tenant r.handle false
    else match r.killed with
      | some why => cancelTask s r.tenant r.handle why r.desc.ticket
      | none => countTicket (postEvent s r.tenant 0x0001
          (taskEvent c e.1 e.2 r (match e.2.cause with | some c => causeCode c | none => 0))) r.tenant r.handle true

/-- The semaphore counts of a start record, written back (R433 step 5). -/
def putSems (k : Core) (r : TaskRecord) : Core :=
  r.sems.foldl (fun k e => setSem k e.1 { count := e.2.1, ovf := e.2.2 }) k

/-- A running task starts again from its start, with TASK_SEQ incremented. -/
def restartCtx (now : Nat) (k : Core) (e : Nat × Ctx) : Core :=
  match e.2.task with
  | none => k
  | some r => startQueued (look {} r.record.chans) (setCtx (putSems k r.record) e.1 { taskSeq := e.2.taskSeq }) e.1 r.tenant r.handle r.desc now r.pin

/-- A saved task will resume from its start: its record is written now, and what a context brings back is the state of a
task that has just started. -/
def restartSaved (k : Core) (v : Saved) : Core :=
  let k1 := putSems k v.task.record
  let fresh := ctxOf (startQueued (look {} v.task.record.chans) { ctxs := [(0, { taskSeq := v.ctx.taskSeq })] } 0 v.task.tenant v.task.handle v.task.desc 0 none) 0
  { k1 with saved := k1.saved ++ [{
      task := v.task, ctx := fresh
      tiles := v.task.record.tiles.map fun t => (t.1, { cfg := t.2 })
      banks := (ownedBanks fresh).map fun b => (b, {})
      vregs := (ownedVregs fresh).map fun b => (b, {})
      passes := [] }] }

/-- What has left the core stays on its way: posted stores are performed, and their responses find no context. Reads go
(R433 step 2, R434). -/
def orphanReqs (c : Nat) (l : List MemReq) : List MemReq :=
  (l.filter fun r => r.core != c || r.write || (match r.who with | .host => true | _ => false)).map fun r =>
    if r.core == c && (match r.who with | .host => false | _ => true) then { r with ctx := 8, tagged := false, dead := true } else r

/-- The core of a logical number is empty: its contexts, its queues, its local store. -/
def wipeCore (s : State) (c : Nat) : State :=
  let s1 := { s with reqs := orphanReqs c s.reqs }
  { scrubCore s1 c (coreOf s c).tenant with reqs := s1.reqs }

/-- Handles of a tenant on a core. -/
def handlesOn (s : State) (t c : Nat) : List Nat := ((tenantOf s t).handles.filter fun h => h.2.core == c).map (·.1)

/-! ## The fill (R433, R435) -/

/-- The next queued fill that may run starts, in order of failure (R433). -/
def nextFill (s : State) : State :=
  match s.grid.fillOrder.find? (fun c => !fillBusy s c) with
  | none => s
  | some c => beginFill { s with grid := { s.grid with fillOrder := s.grid.fillOrder.erase c } } c

/-- A change of the core map: its copies, the map in Far, VERSION, and the distance table (R288, R291, R422). -/
def publishMap (s : State) : State :=
  let g := { s.grid with mapVersion := s.grid.mapVersion + 2 }
  writeDist (storeRecord { s with grid := g }
    { s.far with coreMap := some g.map, fallow := g.fallow, badCores := g.bad, retired := g.retired } Config.farRecordBytes) 2

/-- The Fallow core at (x, y) takes the logical number: core map, distance table, CORE_SUBST, and the tasks restart (R433
steps 4 and 5). -/
def substitute (s : State) (c x y : Nat) : State :=
  let old := placeOf s c
  let k := coreOf s c
  let live := (taskCtxs k).filter fun e => wasRunning e.2
  let s1 := ((taskCtxs k).filter fun e => !wasRunning e.2).foldl (reportEnded c) s
  let s2 := publishMap { s1 with grid := { s1.grid with map := put s1.grid.map c (x, y), fallow := s1.grid.fallow.erase (x, y)
                                                        bad := s1.grid.bad ++ [old] } }
  let s3 := wipeCore s2 c
  let s4 := match k.tenant with
    | some t => postEvent s3 t 0x0011 [(0, 2, c), (2, 1, old.1), (3, 1, old.2), (4, 1, x), (5, 1, y)]
    | none => s3
  let s5 := onCore s4 c fun n =>
    let n1 := { n with fenced := false, fill := none, lasting := [], resetAt := (look {} s4.bands (y / 4)).eighths
                       colsOff := 0, arrIdle := 0 }
    k.saved.foldl restartSaved (live.foldl (restartCtx s.ftime) n1)
  let ended := ((taskCtxs k).filter fun e => !wasRunning e.2).filterMap fun e => e.2.task
  let s6 := ended.foldl (fun s r => handleIdle s r.tenant r.handle) s5
  nextFill (match k.tenant with
    | some t => (handlesOn s6 t c).foldl (fun s h => refreshWait s t h) s6
    | none => s6)

/-- No Fallow core is left: the number is retired, its tasks are cancelled, its handles are freed, and the core leaves its
tenant (R22, R435). -/
def retireCore (s : State) (c : Nat) : State :=
  let k := coreOf s c
  let live := ((taskCtxs k).filter fun e => wasRunning e.2).filterMap fun e => e.2.task
  let s1 := ((taskCtxs k).filter fun e => !wasRunning e.2).foldl (reportEnded c) s
  let s2 := publishMap { s1 with grid := { s1.grid with retired := s1.grid.retired ++ [c], bad := s1.grid.bad ++ [placeOf s1 c] } }
  let s3 := postPf s2 0x0010 [(0, 2, c)]
  let s4 := match k.tenant with
    | none => s3
    | some t =>
      let s4 := if t = 0 then s3 else postEvent s3 t 0x0010 [(0, 2, c)]
      let s5 := (live ++ k.saved.map (·.task)).foldl (fun s r => cancelTask s r.tenant r.handle 3 r.desc.ticket) s4
      (handlesOn s5 t c).foldl (fun s h =>
        let s6 := match handleOf s t h with
          | some x => x.queue.foldl (fun s d => cancelTask s t h 3 d.ticket) s
          | none => s
        let s7 := completeObj (completeObj s6 0x0121 (ctxObj t h 2) stOK 0 0) 0x0121 (ctxObj t h 3) stOK 0 0
        setTenant s7 t { tenantOf s7 t with handles := del (tenantOf s7 t).handles h }) s5
  let s5 := onCore (wipeCore s4 c) c fun n => { n with tenant := none, fill := none, fenced := true, lasting := [] }
  nextFill (match k.tenant with | some t => tearDown s5 t | none => s5)

/-- Step 3 of R433: the next choice under R21 is scrubbed and tested, or the number is retired. -/
def tryFallow (s : State) (c : Nat) : State :=
  match chooseFallow s c with
  | some q => onCore s c fun k => { k with fill := some (.testing q.1 q.2) }
  | none => retireCore s c

/-! ## The events -/

/-- Four lasting errors within one window [t, t + 1 h) (R431). -/
def fourLasting (l : List Nat) : Bool := (l.zip (l.drop 3)).any fun e => decide (e.1 < e.2 + 3600000000000)

/-- The fourth lasting error of a core within an hour: Uango stops its contexts and fences it (R431, R433 step 1). -/
def execCoreFailure (core : Nat) (s : State) : Host.Outcome State Fault Refusal :=
  if fourLasting (coreOf s core).lasting then .next (failCore s core) else .next s

/-- Every 100 ms Uango probes every core bound to a tenant (R431). -/
def execCoreStatusProbe (s : State) : Host.Outcome State Fault Refusal :=
  .next { s with cores := s.cores.map fun k => (k.1, { k.2 with probed := k.2.tenant.isSome && !k.2.fenced }) }

/-- A probed core gives no answer within 1 ms: it is failed (R431). -/
def execCoreProbeTimeout (core : Nat) (s : State) : Host.Outcome State Fault Refusal :=
  if (coreOf s core).probed then .next (failCore s core) else .next s

/-- Every engine command accepted from the core has completed, and its counts are discarded (R433 step 2). -/
def execFenceDrainComplete (core : Nat) (s : State) : Host.Outcome State Fault Refusal :=
  let k := coreOf s core
  match k.fill with
  | some .draining =>
    if k.engOpen.isEmpty then .next (tryFallow { s with sigs := s.sigs.filter fun g => g.core != core } core) else .next s
  | _ => .next s

/-- The self-test of the chosen Fallow core has ended: it takes the number, or it is bad and the next choice is taken
(R433 step 3). -/
def execFallowSelfTestComplete (core : Nat) (pass : Bool) (s : State) : Host.Outcome State Fault Refusal :=
  match (coreOf s core).fill with
  | some (.testing x y) =>
    if pass then .next (substitute s core x y)
    else
      let g := { s.grid with fallow := s.grid.fallow.erase (x, y), bad := s.grid.bad ++ [(x, y)] }
      .next (tryFallow (storeRecord { s with grid := g } { s.far with fallow := g.fallow, badCores := g.bad }
        Config.farRecordBytes) core)
  | _ => .next s

/-- More than 8 distinct frames of one channel of the stack met lasting errors within the last 24 h (R282). -/
def stackErrors (s : State) (stack : Nat) : Bool :=
  (List.range 32).any fun ch => decide (8 < ((s.telem.errFrames.filter fun e =>
    e.1 == stack * 32 + ch && decide (s.ftime < e.2.2 + 86400000000000)).map (·.2.1)).eraseDups.length)

/-- More than 256 frames of the stack are retired (R282). -/
def stackRetired (s : State) (stack : Nat) : Bool :=
  decide (256 < (s.frames.filter fun f => f.2.retired && f.1 / 32768 == stack).length)

/-- Uango declares a Near stack unusable, in one of the cases of R282, and the module leaves service (R32). That a port fails
training or a link fails is the hardware's; what Uango counts, the state must bear out. -/
def execNearStackUnusable (stack : Nat) (why : StackEnd) (s : State) : Host.Outcome State Fault Refusal :=
  let met := match why with
    | .training => true
    | .link => true
    | .errors => stackErrors s stack
    | .retired => stackRetired s stack
  if stack < 8 && met then .next (moduleLost s) else .next s

end Sys2Proof.Machine
end

