-- ==== Sys2Proof/Machine/Jobs.lean ====
section
/-! DEFINITION. Jobs (R383 to R385, R417), scale groups and optimizer descriptors (R196 to R206, R209), the step vote and the
close of a step (R199 to R204, R373), and the loss of a module that carries a rank (R447). -/

namespace Sys2Proof.Machine
open Sys2Proof

def jobOf (s : State) (t j : Nat) : Option Job := tabFind (tenantOf s t).jobs j
def setJobRec (s : State) (t j : Nat) (x : Job) : State :=
  setTenant s t { tenantOf s t with jobs := put (tenantOf s t).jobs j x }

/-! ## Records (R198, R201, R206) -/

/-- A two's complement field. -/
def sfield {w : Nat} (v : BitVec w) (lo len : Nat) : Int :=
  let x := field v lo len
  if x < 2 ^ (len - 1) then x else x - 2 ^ len

/-- The unsigned code of a two's complement field. -/
def code (len : Nat) (x : Int) : Nat := (x % 2 ^ len).toNat

/-- A scale-control record as the driver writes it (R198). -/
def scaleOf (w : BitVec 256) : ScaleRec :=
  { aCur := sfield w 0 10, aMin := sfield w 16 10, aMax := sfield w 32 10, backoff := field w 48 6, growInterval := field w 64 32 }

/-- Uango refuses the record: a reserved bit, BACKOFF or GROW_INTERVAL 0, or A_CUR outside its bounds (R198). -/
def scaleBad (w : BitVec 256) : Bool :=
  let r := scaleOf w
  field w 10 6 != 0 || field w 26 6 != 0 || field w 42 6 != 0 || field w 54 10 != 0 || field w 192 64 != 0 ||
  r.backoff == 0 || r.growInterval == 0 || decide (r.aCur < r.aMin) || decide (r.aMax < r.aCur)

def scaleBytes (r : ScaleRec) : List Byte :=
  toBytes 32 (code 10 r.aCur + 2 ^ 16 * code 10 r.aMin + 2 ^ 32 * code 10 r.aMax + 2 ^ 48 * r.backoff +
    2 ^ 64 * r.growInterval + 2 ^ 96 * r.clean + 2 ^ 128 * r.skips + 2 ^ 160 * r.stall)

/-- SKIPPED (R201). -/
def skipped (j : Job) : Bool := j.decided && j.poisonMask != 0

/-- The step record (R201). -/
def stepBytes (j : Job) : List Byte :=
  toBytes 64 (j.step.toNat + 2 ^ 64 * j.poisonMask.toNat + 2 ^ 128 * b2n j.decided + 2 ^ 129 * b2n (skipped j) +
    2 ^ 192 * j.applied.toNat)

/-- Uango writes the step record and the scale records into the step area (log entry 36). -/
def writeStep (s : State) (t : Nat) (j : Job) : State :=
  let s1 := (uangoWrite s t (j.stepVa.toNat + Config.stepRecordOff) (stepBytes j)).1
  j.scales.foldl (fun s e => (uangoWrite s t (j.stepVa.toNat + Config.scaleRecordsOff + 32 * e.1) (scaleBytes e.2)).1) s1

/-- Uango clears the vote words (R199). -/
def clearVotes (s : State) (t : Nat) (j : Job) : State :=
  (uangoWrite s t (j.stepVa.toNat + Config.voteWordsOff) (List.replicate (8 * Config.voteWords) 0)).1

/-- The job's record changes, in the table and in the step area. -/
def putStep (s : State) (t n : Nat) (j : Job) : State := writeStep (setJobRec s t n j) t j

/-- Uango writes the optimizer descriptors, which kernels read (R206, log entry 36). -/
def writeOpts (s : State) (t : Nat) (j : Job) : State :=
  j.opts.foldl (fun s o => (uangoWrite s t (j.stepVa.toNat + Config.optDescOff o.1) (toBytes 64 o.2.toNat)).1) s

/-- Uango refuses an optimizer descriptor (R206). -/
def optBad (w : BitVec 512) : Bool :=
  let op := field w 0 4
  let sh := sfield w 8 10
  let sm := sfield w 18 10
  let sv := sfield w 28 10
  let off := fun (x : Int) => decide (x < 0) || decide (63 < x)
  decide (2 < op) || field w 4 4 != 0 || field w 38 2 != 0 || field w 46 18 != 0 || field w 288 224 != 0 ||
  decide (2 ^ 30 < field w 64 32) || decide (2 ^ 30 < field w 96 32) || sv % 2 != 0 || field w 192 64 % 4 != 0 ||
  field w 256 32 == 0 || (op == 1 && off (sh - sm + 30)) ||
  (op == 2 && (off (sv - 2 * sm) || off (sh - sm + sv / 2 + 30)))

/-! ## The job map (R383 to R385) -/

def mapDP (m : BitVec 512) : Nat := field m 0 11
def mapPP (m : BitVec 512) : Nat := field m 16 6 + 1
def mapTP (m : BitVec 512) : Nat := field m 24 3 + 1
def mapSP (m : BitVec 512) : Nat := field m 32 6 + 1
def mapMB (m : BitVec 512) : Nat := field m 48 16
def mapRanks (m : BitVec 512) : Nat := mapDP m * mapPP m * mapTP m * mapSP m

/-- The serial number under a module ID of the fabric. -/
def serialOf (s : State) (m : Nat) : Option Word64 :=
  if s.fabric.modv && m == s.fabric.modid then some Config.serialNo
  else (s.fabric.map.find? fun e => e.modid == m && e.present).map (·.serial)

/-- The module is in the fabric. -/
def inFabric (s : State) (m : Nat) : Bool := (serialOf s m).isSome

/-- Two modules stand on one carrier: a link group joins them that uses a link of the carrier's wiring (R379). -/
def sameCarrier (s : State) (a b : Nat) : Bool :=
  a == b || match serialOf s a, serialOf s b with
    | some x, some y => s.fabric.groups.any fun g =>
        ((g.owner == x && g.peer == y) || (g.owner == y && g.peer == x)) && g.links &&& 0x3FFF != 0
    | _, _ => false

/-- The tensor groups: ranks that differ only in t (R385). -/
def tensorGroups (tp : Nat) (ranks : List Nat) : List (List Nat) :=
  (List.range (ranks.length / tp)).map fun i => (ranks.drop (i * tp)).take tp

/-- Uango refuses the job map at job start (R383, R384). -/
def jobMapBad (s : State) (j : Job) : Bool :=
  let m := j.map
  mapDP m == 0 || decide (1024 < mapDP m) || mapMB m == 0 || !(field m 64 4 == 1 || field m 64 4 == 2) ||
  decide (field m 96 20 < 100) || decide (1000000 < field m 96 20) || field m 11 5 != 0 || field m 22 2 != 0 ||
  field m 27 5 != 0 || field m 38 10 != 0 || field m 70 26 != 0 || field m 116 396 != 0 ||
  mapRanks m != j.ranks.eraseDups.length || (decide (1 < mapPP m) && decide (mapMB m < mapPP m)) ||
  (decide (1 < mapTP m) && (tensorGroups (mapTP m) j.ranks).any fun g => g.any fun a => g.any fun b => !sameCarrier s a b)

/-- A train mask of more than 262,144 block rows of 64: its tensor has rows past 2^24 − 1 (R196, R209). No other record of a job
tells its rows. -/
def tooManyRows (mask : List Word64) : Bool := decide (4096 < mask.length)

/-- What JOB_START checks of the records: tensor numbers and rows (R196), scale records (R198), descriptors (R206). DESIGN CHOICE
(log entry 159): a descriptor whose GROUP has no scale-control record is refused as well. -/
def recordsBad (j : Job) : Bool :=
  j.opts.any (fun o => decide (524287 < o.1) || optBad o.2 || (tabFind j.scales (field o.2 40 6)).isNone) ||
  j.masks.any fun m => decide (524287 < m.1) || tooManyRows m.2

/-! ## The commands (R417) -/

/-- A fixed-size unit of a D command's data. -/
def unit (w : Nat) (b : List Byte) (i : Nat) : BitVec w := BitVec.ofNat w (ofBytes ((b.drop (i * (w / 8))).take (w / 8)))

def noJob (s : State) (e : Entry) (off : Nat) : Bool := (jobOf s (targetOf e) (fld e.body off 2)).isNone

def execJobCreate (e : Entry) (s : State) : Host.Outcome State Fault Refusal :=
  let m : BitVec 512 := unit 512 e.data 0
  let va := fld e.body 24 8
  let x := tenantOf s (targetOf e)
  let known := match tabFind x.progs (fld e.body 32 4) with | some p => p.loaded | none => false
  cmdIn spJobCreate .never (e.payloadLength.toNat != 64 + 2 * mapRanks m) (va % Config.page2M != 0)
    ((leafOf s (targetOf e) va).isNone || !known) (fun t s =>
      match (List.range 256).find? fun n => (jobOf s t n).isNone with
      | none => (resFail stNoResource, s)
      | some n =>
        let ids := (List.range (mapRanks m)).map fun i => le e.data (64 + 2 * i) 2
        (resBody 2 [(0, 2, n)],
         setJobRec s t n { uid := BitVec.ofNat 64 (fld e.body 8 8), seed := BitVec.ofNat 64 (fld e.body 16 8), map := m
                           ranks := ids, stepVa := BitVec.ofNat 64 va, progId := fld e.body 32 4 })) e s

def execJobScale (e : Entry) (s : State) : Host.Outcome State Fault Refusal :=
  let first := fld e.body 10 1
  let n := fld e.body 11 1
  let ws := (List.range n).map fun i => (i, unit 256 e.data i)
  cmdIn spJobScale .never (e.payloadLength.toNat != 32 * n)
    (n == 0 || decide (64 < first + n) || ws.any fun w => scaleBad w.2) (noJob s e 8) (fun t s =>
      match jobOf s t (fld e.body 8 2) with
      | none => (resFail stBadField, s)
      | some j =>
        if j.started then (resFail stDenied, s)
        else (resOk, putStep s t (fld e.body 8 2)
          { j with scales := ws.foldl (fun m w => put m (first + w.1) (scaleOf w.2)) j.scales })) e s

def execJobOpt (e : Entry) (s : State) : Host.Outcome State Fault Refusal :=
  let first := fld e.body 12 4
  let n := fld e.body 16 4
  let ws := (List.range (min n 16384)).map fun i => (i, unit 512 e.data i)
  cmdIn spJobOpt .never (e.payloadLength.toNat != 64 * n) (ws.any fun w => optBad w.2) (noJob s e 8) (fun t s =>
      match jobOf s t (fld e.body 8 2) with
      | none => (resFail stBadField, s)
      | some j =>
        if j.started then (resFail stDenied, s)
        else
          let j1 := { j with opts := ws.foldl (fun m w => put m (first + w.1) w.2) j.opts }
          (resOk, writeOpts (setJobRec s t (fld e.body 8 2) j1) t j1)) e s

def execJobMask (e : Entry) (s : State) : Host.Outcome State Fault Refusal :=
  cmdIn spJobMask .never (e.payloadLength.toNat % 8 != 0) false (noJob s e 8) (fun t s =>
      match jobOf s t (fld e.body 8 2) with
      | none => (resFail stBadField, s)
      | some j =>
        if j.started then (resFail stDenied, s)
        else (resOk, setJobRec s t (fld e.body 8 2)
          { j with masks := put j.masks (fld e.body 12 4) ((List.range (e.payloadLength.toNat / 8)).map (unit 64 e.data)) })) e s

/-- JOB_START: BAD_FIELD under R384, R196, R198 and R206, DENIED while the module is at evacuate (R448), while it runs, or
after a failed restore (R446), UNREACHABLE for a rank outside the fabric; else the step record is written. DEDUCED (log entry 199): the
vote words stay as they are. -/
def execJobStart (e : Entry) (s : State) : Host.Outcome State Fault Refusal :=
  let n := fld e.body 0 2
  cmdIn spJobStart .may false false (noJob s e 0) (fun t s =>
      match jobOf s t n with
      | none => (resFail stBadField, s)
      | some j =>
        if jobMapBad s j || recordsBad j then (resFail stBadField, s)
        else if s.plover.evacuating || j.st == .running || j.broken then (resFail stDenied, s)
        else if j.ranks.any fun m => !inFabric s m then (resFail stUnreachable, s)
        else (resOk, putStep s t n { j with st := .running, started := true, step := BitVec.ofNat 64 (fld e.body 8 8)
                                            poisonMask := 0, decided := false, stopAtBoundary := false, steps := 0
                                            appliedSteps := 0, epochTime := s.ftime, lastBoundary := s.ftime
                                            holdFrom := none, evacuate := false, opened := none })) e s

/-- Kill the tasks of a job as KILL does: queued ones go, saved and running ones end, each with TASK_CANCELLED (R417). -/
def killJobTasks (s : State) (t n : Nat) : State :=
  let mine := fun (d : TaskDesc) => d.job.toNat == n
  let s1 := (tenantOf s t).handles.foldl (fun s h =>
    let s1 := (h.2.queue.filter mine).foldl (fun s d => cancelTask s t h.1 1 d.ticket) s
    refreshWait (match handleOf s1 t h.1 with
      | some x => setHandle s1 t h.1 { x with queue := x.queue.filter fun d => !mine d }
      | none => s1) t h.1) s
  (coresBound s1 t).foldl (fun s c =>
    let k := coreOf s c
    let s2 := (k.saved.filter fun v => mine v.task.desc).foldl (fun s v =>
      refreshWait (cancelTask (onCore s c fun k => { k with saved := k.saved.erase v }) t v.task.handle 1 v.task.desc.ticket)
        t v.task.handle) s
    (taskCtxs k).foldl (fun s x => match x.2.task with
      | some r => if mine r.desc then killCtx s c x.1 1 else s
      | none => s) s2) s1

/-- A job stops at once (R417, R447). What waited for its next boundary is answered: a JOB_STOP once the job's tasks have ended, a
CKPT_SECURE with ABORTED, as no boundary comes (log entry 196). -/
def stopNow (s : State) (t n : Nat) : State :=
  match jobOf s t n with
  | none => s
  | some j =>
    let s1 := killJobTasks (setJobRec s t n { j with st := .stopped, stopAtBoundary := false }) t n
    let s2 := completeObj s1 0x0601 (jobObj t n) stAborted 0 0
    if jobBusy s2 t n then
      match jobOf s2 t n with | some j => setJobRec s2 t n { j with stopping := true } | none => s2
    else completeObj s2 0x0405 (jobObj t n) stOK 0 0

def execJobStop (e : Entry) (s : State) : Host.Outcome State Fault Refusal :=
  let n := fld e.body 0 2
  cmdIn spJobStop .long false (decide (1 < fld e.body 2 1)) (noJob s e 0) (fun t s =>
      match jobOf s t n with
      | none => (resFail stBadField, s)
      | some j =>
        if fld e.body 2 1 = 0 then
          (if j.st == .running then (.wait (jobObj t n), setJobRec s t n { j with stopAtBoundary := true })
           else (resOk, setJobRec s t n { j with st := .stopped }))
        else
          let s1 := stopNow s t n
          (if jobBusy s1 t n then .wait (jobObj t n) else resOk, s1)) e s

/-- The checkpoints of a job's rank. -/
def ckptOf (s : State) (t : Nat) (uid : Word64) : Option Ckpt := (tenantOf s t).ckpts.find? fun c => c.uid == uid

/-- The newest verified epoch, 0 where there is none. -/
def lastEpoch (s : State) (t : Nat) (uid : Word64) : Nat :=
  match ckptOf s t uid with
  | some c => (c.epochs.getLast?.map (·.epoch)).getD 0
  | none => 0

def execJobQuery (e : Entry) (s : State) : Host.Outcome State Fault Refusal :=
  cmdIn spJobQuery .never false false (noJob s e 0) (fun t s =>
      match jobOf s t (fld e.body 0 2) with
      | none => (resFail stBadField, s)
      | some j =>
        let st := match j.st with | .created => 0 | .running => 1 | .stopped => 2
        (resBody 40 [(0, 1, st), (8, 8, j.step.toNat), (16, 8, j.applied.toNat), (24, 8, j.poisonMask.toNat),
                     (32, 8, lastEpoch s t j.uid)], s)) e s

def execJobDestroy (e : Entry) (s : State) : Host.Outcome State Fault Refusal :=
  let n := fld e.body 0 2
  cmdIn spJobDestroy .never false false (noJob s e 0) (fun t s =>
      match jobOf s t n with
      | none => (resFail stBadField, s)
      | some j =>
        if j.st == .running then (resFail stDenied, s)
        else (resOk, setTenant s t { tenantOf s t with jobs := del (tenantOf s t).jobs n })) e s

/-! ## The vote (R199 to R204) -/

/-- POISON_MASK from the vote sum: bit g where element g is not zero, and every bit of a block of 32 elements that is poison
(R200, R371). -/
def voteMask (sum : List Int) (poison : BitVec 2) : Word64 :=
  BitVec.ofNat 64 ((List.range 64).foldl (fun m g =>
    if poison.getLsbD (g / 32) || sum.getD g 0 != 0 then m + 2 ^ g else m) 0)

/-- The change of one scale-control record after the vote (R204): `set` its bit, `applied` the step. -/
def nextScale (set applied : Bool) (r : ScaleRec) : ScaleRec :=
  if set then
    { r with aCur := min r.aMax (r.aCur + r.backoff), clean := 0, skips := min (2 ^ 32 - 1) (r.skips + 1)
             stall := if r.aCur == r.aMax then min (2 ^ 32 - 1) (r.stall + 1) else 0 }
  else if applied then
    (if r.growInterval ≤ r.clean + 1 then { r with aCur := max r.aMin (r.aCur - 1), clean := 0, stall := 0 }
     else { r with clean := r.clean + 1, stall := 0 })
  else r

/-- SCALE_STALL at each multiple of 16 of STALL (R204). -/
def stallEvents (t n : Nat) (mask : Word64) (l : Tab ScaleRec) (s : State) : State :=
  l.foldl (fun s e => if mask.getLsbD e.1 && e.2.stall != 0 && e.2.stall % 16 == 0 then
    postEvent s t 0x0033 [(0, 2, n), (2, 1, e.1), (4, 4, e.2.stall)] else s) s

/-- A group's A_CUR becomes the agreed exponent of every channel of the group (R204, R373). -/
def writeExps (t n : Nat) (l : Tab ScaleRec) (s : State) : State :=
  { s with chans := s.chans.map fun c =>
      if c.2.valid && c.2.cfg.grpv && c.2.cfg.tenant.toNat == t && c.2.job.toNat == n then
        match tabFind l c.2.cfg.group.toNat with
        | some r => (c.1, { c.2 with cfg := { c.2.cfg with aexp := BitVec.ofInt 10 r.aCur } })
        | none => c
      else c }

/-- The module receives the vote sum: POISON_MASK, DECIDED, the scale records and the exponents (R200, R204). Phase 8 waits
where an epoch of the present boundary has still to be read (R440). -/
def execVoteSumReceive (tenant job : Nat) (sum : List Int) (poison : BitVec 2) (s : State) : Host.Outcome State Fault Refusal :=
  match jobOf s tenant job with
  | none => .next s
  | some j =>
    if j.st != .running || j.decided then .next s
    else
      let m := voteMask sum poison
      let scales := j.scales.map fun e => (e.1, nextScale (m.getLsbD e.1) (m == 0) e.2)
      let j1 := { j with poisonMask := m, decided := true, scales := scales, opened := some j.scales
                         holdFrom := match j.asked with | some (_, false) => if m == 0 then some s.ftime else none | _ => none }
      .next (writeExps tenant job scales (stallEvents tenant job m scales (putStep s tenant job j1)))

/-- The signal that starts the next step (R204, log entry 36). -/
def signalStep (s : State) (uid : Word64) : State :=
  (Config.stepSignals uid).foldl (fun s e => sendSig s e.1 e.2 1) s

/-- After phase 8 the update kernel clears the rows it read, the poison bitmap and the touched list of the tables whose
scatter channel the job holds (R231, log entry 39). -/
def clearGrads (s : State) (t n : Nat) : State :=
  setTenant s t { tenantOf s t with tables := (tenantOf s t).tables.map fun e =>
    (e.1, if e.2.train && (chanOf s e.2.schan).job.toNat == n then { e.2 with grad := [], poison := [], touched := [] } else e.2) }

/-- A step closes: STEP rises, APPLIED with it where the step was applied, the vote words are cleared, and a stop or the next
step follows (R29, R203, R417). A step after the boundary of an evacuating job's epoch does not close (R448). -/
def execStepClose (tenant job : Nat) (s : State) : Host.Outcome State Fault Refusal :=
  match jobOf s tenant job with
  | none => .next s
  | some j =>
    let stuck := j.holdFrom.isSome || (j.evacuate && (match j.asked with | some (_, b) => b | none => false))
    if j.st != .running || !j.decided || stuck then .next s
    else
      let ap := j.poisonMask == 0
      let j1 := { j with step := j.step + 1, applied := if ap then j.applied + 1 else j.applied, decided := false
                         poisonMask := 0, steps := satAdd j.steps 1, appliedSteps := satAdd j.appliedSteps (b2n ap)
                         lastBoundary := s.ftime, opened := none, buf := j.gather.getD j.buf, gather := none
                         st := if j.stopAtBoundary then .stopped else .running, stopAtBoundary := false }
      let s1 := clearGrads (clearVotes (putStep s tenant job j1) tenant j1) tenant job
      .next (if j.stopAtBoundary then completeObj s1 0x0405 (jobObj tenant job) stOK 0 0 else signalStep s1 j.uid)

/-! ## Loss of another module (R202, R447) -/

/-- The jobs of all tenants, by tenant and number. -/
def allJobs (s : State) : List (Nat × Nat × Job) := s.tenants.flatMap fun t => t.2.jobs.map fun j => (t.1, j.1, j.2)

/-- A module has left the fabric. Every channel with it ends, and its trees with them (R295, R375). Of a job with a rank there the
tasks are killed, and it stops at its last verified epoch (R447). -/
def execModuleLossDetected (modid : Nat) (s : State) : Host.Outcome State Fault Refusal :=
  if modid = s.fabric.modid then .next s
  else
    let s0 := endChans s (fun _ x => x.cfg.peer.toNat == modid || x.members.contains modid) 2
    .next (((allJobs s0).filter fun j => j.2.2.ranks.contains modid).foldl (fun s j => stopNow s j.1 j.2.1) s0)

end Sys2Proof.Machine
end

