-- ==== Sys2Proof/Machine/Epochs.lean ====
section
/-! DEFINITION. Plover (R25 to R27, R436 to R438) and the epochs of a job: request, start, mirror, verification, restore
(R30, R421, R439 to R446, R448). -/

namespace Sys2Proof.Machine
open Sys2Proof

/-! ## Requests (R439) -/

def setCkpt (s : State) (t : Nat) (c : Ckpt) : State :=
  setTenant s t { tenantOf s t with
    ckpts := (tenantOf s t).ckpts.filter (fun o => o.uid != c.uid) ++ [c] }

/-- The rank this module has in a job (R385). -/
def rankOf (s : State) (j : Job) : Nat := (j.ranks.findIdx? (· == s.fabric.modid)).getD 0

/-- The checkpoints of a job, new where it has none. -/
def ckptOr (s : State) (t : Nat) (j : Job) : Ckpt := (ckptOf s t j.uid).getD { uid := j.uid, rank := rankOf s j }

/-- An epoch of a job is requested; a trigger joins the one that is being taken (R427, R439). -/
def askEpoch (s : State) (t n : Nat) : State :=
  match jobOf s t n with
  | none => s
  | some j =>
    if j.asked.isSome then s
    else
      let c := ckptOr s t j
      setCkpt (setJobRec s t n { j with asked := some (c.next, false) }) t { c with next := c.next + 1 }

/-- Every running job gets an epoch (R26). -/
def askAll (s : State) : State :=
  ((allJobs s).filter fun j => j.2.2.st == .running).foldl (fun s j => askEpoch s j.1 j.2.1) s

/-- The actions of evacuate: an epoch of every running job, which then stops (R448). -/
def evacuateAll (s : State) : State :=
  let s1 := ((allJobs s).filter fun j => j.2.2.st == .running).foldl (fun s j =>
    match jobOf s j.1 j.2.1 with
    | some x => setJobRec s j.1 j.2.1 { x with evacuate := true }
    | none => s) (askAll s)
  { s1 with plover := { s1.plover with evacuating := true } }

/-! ## Plover (R25 to R27, R436 to R438) -/

/-- A sub-score (R436). -/
def subScore (m q a : Int) : Nat :=
  (if q < a then max 0 (min 255 (255 * (m - q) / (a - q))) else max 0 (min 255 (255 * (q - m) / (q - a)))).toNat

/-- The highest count of a table. -/
def highest (m : Tab Nat) : Nat := m.foldl (fun b e => max b e.2) 0

/-- The lowest margin code of any lane in UP, the quiet value where no link is up. -/
def lowestMargin (s : State) : Nat :=
  ((s.links.filter fun l => l.2.st == .up).flatMap fun l =>
    (l.2.margins.zipIdx.filter fun m => l.2.lanes.getLsbD m.2).map (·.1)).foldl min 24

/-- Entries into RETRAIN of all links in the last hour. -/
def retrains (s : State) : Nat :=
  s.links.foldl (fun n l => n + (l.2.retrainTimes.filter fun t => s.ftime < t + 3600000000000).length) 0

/-- The nine sub-scores in the order of R437. -/
def scores (s : State) : List Nat :=
  let p := s.plover
  [subScore (highest p.linkReplay) 4 1024, subScore p.dieReplay 16 4096, subScore (highest p.stackCe) 64 16384,
   subScore (lowestMargin s) 24 8, subScore p.droops 0 32, subScore p.thermMargin 15 0,
   if s.far.readOnly then 255 else subScore (lifeUsed s) 8000 10000, subScore (retrains s) 0 16,
   subScore s.grid.fallow.length 12 0]

/-- The weights of R437. -/
def weights : List Nat := [24, 32, 64, 24, 40, 48, 64, 24, 48]

/-- The risk index (R438). -/
def riskOf (subs : List Nat) : Nat := min 255 (((subs.zip weights).foldl (fun n e => n + e.1 * e.2) 0) / 64)

/-- The threshold of a level (R26). -/
def threshold (p : Plover) (l : Nat) : Nat :=
  match l with | 0 => 0 | 1 => p.watch.toNat | 2 => p.secure.toNat | _ => p.evacuate.toNat

/-- The level after a recomputation: the highest level at or above its threshold is entered; a level held is left below its
threshold minus 16 (R27). -/
def nextLevel (p : Plover) (risk : Nat) : Nat :=
  let up := ((List.range 4).filter fun l => decide (threshold p l ≤ risk)).foldl max 0
  let held := ((List.range 4).filter fun l => decide (l ≤ p.level.toNat) && decide (threshold p l ≤ risk + 16)).foldl max 0
  max up held

/-- The actions of the levels from `a + 1` to `b`, once each (R26, R27). -/
def levelActions (a b : Nat) (s : State) : State :=
  let s1 := if a < 2 ∧ 2 ≤ b then askAll s else s
  if a < 3 ∧ 3 ≤ b then evacuateAll s1 else s1

/-- The history of R482: every recomputation at the fine rate, every tenth at the coarse rate, 1,024 kept. -/
def history (p : Plover) (fine : Bool) (risk : Nat) : List Byte :=
  if fine || p.tick % 10 == 0 then (BitVec.ofNat 8 risk :: p.history).take 1024 else p.history

/-- Telemetry runs at the fine rate: TELEM_RATE selects it, and watch forces it (R482). -/
def fineNow (s : State) : Bool := s.drover.fineRate || decide (0 < s.plover.level.toNat)

/-- The counts of a window start again (R25). -/
def newWindow (p : Plover) : Plover := { p with dieReplay := 0, stackCe := [], linkReplay := [], droops := 0 }

/-- A window ends: its sub-scores stand until Plover recomputes (R25, R436). -/
def endPlover (s : State) : State := { s with plover := { newWindow s.plover with ended := s.plover.ended ++ [scores s] } }

/-- The sub-scores of the window that a recomputation covers, and Plover after it: those of the oldest window that has ended, and with
none the counts as they stand close. -/
def takeWindow (s : State) : List Nat × Plover :=
  match s.plover.ended with
  | x :: rest => (x, { s.plover with ended := rest })
  | [] => (scores s, newWindow s.plover)

/-- Every 10 ms Plover recomputes the index; an input that cannot be read keeps its sub-score (R436). The index is frozen while
Uango restarts (R450), whose windows end all the same (R25). -/
def execPloverRecompute (unread : BitVec 9) (s : State) : Host.Outcome State Fault Refusal :=
  let p := s.plover
  let w := takeWindow s
  if s.drover.restarting then .next { s with plover := w.2 }
  else
    let subs := w.1.zipIdx.map fun e => if unread.getLsbD e.2 then look 0 p.subs e.2 else e.1
    let risk := riskOf subs
    let l := nextLevel p risk
    let p1 := { w.2 with risk := BitVec.ofNat 8 risk, level := BitVec.ofNat 2 l, subs := subs.zipIdx.map fun e => (e.2, e.1),
                         tick := p.tick + 1, evacuating := p.evacuating && !(p.level == 3 && decide (l < 3)) }
    let s1 := { s with plover := p1 }
    let s2 := { s1 with plover := { p1 with history := history p (fineNow s1) risk } }
    let s3 := if l = p.level.toNat then s2 else postPf s2 0x0050 [(0, 1, risk), (1, 1, l)]
    .next (levelActions p.level.toNat l s3)

/-- PLOVER_SET: watch < secure < evacuate, else BAD_FIELD (R26). -/
def execPloverSet (e : Entry) (s : State) : Host.Outcome State Fault Refusal :=
  let w := fld e.body 0 1
  let c := fld e.body 1 1
  let v := fld e.body 2 1
  cmd spPloverSet .never false (!(decide (w < c) && decide (c < v))) (fun _ s =>
    (resOk, { s with plover := { s.plover with watch := BitVec.ofNat 8 w, secure := BitVec.ofNat 8 c
                                               evacuate := BitVec.ofNat 8 v } })) e s

/-- MOD_EVACUATE: the actions of evacuate at once; it is whole when every job has stopped (R448). -/
def execModEvacuate (e : Entry) (s : State) : Host.Outcome State Fault Refusal :=
  cmd spModEvacuate .long false false (fun _ s =>
    let s1 := evacuateAll s
    (if (allJobs s1).any fun j => j.2.2.evacuate then .wait 1 else resOk, s1)) e s

/-! ## Regions and segments (R440, R441, R443) -/

/-- The persistent regions of a rank: the step area, those of the program image, the shards of trainable tables that this
module owns (R211, R440). -/
def regionsOf (s : State) (t : Nat) (j : Job) : List (Nat × Nat) :=
  let x := tenantOf s t
  let img := match tabFind x.progs j.progId with | some p => Config.persistentRegions p.digest | none => []
  let tabs := (x.tables.filter fun e => e.2.train).flatMap fun e =>
    (e.2.shards.zipIdx.filter fun h => h.1.2.1 == s.fabric.modid).map fun h =>
      let upto := (e.2.shards[h.2 + 1]?.map (·.1)).getD e.2.nrows
      let base := ((e.2.versions.find? fun v => v.version == e.2.current).bind fun v => tabFind v.bases h.2).getD h.1.2.2.2
      let sz := storedSize e.2.fmt
      (base, tileVa base sz ((upto - h.1.1 + 63) / 64 * e.2.np - 1) + sz - base)
  (j.stepVa.toNat, Config.page2M) :: img ++ tabs

def segSize : Nat := 67108864

/-- The segments of a rank: region, segment, address, bytes. -/
def segsOf (s : State) (t : Nat) (j : Job) : List (Nat × Nat × Nat × Nat) :=
  (regionsOf s t j).zipIdx.flatMap fun r =>
    (List.range ((r.1.2 + segSize - 1) / segSize)).map fun i =>
      (r.2, i, r.1.1 + i * segSize, min segSize (r.1.2 - i * segSize))

/-- The 2 MiB pages of a range. -/
def pagesIn (va n : Nat) : List Nat :=
  (List.range ((va + n + Config.page2M - 1) / Config.page2M - va / Config.page2M)).map (va / Config.page2M + ·)

/-- A page of the range has had DIRTY set since the previous epoch's read, though an eviction may have cleared it (R440). -/
def rangeDirty (s : State) (t va n : Nat) : Bool :=
  (pagesIn va n).any fun p => match leafOf s t (p * Config.page2M) with
    | some (l, _) => pteDirty l.pte || l.written
    | none => false

/-- The cause with which Uango's read of a range ends, none where it can be read: a page that has been lost, or a check of R277. -/
def rangeError (s : State) (t va n : Nat) : Option Cause :=
  (pagesIn va n).findSome? fun p => match leafOf s t (p * Config.page2M) with
    | none => none
    | some (l, big) =>
      if pteBroken l.pte = 1 then some .memError
      else if pteBroken l.pte = 2 then some .integrity
      else
        let lo := max va (p * Config.page2M)
        match pageHome s t lo l with
        | none => none
        | some a => (readCheck s (a + lo % pageBytes big) (min (va + n) ((p + 1) * Config.page2M) - lo) .clean).2

/-- The bytes of a range as Uango reads them, by offset. -/
def rangeCells (s : State) (t va n : Nat) : List Host.Cell :=
  (pagesIn va n).flatMap fun p =>
    match leafOf s t (p * Config.page2M) with
    | none => []
    | some (l, big) => match pageHome s t (p * Config.page2M) l with
      | none => []
      | some a =>
        let base := a + p * Config.page2M % pageBytes big
        (s.mem.filter fun c => inRange base Config.page2M c.1 && inRange va n (p * Config.page2M + (c.1 - base))).map
          fun c => (p * Config.page2M + (c.1 - base) - va, c.2)

/-- Bytes 0 to 31 of a segment header (R441). -/
def segHeader (uid : Word64) (epoch rank region seg len : Nat) : List Byte :=
  toBytes 8 uid.toNat ++ toBytes 8 epoch ++ toBytes 2 rank ++ toBytes 2 region ++ toBytes 4 seg ++ toBytes 4 len ++ toBytes 4 0

def segDigest (uid : Word64) (epoch rank region seg len : Nat) (data : List Byte) : BitVec 384 :=
  Config.sha384 (segHeader uid epoch rank region seg len ++ data)

/-- One level of the Merkle tree (R443). -/
def pairUp : List (BitVec 384) → List (BitVec 384)
  | a :: b :: t => Config.sha384 (toBytes 48 a.toNat ++ toBytes 48 b.toNat) :: pairUp t
  | l => l

/-- The Merkle root (R443). -/
def merkle : Nat → List (BitVec 384) → BitVec 384
  | 0, l => l.headD 0
  | n + 1, l => match l with
    | [] => 0
    | [a] => a
    | l => merkle n (pairUp l)

def rootOf (l : List SegRef) : BitVec 384 := merkle l.length (l.map (·.digest))

/-! ## The epoch (R30, R440, R444, R445) -/

/-- The buddy of a job, none without one (R421). -/
def buddyOf (j : Job) : Option Nat := match j.ckpt with | some (_, b, _) => if b = 0xFFFF then none else some b | none => none

/-- The base interval in ns, halved while this module or, `watch`, another module of the job is at watch or above (R26, R439). -/
def intervalOf (s : State) (watch : Bool) (j : Job) : Option Nat :=
  match j.ckpt with
  | some (_, _, ms) => some (if 0 < s.plover.level.toNat ∨ watch = true ∧ 1 < j.ranks.length then ms * 500000 else ms * 1000000)
  | none => none

/-- The base interval has passed since the previous epoch's boundary: an epoch is requested (R439). -/
def execEpochIntervalExpiry (tenant job : Nat) (watch : Bool) (s : State) : Host.Outcome State Fault Refusal :=
  match jobOf s tenant job with
  | none => .next s
  | some j => match intervalOf s watch j with
    | some d => if j.st == .running && decide (j.epochTime + d ≤ s.ftime) then .next (askEpoch s tenant job) else .next s
    | none => .next s

/-- A segment of the new manifest: written again, or the entry of the previous epoch. -/
def newEntry (s : State) (t : Nat) (c : Ckpt) (prev : Option Epoch) (n : Nat) (g : Nat × Nat × Nat × Nat) : SegRef :=
  let old := prev.bind fun e => e.entries.find? fun r => r.region == g.1 && r.seg == g.2.1 && r.len == g.2.2.2
  match old with
  | some r =>
    if !c.full && !c.redo.contains (g.1, g.2.1) && !rangeDirty s t g.2.2.1 g.2.2.2 then r
    else { region := g.1, seg := g.2.1, len := g.2.2.2, epoch := n
           digest := segDigest c.uid n c.rank g.1 g.2.1 g.2.2.2 (bytesAt (rangeCells s t g.2.2.1 g.2.2.2) 0 g.2.2.2) }
  | none =>
    { region := g.1, seg := g.2.1, len := g.2.2.2, epoch := n
      digest := segDigest c.uid n c.rank g.1 g.2.1 g.2.2.2 (bytesAt (rangeCells s t g.2.2.1 g.2.2.2) 0 g.2.2.2) }

/-- Uango clears DIRTY of a page that it reads, with the invalidation of R77 (R440). -/
def cleanPage (t : Nat) (s : State) (p : Nat) : State :=
  match leafOf s t (p * Config.page2M) with
  | none => s
  | some (l, big) =>
    if !pteDirty l.pte then setLeaf s t (p * Config.page2M) big { l with written := false }
    else (sendInval (setLeaf s t (p * Config.page2M) big { l with written := false, pte := setField l.pte 10 1 0 }) t
      (p * Config.page2M / pageBytes big * pageBytes big) (pageBytes big) (pteAddr l.pte)).2

/-- The rank as it stood at the boundary that opened the step: after the vote, the step area with the records of that boundary
(R30, R211). -/
def atBoundary (s : State) (t : Nat) (j : Job) : State :=
  match j.opened with
  | none => s
  | some o =>
    let j0 := { j with scales := o, decided := false, poisonMask := 0 }
    clearVotes (writeStep s t j0) t j0

/-- Uango reads every segment of the rank, writes the changed ones to the local Far tier, and mirrors them (R440, R444). One that
cannot be read has no copy, and the epoch will fail (R277, log entry 183). -/
def startEpoch (s : State) (t jn n : Nat) (j : Job) : State :=
  let c := ckptOr s t j
  let segs := segsOf s t j
  let prev := c.epochs.getLast?
  let s0 := atBoundary s t j
  let entries := segs.map (newEntry s0 t c prev n)
  let fresh := (segs.zip entries).filter fun g => g.2.epoch == n
  let good := fresh.filter fun g => (rangeError s0 t g.1.2.2.1 g.1.2.2.2).isNone
  let copies := if s.far.readOnly then [] else good.map fun g =>
    ({ uid := c.uid, epoch := n, rank := c.rank, ref := g.2, data := rangeCells s0 t g.1.2.2.1 g.1.2.2.2 } : SegCopy)
  let e : Epoch := { epoch := n, step := j.step, ftime := j.lastBoundary, entries := entries, root := rootOf entries
                     prev := if fresh.length == segs.length then 0 else (prev.map (·.epoch)).getD 0
                     applied := j.applied, scales := j.opened.getD j.scales, loc := !s.far.readOnly, buddy := (buddyOf j).isSome
                     bad := fresh.findSome? fun g => rangeError s0 t g.1.2.2.1 g.1.2.2.2 }
  let s1 := setCkpt (storeBytes s (copies.foldl (fun n c => n + 256 + c.ref.len) 0)) t { c with open_ := some e, copies := c.copies ++ copies, next := max c.next (n + 1) }
  let s2 := setJobRec s1 t jn { j with asked := some (n, true), epochTime := j.lastBoundary, holdFrom := none
                                       holdNs := satAdd j.holdNs (match j.holdFrom with | some f => s.ftime - f | none => 0) }
  (segs.flatMap fun g => pagesIn g.2.2.1 g.2.2.2).eraseDups.foldl (cleanPage t) s2

/-- The epoch starts at the agreed boundary: the one that opened the current step, phase 8 of which has not begun (R30). A
request of another module comes with the start. -/
def execEpochStart (tenant job : Nat) (boundary : Word64) (s : State) : Host.Outcome State Fault Refusal :=
  match jobOf s tenant job with
  | none => .next s
  | some j =>
    let begun := j.decided && j.poisonMask == 0 && j.holdFrom.isNone
    let s1 := askEpoch s tenant job
    match jobOf s1 tenant job with
    | none => .next s
    | some j1 => match j1.asked with
      | some (n, false) => if j.step == boundary && !begun && j.started then .next (startEpoch s1 tenant job n j1) else .next s
      | _ => .next s

/-- A copy that a kept manifest names. -/
def named (es : List Epoch) (c : SegCopy) : Bool :=
  es.any fun e => e.entries.any fun r => r.region == c.ref.region && r.seg == c.ref.seg && r.epoch == c.epoch

/-- Epochs kept (R421, R445); 2 where the driver has set no policy (log entry 38). -/
def keepOf (j : Job) : Nat := match j.ckpt with | some (k, _, _) => k | none => 2

/-- The status an epoch of the rank ends with: MEM_ERROR where the Far tier is read-only and no buddy stands (R444). DEDUCED (log
entry 183): a segment that cannot be read fails the epoch with the cause of the read. -/
def epochStatus (s : State) (j : Job) (e : Epoch) (status : Byte) : Nat :=
  if s.far.readOnly && (buddyOf j).isNone then 0x40
  else match e.bad with | some c => (causeStatus c).toNat | none => status.toNat

/-- The evacuation of one more job is over; MOD_EVACUATE is answered with the last (R448). -/
def endEvacuation (s : State) (st : Nat) : State :=
  if (allJobs s).any fun j => j.2.2.evacuate then s else completeObj s 0x0904 1 (BitVec.ofNat 16 st) 0 0

/-- Every rank's epoch has been verified, or one has failed: CKPT_DONE, the commands that joined it, and the epochs that KEEP
lets go (R444, R445, R448). -/
def execEpochVerified (tenant job : Nat) (status : Byte) (s : State) : Host.Outcome State Fault Refusal :=
  match jobOf s tenant job with
  | none => .next s
  | some j => match (ckptOf s tenant j.uid), j.asked with
    | some c, some (n, true) => match c.open_ with
      | none => .next s
      | some e =>
        let st := epochStatus s j e status
        let ok := st == 0
        let es := c.epochs ++ [e]
        let kept := es.drop (es.length - keepOf j)
        let c1 := if ok then { c with epochs := kept, copies := c.copies.filter (named kept), open_ := none, redo := [], full := false }
          else { c with copies := c.copies.filter (named c.epochs), open_ := none
                        redo := c.redo ++ (e.entries.filter fun r => r.epoch == n).map fun r => (r.region, r.seg) }
        let stop := ok && j.evacuate
        let s0 := if s.far.readOnly then s else storeBytes s (256 + 64 * e.entries.length)
        let s1 := setCkpt (setJobRec s0 tenant job { j with asked := none, evacuate := false
                                                            st := if stop then .stopped else j.st }) tenant c1
        let s2 := postEvent s1 tenant 0x0051 [(0, 2, job), (2, 1, st), (8, 8, n)]
        let s3 := completeObj s2 0x0601 (jobObj tenant job) (BitVec.ofNat 16 st) 8 (bodyOf [(0, 8, n)])
        .next (if j.evacuate then endEvacuation s3 st else s3)
    | _, _ => .next s

/-! ## The buddy (R440, R444) -/

/-- FAR_UNITS that copies take, in units of 2 MiB with their headers. -/
def copyUnits (l : List SegCopy) : Nat := l.foldl (fun n c => n + (c.ref.len + 256 + Config.page2M - 1) / Config.page2M) 0

/-- The tenant whose job has the UID. -/
def uidTenant (s : State) (uid : Word64) : Option Nat := ((allJobs s).find? fun j => j.2.2.uid == uid).map (·.1)

def sameSeg (c : SegCopy) (uid : Word64) (epoch rank region seg : Nat) : Bool :=
  c.uid == uid && c.epoch == epoch && c.rank == rank && c.ref.region == region && c.ref.seg == seg

/-- Cells of a byte list. -/
def cellsOf (b : List Byte) : List Host.Cell := (b.zipIdx.filter fun e => e.1 != 0).map fun e => (e.2, e.1)

/-- The buddy receives a segment and computes its digest afresh: it asks once more at a mismatch, and gives up at a second; it
stores a copy where it fits the tenant's FAR_UNITS (R444). -/
def execSegmentReceive (jobUid epoch : Word64) (rank region seg : Nat) (bytes : List Byte) (digest : BitVec 384) (s : State) :
    Host.Outcome State Fault Refusal :=
  match uidTenant s jobUid with
  | none => .next s
  | some t =>
    let x := tenantOf s t
    let k := (jobUid, epoch.toNat, rank, region, seg)
    if segDigest jobUid epoch.toNat rank region seg bytes.length bytes ≠ digest then
      .next (setTenant s t { x with askAgain := if x.askAgain.contains k then x.askAgain.erase k else x.askAgain ++ [k] })
    else
      let c : SegCopy := { uid := jobUid, epoch := epoch.toNat, rank := rank, data := cellsOf bytes
                           ref := { region := region, seg := seg, len := bytes.length, epoch := epoch.toNat, digest := digest } }
      let rest := x.mirrored.filter fun m => !sameSeg m jobUid epoch.toNat rank region seg
      let fits := decide (tierUsed s t 2 + copyUnits (rest ++ [c]) ≤ x.farUnits)
      let kept := !s.far.readOnly && fits
      .next (setTenant (if kept then storeBytes s (256 + bytes.length) else s) t
        { x with askAgain := x.askAgain.erase k, mirrored := if kept then rest ++ [c] else rest })

/-! ## The commands (R421) -/

def execCkptConfig (e : Entry) (s : State) : Host.Outcome State Fault Refusal :=
  let n := fld e.body 0 2
  let keep := fld e.body 2 1
  let b := fld e.body 4 2
  let ms := fld e.body 8 4
  cmdIn spCkptConfig .never false
    (decide (keep < 2) || decide (16 < keep) || decide (ms < 1000) || decide (86400000 < ms) ||
     (b != 0xFFFF && (decide (1023 < b) || b == s.fabric.modid))) (noJob s e 0) (fun t s =>
      match jobOf s t n with
      | none => (resFail stBadField, s)
      | some j =>
        if b ≠ 0xFFFF ∧ !inFabric s b then (resFail stUnreachable, s)
        else
          let c := ckptOr s t j
          let fresh := (j.ckpt.map fun p => p.2.1) != some b
          (resOk, setCkpt (setJobRec s t n { j with ckpt := some (keep, b, ms) }) t { c with full := c.full || fresh })) e s

def execCkptSecure (e : Entry) (s : State) : Host.Outcome State Fault Refusal :=
  let n := fld e.body 0 2
  cmdIn spCkptSecure .long false false (noJob s e 0) (fun t s =>
      match jobOf s t n with
      | none => (resFail stBadField, s)
      | some j => if j.st == .running then (.wait (jobObj t n), askEpoch s t n) else (resFail stDenied, s)) e s

/-- 32 bytes of CKPT_LIST. -/
def listEntry (x : Epoch) : List Byte :=
  toBytes 8 x.epoch ++ toBytes 8 x.step.toNat ++ toBytes 8 x.ftime ++ toBytes 8 (b2n x.loc + 2 * b2n x.buddy)

def execCkptList (e : Entry) (s : State) : Host.Outcome State Fault Refusal :=
  cmdIn spCkptList .never false false (noJob s e 8) (fun t s =>
      match jobOf s t (fld e.body 8 2) with
      | none => (resFail stBadField, s)
      | some j => (.done stOK 0 0 (some (match ckptOf s t j.uid with
          | some c => c.epochs.flatMap listEntry
          | none => [])), s)) e s

/-- The newest verified epoch is never deleted (R445). -/
def execCkptDelete (e : Entry) (s : State) : Host.Outcome State Fault Refusal :=
  let n := fld e.body 8 8
  let known := match jobOf s (targetOf e) (fld e.body 0 2) with
    | some j => (match ckptOf s (targetOf e) j.uid with | some c => c.epochs.any fun x => x.epoch == n | none => false)
    | none => false
  cmdIn spCkptDelete .may false false (!known) (fun t s =>
      match jobOf s t (fld e.body 0 2) with
      | none => (resFail stBadField, s)
      | some j => match ckptOf s t j.uid with
        | none => (resFail stBadField, s)
        | some c =>
          if lastEpoch s t j.uid == n then (resFail stDenied, s)
          else
            let es := c.epochs.filter fun x => x.epoch != n
            let open_ := match c.open_ with | some o => [o] | none => []
            (resOk, setCkpt s t { c with epochs := es, copies := c.copies.filter (named (es ++ open_)) })) e s

/-! ## Restore (R446) -/

/-- The manifest of a buddy, checked for JOB_UID, EPOCH, RANK and root (R442, R446 steps 1 and 2): step and entries. -/
def parseManifest (uid : Word64) (epoch rank : Nat) (segs : List (Nat × Nat × Nat × Nat)) (b : List Byte) :
    Option (Nat × List SegRef) :=
  let es := segs.zipIdx.map fun g =>
    ({ region := g.1.1, seg := g.1.2.1, len := g.1.2.2.2, epoch := le b (256 + 64 * g.2) 8
       digest := BitVec.ofNat 384 (le b (264 + 64 * g.2) 48) } : SegRef)
  if le b 0 8 == uid.toNat && le b 8 8 == epoch && le b 32 2 == rank && le b 34 4 == segs.length &&
      rootOf es == BitVec.ofNat 384 (le b 46 48) then some (le b 16 8, es) else none

/-- The bytes of a segment from a copy whose DIGEST it verifies: the named source first, then the other. -/
def segSource (c : Ckpt) (uid : Word64) (rank : Nat) (buddyFirst : Bool) (r : SegRef) : Option (List Byte) :=
  let loc := (c.copies.find? fun o => sameSeg o uid r.epoch rank r.region r.seg).map fun o => bytesAt o.data 0 r.len
  let far := some (Config.buddySegment uid r.epoch rank r.region r.seg)
  let good := fun (o : Option (List Byte)) => match o with
    | some b => if b.length == r.len && segDigest uid r.epoch rank r.region r.seg r.len b == r.digest then some b else none
    | none => none
  if buddyFirst then (match good far with | some b => some b | none => good loc)
  else (match good loc with | some b => some b | none => good far)

/-- Every segment is verified and written; INTEGRITY where one fails in both sources. Which of the others then stand in place is
left open: a free value says (R446 step 4). A write that the Far tier refuses ends with its own cause (R281, log entry 157). -/
def restoreAll (s : State) (t : Nat) (c : Ckpt) (uid : Word64) (buddyFirst : Bool)
    (l : List ((Nat × Nat × Nat × Nat) × SegRef)) : State × Option Cause :=
  let src := l.map fun g => (g.1.2.2.1, segSource c uid c.rank buddyFirst g.2)
  let one := fun (a : State × Option Cause) (va : Nat) (b : List Byte) =>
    let r := uangoWrite a.1 t va b
    (r.1, a.2.orElse fun _ => r.2)
  if src.all fun g => g.2.isSome then src.foldl (fun a g => one a g.1 (g.2.getD [])) (s, none)
  else
    let fv := freeBits s src.length
    ((src.zipIdx.foldl (fun a g => match g.1.2 with
      | some b => if fv.1 g.2 then one a g.1.1 b else a
      | none => a) (fv.2, none)).1, some .integrity)

/-- The end of a restore that failed: the job stays STOPPED (R446). -/
def restoreFails (s : State) (t n : Nat) (j : Job) (c : Cause) : Res × State :=
  (resFail (causeStatus c), setJobRec s t n { j with broken := true })

/-- APPLIED and the scale records as a restored step area holds them. -/
def stepAreaBytes (s : State) (t : Nat) (j : Job) (off n : Nat) : List Byte :=
  bytesAt (rangeCells s t j.stepVa.toNat Config.page2M) off n

def readScales (s : State) (t : Nat) (j : Job) : Tab ScaleRec :=
  j.scales.map fun e =>
    let w : BitVec 256 := BitVec.ofNat 256 (ofBytes (stepAreaBytes s t j (Config.scaleRecordsOff + 32 * e.1) 32))
    (e.1, { scaleOf w with clean := field w 96 32, skips := field w 128 32, stall := field w 160 32 })

/-- Step 5 of R446: the step record with the manifest's STEP, and the vote words are cleared; each A_CUR is the
agreed exponent of its group's channels (R197). DEDUCED (log entry 200): gradient rows, poison bitmap and touched list of the tables
stay as they are. -/
def resumeAt (s : State) (t n : Nat) (j : Job) (step : Nat) (applied : Word64) (scales : Tab ScaleRec) : State :=
  let j1 := { j with step := BitVec.ofNat 64 step, applied := applied, scales := scales, decided := false, poisonMask := 0
                     broken := false, asked := none, holdFrom := none, opened := none }
  writeExps t n scales (clearVotes (putStep s t n j1) t j1)

/-- Restore from the local copies of an epoch. -/
def restoreLocal (s : State) (t n : Nat) (j : Job) (c : Ckpt) (x : Epoch) : Res × State :=
  match restoreAll s t c j.uid false ((segsOf s t j).zip x.entries) with
  | (s1, none) => (resOk, resumeAt s1 t n j x.step.toNat x.applied x.scales)
  | (s1, some e) => restoreFails s1 t n j e

/-- Restore from the buddy: its manifest is read and checked first; one that fails is taken from the local copies. -/
def restoreBuddy (s : State) (t n : Nat) (j : Job) (c : Ckpt) (epoch : Nat) (raw : List Byte) : Res × State :=
  let segs := segsOf s t j
  match parseManifest j.uid epoch c.rank segs raw with
  | some (step, es) => match restoreAll s t c j.uid true (segs.zip es) with
    | (s1, none) =>
      let ap : Word64 := BitVec.ofNat 64 (ofBytes (stepAreaBytes s1 t j (Config.stepRecordOff + 24) 8))
      (resOk, resumeAt s1 t n j step ap (readScales s1 t j))
    | (s1, some e) => restoreFails s1 t n j e
  | none => match c.epochs.find? (fun x => x.epoch == epoch) with
    | some x => restoreLocal s t n j c x
    | none => restoreFails s t n j .integrity

def execCkptRestore (e : Entry) (s : State) : Host.Outcome State Fault Refusal :=
  let n := fld e.body 0 2
  let src := fld e.body 2 1
  let epoch := fld e.body 8 8
  cmdIn spCkptRestore .may false (decide (1 < src)) (noJob s e 0) (fun t s =>
      match jobOf s t n with
      | none => (resFail stBadField, s)
      | some j =>
        let c := ckptOr s t j
        if src = 0 then
          (match c.epochs.find? (fun x => x.epoch == epoch) with
           | none => (resFail stBadField, s)
           | some x => if j.st != .stopped then (resFail stDenied, s) else restoreLocal s t n j c x)
        else match Config.buddyManifest j.uid epoch c.rank with
          | none => (resFail stBadField, s)
          | some raw =>
            if j.st != .stopped then (resFail stDenied, s)
            else if (match buddyOf j with | some b => !inFabric s b | none => true) then (resFail stUnreachable, s)
            else restoreBuddy s t n j c epoch raw) e s

end Sys2Proof.Machine
end

