-- ==== Sys2Proof/Machine/GlnRead.lean ====
section
/-! DEFINITION. What every Gleaner command shares: its fields, how it reads and writes tenant memory, and where it stops
(R212, R214, R216). -/

namespace Sys2Proof.Machine
open Sys2Proof

/-! ## Where a command stops -/

/-- A command waits for a page, or for remote answers (hop or owner, node or row), or ends with a cause. -/
inductive GStop where
  | wait
  | need (l : List (Nat × Nat))
  | bad (c : Cause) (va : Nat)
  deriving DecidableEq, Repr

/-- A test of the body checks: BOUNDS where it fails (R214 step 4). -/
def gAssert (b : Bool) (c : Cause := .bounds) (va : Nat := 0) : Except GStop Unit :=
  if b then .ok () else .error (.bad c va)

/-! ## Reading and writing (R75, R214, R216) -/

/-- The physical place of a piece, `hole` the cause where nothing maps it. -/
def gPlace (s : State) (t : Nat) (hole : Cause) (acc va n : Nat) : Except GStop Nat :=
  match spot s t va acc with
  | .wait => .error .wait
  | .bad .translation => .error (.bad hole va)
  | .bad c => .error (.bad c va)
  | .ok pa => if pastLs pa n then .error (.bad hole va) else .ok pa

def gPiece (s : State) (t : Nat) (hole : Cause) (p : Nat × Nat) : Except GStop (List Byte) := do
  let pa ← gPlace s t hole 0 p.1 p.2
  match (physRead s pa p.2 .clean).2 with
  | .ok b => .ok b
  | .err c => .error (.bad c p.1)

/-- Read `n` bytes at a virtual address. -/
def gReadOr (s : State) (t : Nat) (hole : Cause) (va n : Nat) : Except GStop (List Byte) := do
  let l ← (pieces 512 (n / 512 + 2) va n).mapM (gPiece s t hole)
  return l.flatten

def gRead (s : State) (t va n : Nat) : Except GStop (List Byte) := gReadOr s t .translation va n

def gNum (s : State) (t va n : Nat) : Except GStop Nat := do
  let b ← gRead s t va n
  return ofBytes b

/-- `n` entries of `k` bytes. -/
def gNums (s : State) (t va k n : Nat) : Except GStop (List Nat) := do
  let b ← gRead s t va (k * n)
  return (List.range n).map fun i => ofBytes ((b.drop (k * i)).take k)

/-- A region the command writes is mapped for its full length, and writable: else BOUNDS, or PERMISSION. -/
def gOut (s : State) (t va n : Nat) : Except GStop Unit :=
  if n = 0 then .ok ()
  else if !mappedWhole s t (va, n) then .error (.bad .bounds va)
  else if !permitted s t 1 (va, n) then .error (.bad .permission va)
  else .ok ()

/-- Every page of the pieces to write is resident. -/
def outsReady (s : State) (t : Nat) (outs : List (Nat × List Byte)) : Bool :=
  outs.all fun o => (pagesOf o.1 o.2.length).all fun p => spot s t (max p o.1) 1 != .wait

/-! ## Fields of a command (R212) -/

def gHead (g : GCmd) : BitVec 512 := BitVec.ofNat 512 (ofBytes (g.bytes.take 64))
def gBody (g : GCmd) : BitVec 512 := BitVec.ofNat 512 (ofBytes ((g.bytes.drop 64).take 64))
def gCode (h : BitVec 512) : Nat := field h 0 8
def gOrd (h : BitVec 512) : Bool := h.getLsbD 16
def gTag (h : BitVec 512) : Nat := field h 32 32
def gCompl (h : BitVec 512) : Nat := field h 64 64

/-! ## The commands of a Fold -/

def glnOf (s : State) (f : Nat) : Fold := look {} s.folds f
def setFoldRec (s : State) (f : Nat) (x : Fold) : State := { s with folds := put s.folds f x }

def findCmd (s : State) (f id : Nat) : Option GCmd := (glnOf s f).cmds.find? fun g => g.id == id

def putCmd (s : State) (f : Nat) (g : GCmd) : State :=
  setFoldRec s f { glnOf s f with cmds := (glnOf s f).cmds.map fun o => if o.id == g.id then g else o }

/-- A running command of one code: started, and not ended. -/
def runningCmd (s : State) (f id code : Nat) : Option GCmd :=
  match findCmd s f id with
  | some g => if g.started && g.status.isNone && gCode (gHead g) == code then some g else none
  | none => none

/-- What a failed access leaves behind: a local-store read counts at its core (R74, R431), a malformed entry is an event (R262). -/
def noteStop (s : State) (t va : Nat) (c : Cause) : State :=
  match c, spot s t va 0 with
  | .memError, .ok pa => if inLs pa then countLasting s ((pa - Config.lsBase) / 0x100000) else s
  | .translation, _ => noteMalformed s t va 0
  | .bounds, _ => if va = 0 then s else noteMalformed s t va 0
  | _, _ => s

/-- The command ends with a cause: FAULT_ADDR, and no counts (R216). -/
def failCmd (s : State) (f : Nat) (g : GCmd) (c : Cause) (va : Nat) : State :=
  putCmd (noteStop s g.tenant va c) f
    { g with status := some (some c), faultAddr := BitVec.ofNat 64 va, counts := [], adds := [], blocks := [] }

/-- The command ends because the hardware ended one of its accesses: what that access read fails from now on (R277, R278). -/
def failAccess (s : State) (f : Nat) (g : GCmd) (e : BadAccess) : State :=
  failCmd (match spot s g.tenant e.2.toNat 0 with | .ok pa => meetError s pa e.1 | _ => s) f g e.1 e.2.toNat

/-- Corrected and transient errors of a command's reads are counted where they fell (R74, R277). -/
def noteSoft (t : Nat) (soft : List SoftError) (s : State) : State :=
  soft.foldl (fun s e => match spot s t e.1.toNat 0 with
    | .ok pa => (physRead s pa 1 (if e.2 then .corrected else .transient)).1
    | _ => s) s

/-- Some of the pieces had been written before the failure, as free bits say (R216, log entry 41). -/
def someOuts (s : State) (t : Nat) (outs : List (Nat × List Byte)) : State := halfWrite t outs s

/-- A region the command reads is mapped for its full length: else TRANSLATION (R214). -/
def gIn (s : State) (t va n : Nat) : Except GStop Unit := gAssert (mappedWhole s t (va, n)) .translation va

/-- Write the pieces in turn, up to the first that fails: its cause and address (R216). -/
def writeTurn (t : Nat) : List (Nat × List Byte) → State → State × Option (Cause × Nat)
  | [], s => (s, none)
  | p :: ps, s =>
    match vaWrite s t p.1 p.2 .clean with
    | (s1, some c) => (s1, some (c, p.1))
    | (s1, none) => writeTurn t ps s1

/-- Write every piece in turn, then end: with success, or at the first write that fails (R216). -/
def finishOuts (s : State) (f : Nat) (g : GCmd) (outs : List (Nat × List Byte)) (last : Nat × List Byte)
    (counts : List Nat) (adds : List (Nat × Nat)) : State :=
  match writeTurn g.tenant outs s with
  | (s1, some e) => failCmd s1 f g e.1 e.2
  | (s1, none) => match vaWrite s1 g.tenant last.1 last.2 .clean with
    | (s2, some c) => failCmd s2 f g c last.1
    | (s2, none) => putCmd s2 f { g with status := some none, counts := counts, adds := adds }

/-! ## Stored rows (R39, R88, R218) -/

/-- The blocks of one panel row: scale byte and elements. -/
def panelBlocks (fmt : Nat) (data scales : List Byte) : List (Nat × List Int) :=
  let xs := rowElems fmt data
  (List.range (blocksPerRow fmt 16)).map fun j =>
    ((scales.getD j 0).toNat, (xs.drop (blockSize fmt * j)).take (blockSize fmt))

/-- The data and scale addresses of panel `p` of row `l` in a tile-major region of `np` panels (R218). -/
def panelVa (base fmt np l p : Nat) : Nat × Nat :=
  let tile := tileVa base (storedSize fmt) (l / 64 * np + p)
  (tile + l % 64 * 64, tile + 4096 + l % 64 * blocksPerRow fmt 16)

/-- The 64 data bytes and the scale bytes of a panel. -/
def panelBytes (s : State) (t base fmt np l p : Nat) : Except GStop (List Byte × List Byte) := do
  let a := panelVa base fmt np l p
  let d ← gRead s t a.1 64
  let e ← gRead s t a.2 (blocksPerRow fmt 16)
  return (d, e)

/-- The panels of a row. -/
def rowPanels (s : State) (t base fmt np l : Nat) : Except GStop (List (List Byte × List Byte)) :=
  (List.range np).mapM (panelBytes s t base fmt np l)

def panelsBlocks (fmt : Nat) (ps : List (List Byte × List Byte)) : List (Nat × List Int) :=
  ps.flatMap fun p => panelBlocks fmt p.1 p.2

/-- The bytes of a region of `rows` rows in a tile-major layout. -/
def regionBytes (base fmt np rows : Nat) : Nat :=
  tileVa base (storedSize fmt) ((rows + 63) / 64 * np - 1) + storedSize fmt - base

/-- The pieces that write a row of blocks into a tile-major region. -/
def rowPieces (base fmt np l : Nat) (blocks : List (Nat × List Int)) : List (Nat × List Byte) :=
  let b := blocksPerRow fmt 16
  (List.range np).flatMap fun p =>
    let a := panelVa base fmt np l p
    let bs := (blocks.drop (b * p)).take b
    [(a.1, elemBytes fmt 64 (bs.flatMap (·.2))), (a.2, bs.map fun e => BitVec.ofNat 8 e.1)]

/-! ## Indices and weights -/

/-- The weight of position `i` (R219): 16,384 where there is no array. -/
def weightAt (s : State) (t wva i : Nat) : Except GStop Int :=
  if wva = 0 then .ok 16384
  else do
    let n ← gNum s t (wva + 2 * i) 2
    return signed 16 n

/-- The lowest Gleaner channel of the tenant to a module (R221). -/
def lookupChan (s : State) (t m : Nat) : Option Nat :=
  (s.chans.find? fun c => chanHeld s t c.1 && c.2.cfg.gln && !c.2.cfg.red && c.2.cfg.peer.toNat == m).map (·.1)

end Sys2Proof.Machine
end

