-- ==== Sys2Proof/Machine/BlockFetch.lean ====
section
/-! DEFINITION. The compressed block matrix and the block-fetch command (R171 to R187, R191). -/

namespace Sys2Proof.Machine
open Sys2Proof

/-! ## The body (R183) -/

def bfSpm (b : BitVec 512) : Nat := field b 0 64
def bfPmap (b : BitVec 512) : Nat := field b 64 64
def bfMap (b : BitVec 512) : Nat := field b 128 64
def bfDst (b : BitVec 512) : Nat := field b 192 64
def bfList (b : BitVec 512) : Nat := field b 256 64
def bfRow0 (b : BitVec 512) : Nat := field b 320 16
def bfRows (b : BitVec 512) : Nat := field b 336 16
def bfSlots (b : BitVec 512) : Nat := field b 352 16
def bfMode (b : BitVec 512) : Nat := field b 368 2
def bfReserved (b : BitVec 512) : Bool := field b 370 142 != 0
def bfAligned (b : BitVec 512) : Bool :=
  bfSpm b % 128 == 0 && bfPmap b % 8 == 0 && bfMap b % 8 == 0 && bfDst b % 128 == 0 && bfList b % 16 == 0

/-! ## The matrix (R173 to R175) -/

/-- The header of a compressed matrix. -/
structure Spm where
  va : Nat
  fmt : Nat
  br : Nat
  bc : Nat
  nnz : Nat
  data : Nat
  deriving DecidableEq, Repr

def Spm.words (m : Spm) : Nat := (m.bc + 63) / 64
def Spm.ptrVa (m : Spm) (i : Nat) : Nat := m.va + 64 + m.br * m.words * 8 + 4 * i

/-- Stored tile `k` (R174). -/
def Spm.tile (m : Spm) (k : Nat) : Nat := tileVa m.data (storedSize m.fmt) k

/-- Read and check the header (R173, R175). DESIGN CHOICE (log entry 160): bits of DATA_VA above the 48 of an address end the
command with BOUNDS, as a reserved bit does; R175 names no cause for them. -/
def spmHead (s : State) (t va : Nat) : Except GStop Spm := do
  let n ← gNum s t va 64
  let h : BitVec 512 := BitVec.ofNat 512 n
  let m : Spm := { va := va, fmt := field h 0 4, br := field h 8 16, bc := field h 24 16, nnz := field h 64 32
                   data := field h 128 64 }
  gAssert (m.data % Config.page2M == 0) .align
  gAssert (decide (1 ≤ m.fmt ∧ m.fmt ≤ 3) && m.br != 0 && m.bc != 0 && field h 4 4 == 0 && field h 40 24 == 0 &&
    field h 96 32 == 0 && field h 192 320 == 0 && decide (m.data < 2 ^ 48))
  return m

/-- The bitmap of block row `i`. -/
def rowBits (s : State) (t : Nat) (m : Spm) (i : Nat) : Except GStop Nat :=
  gNum s t (m.va + 64 + i * m.words * 8) (m.words * 8)

def rowPtr (s : State) (t : Nat) (m : Spm) (i : Nat) : Except GStop Nat := gNum s t (m.ptrVa i) 4

/-- One block row that the command touches: its bitmap and first stored tile, checked (R175). -/
def checkRow (s : State) (t : Nat) (m : Spm) (i : Nat) : Except GStop (Nat × Nat × Nat) := do
  let bits ← rowBits s t m i
  let a ← rowPtr s t m i
  let b ← rowPtr s t m (i + 1)
  gAssert (decide (bits < 2 ^ m.bc))
  gAssert (b == a + popCount m.bc bits)
  return (i, bits, a)

/-- The matrix and its rows in the range of the command (R175, R184). -/
def spmRows (s : State) (t : Nat) (b : BitVec 512) : Except GStop (Spm × List (Nat × Nat × Nat)) := do
  let m ← spmHead s t (bfSpm b)
  gAssert (bfRows b != 0 && bfSlots b != 0 && decide (bfMode b < 2) && decide (bfRow0 b + bfRows b ≤ m.br))
  let first ← rowPtr s t m 0
  let last ← rowPtr s t m m.br
  gAssert (first == 0 && last == m.nnz)
  let rows ← ((List.range (bfRows b)).map (bfRow0 b + ·)).mapM (checkRow s t m)
  return (m, rows)

/-- The stored blocks of the rows whose column passes a test, in row-major order: block row, block column and stored
tile. -/
def pickBlocks (bc : Nat) (rows : List (Nat × Nat × Nat)) (p : Nat → Bool) : List (Nat × Nat × Nat) :=
  rows.flatMap fun r =>
    ((List.range bc).filter fun j => r.2.1.testBit j && p j).map fun j => (r.1, j, r.2.2 + popCount j (r.2.1 % 2 ^ j))

/-- What PREDICT fetches (R185). -/
def predicted (s : State) (t : Nat) (b : BitVec 512) : Except GStop (Spm × List (Nat × Nat × Nat)) := do
  let r ← spmRows s t b
  let pm ← gNum s t (bfPmap b) (r.1.words * 8)
  let l := pickBlocks r.1.bc r.2 fun j => pm.testBit j
  gAssert (decide (l.length ≤ bfSlots b))
  return (r.1, l)

/-- What RESOLVE finds: N_PRED, the missing and the extra blocks (R186). A list that is not mapped is BOUNDS (R184). -/
def resolved (s : State) (t : Nat) (b : BitVec 512) :
    Except GStop (Spm × Nat × List (Nat × Nat × Nat) × List (Nat × Nat × Nat)) := do
  let r ← spmRows s t b
  let pm ← gNum s t (bfPmap b) (r.1.words * 8)
  let am ← gNum s t (bfMap b) (r.1.words * 8)
  let h := ofBytes (← gReadOr s t .bounds (bfList b) 16)
  let n := h % 2 ^ 32
  gAssert (h / 2 ^ 32 % 2 ^ 64 == 0)
  let miss := pickBlocks r.1.bc r.2 fun j => am.testBit j && !pm.testBit j
  let extra := pickBlocks r.1.bc r.2 fun j => pm.testBit j && !am.testBit j
  gAssert (decide (n + miss.length ≤ bfSlots b))
  return (r.1, n, miss, extra)

/-- The body checks (R184). -/
def bfCheck (s : State) (t : Nat) (b : BitVec 512) : Except GStop Unit := do
  let m ← if bfMode b = 1 then (do let r ← resolved s t b; return r.1) else (do let r ← predicted s t b; return r.1)
  gOut s t (bfDst b) (bfSlots b * storedSize m.fmt)
  gOut s t (bfList b) (16 + 8 * bfSlots b)

/-! ## Copying (R185 to R187) -/

/-- A list entry. -/
def listWord (i j slot : Nat) (madeUp drop : Bool) : List Byte :=
  toBytes 8 (i + 2 ^ 16 * j + 2 ^ 32 * slot + 2 ^ 48 * b2n madeUp + 2 ^ 49 * b2n drop)

def entryVa (b : BitVec 512) (slot : Nat) : Nat := bfList b + 16 + 8 * slot

/-- The blocks to copy with their slots, the slots rising from `from_`. -/
def slotted (from_ : Nat) (l : List (Nat × Nat × Nat)) : List (Nat × Nat × Nat × Nat) :=
  l.zipIdx.map fun e => (from_ + e.2, e.1)

/-- The pieces of one copied block: the tile in its slot, and its entry. -/
def copyPieces (s : State) (t : Nat) (b : BitVec 512) (m : Spm) (madeUp : Bool) (e : Nat × Nat × Nat × Nat) :
    Except GStop (List (Nat × List Byte)) := do
  let d ← gRead s t (m.tile e.2.2.2) (storedSize m.fmt)
  return [(bfDst b + e.1 * storedSize m.fmt, d), (entryVa b e.1, listWord e.2.1 e.2.2.1 e.1 madeUp false)]

/-- Every piece that can be read, up to the first stop. -/
def upToStop (l : List (Except GStop (List (Nat × List Byte)))) : List (Nat × List Byte) × Option GStop :=
  match l with
  | [] => ([], none)
  | .error e :: _ => ([], some e)
  | .ok p :: t => let r := upToStop t; (p ++ r.1, r.2)

/-- Copy blocks in order, then the other pieces, the list header last (R185, R186). An error leaves what has been
copied, without the list header (R187). -/
def fetchBlocks (f : Nat) (g : GCmd) (err : Option BadAccess) (copies : List (Except GStop (List (Nat × List Byte))))
    (others : List (Nat × List Byte)) (head : Nat × List Byte) (adds : List (Nat × Nat)) (s : State) : State :=
  let r := upToStop copies
  if !outsReady s g.tenant (head :: r.1 ++ others) then s
  else match r.2, err with
  | some .wait, _ => s
  | some (.need _), _ => s
  | some (.bad c va), _ =>
    match writeTurn g.tenant r.1 s with
    | (s1, some e) => failCmd s1 f g e.1 e.2
    | (s1, none) => failCmd s1 f g c va
  | none, some e => failAccess (someOuts s g.tenant r.1) f g e
  | none, none => finishOuts s f g (r.1 ++ others) head [0, 0, 0, 0, 0] adds

/-- A PREDICT runs. -/
def runPredict (fold : Nat) (g : GCmd) (err : Option BadAccess) (s : State) : State :=
  let b := gBody g
  match predicted s g.tenant b with
  | .error (.bad c va) => failCmd s fold g c va
  | .error _ => s
  | .ok (m, l) =>
    fetchBlocks fold g err ((slotted 0 l).map (copyPieces s g.tenant b m false)) []
      (bfList b, toBytes 16 l.length) [(0, l.length), (5, 1)] s

/-- PREDICT copies the predicted stored blocks to slots 0 to n − 1 (R185). -/
def execBlockFetchPredict (fold id : Nat) (err : Option BadAccess) (soft : List SoftError) (s : State) :
    Host.Outcome State Fault Refusal :=
  match runningCmd s fold id 1 with
  | none => .next s
  | some g => if bfMode (gBody g) != 0 then .next s else .next (noteSoft g.tenant soft (runPredict fold g err s))

/-- The entries of extra blocks with DROP set: the stored entry keeps its other bits (R186). -/
def dropPieces (s : State) (t : Nat) (b : BitVec 512) (n : Nat) (extra : List (Nat × Nat × Nat)) :
    Except GStop (List (Nat × List Byte)) := do
  let es ← gNums s t (entryVa b 0) 8 n
  return (es.zipIdx.filter fun e => extra.any fun x => x.1 == e.1 % 2 ^ 16 && x.2.1 == e.1 / 2 ^ 16 % 2 ^ 16).map fun e =>
    (entryVa b e.2, toBytes 8 (setField (BitVec.ofNat 64 e.1) 49 1 1).toNat)

/-- A RESOLVE runs. -/
def runResolve (fold : Nat) (g : GCmd) (err : Option BadAccess) (s : State) : State :=
  let b := gBody g
  let plan := (do
    let r ← resolved s g.tenant b
    let d ← dropPieces s g.tenant b r.2.1 r.2.2.2
    return (r, d))
  match plan with
  | .error (.bad c va) => failCmd s fold g c va
  | .error _ => s
  | .ok ((m, n, miss, extra), drops) =>
    fetchBlocks fold g err ((slotted n miss).map (copyPieces s g.tenant b m true)) drops
      (bfList b, toBytes 16 (n + 2 ^ 32 * miss.length + 2 ^ 64 * extra.length))
      [(1, n - extra.length), (2, miss.length), (3, extra.length), (4, if miss.isEmpty then 0 else 1), (5, 1)] s

/-- RESOLVE fetches the missing blocks and marks the extra ones (R186). -/
def execBlockFetchResolve (fold id : Nat) (err : Option BadAccess) (soft : List SoftError) (s : State) :
    Host.Outcome State Fault Refusal :=
  match runningCmd s fold id 1 with
  | none => .next s
  | some g => if bfMode (gBody g) != 1 then .next s else .next (noteSoft g.tenant soft (runResolve fold g err s))

end Sys2Proof.Machine
end

