-- ==== Sys2Proof/Machine/Embed.lean ====
section
/-! DEFINITION. Embedding tables: LOOKUP, SCATTER, the owner's side of both, versions, and the table commands (R217 to
R233). -/

namespace Sys2Proof.Machine
open Sys2Proof

def tableOf (s : State) (t n : Nat) : Option Table := tabFind (tenantOf s t).tables n
def setTable (s : State) (t n : Nat) (x : Table) : State :=
  setTenant s t { tenantOf s t with tables := put (tenantOf s t).tables n x }

/-! ## Shards and versions (R217, R218, R225) -/

/-- The shard of a row: its number, first row, module, Fold and base. -/
def shardOf (x : Table) (r : Nat) : Nat × Nat × Nat × Nat × Nat :=
  ((x.shards.zipIdx.filter fun e => decide (e.1.1 ≤ r)).getLast?.map fun e => (e.2, e.1)).getD (0, 0, 0, 0, 0)

def versionOf (x : Table) (v : Nat) : Option TableVersion := x.versions.find? fun e => e.version == v

/-- Elements of a row. -/
def tableDim (x : Table) : Nat := x.np * rowCount x.fmt

/-- The panels of a row of an own shard under a version; BOUNDS where this module does not hold the version (R226). -/
def ownRow (s : State) (t : Nat) (x : Table) (v r : Nat) : Except GStop (List (List Byte × List Byte)) :=
  let h := shardOf x r
  match (versionOf x v).bind fun e => tabFind e.bases h.1 with
  | none => .error (.bad .bounds 0)
  | some base => rowPanels s t base x.fmt x.np (r - h.2.1)

/-- The panels that a row's bytes spell: 64 data bytes, then the scale bytes, per panel. -/
def splitPanels (x : Table) (bs : List Byte) : List (List Byte × List Byte) :=
  let n := 64 + blocksPerRow x.fmt 16
  (List.range x.np).map fun p => let b := bs.drop (n * p); (b.take 64, (b.drop 64).take (blocksPerRow x.fmt 16))

/-! ## LOOKUP: body and checks (R219) -/

def lkIdx (b : BitVec 512) : Nat := field b 0 64
def lkOff (b : BitVec 512) : Nat := field b 64 64
def lkWgt (b : BitVec 512) : Nat := field b 128 64
def lkOut (b : BitVec 512) : Nat := field b 192 64
def lkPath (b : BitVec 512) : Nat := field b 256 64
def lkPathLen (b : BitVec 512) : Nat := field b 320 32
def lkTable (b : BitVec 512) : Nat := field b 352 12
def lkOfmt (b : BitVec 512) : Nat := field b 364 4
def lkSum (b : BitVec 512) : Bool := b.getLsbD 368
def lkBags (b : BitVec 512) : Nat := field b 384 16
def lkNidx (b : BitVec 512) : Nat := field b 400 24
def lkReserved (b : BitVec 512) : Bool :=
  field b 369 15 != 0 || field b 424 88 != 0 ||
  (if lkSum b then lkNidx b != 0 else lkOff b != 0 || lkBags b != 0)
def lkAligned (b : BitVec 512) : Bool :=
  lkIdx b % 8 == 0 && lkOff b % 4 == 0 && lkWgt b % 2 == 0 && lkOut b % Config.page2M == 0 && lkPath b % 64 == 0

/-- Output rows. -/
def lkRows (b : BitVec 512) : Nat := if lkSum b then lkBags b else lkNidx b

/-- The bag offsets; in NONE mode each position is its own row. -/
def lkOffsets (s : State) (t : Nat) (b : BitVec 512) : Except GStop (List Nat) :=
  if lkSum b then gNums s t (lkOff b) 4 (lkBags b + 1) else .ok (List.range (lkNidx b + 1))

def risingList : List Nat → Bool
  | a :: b :: t => decide (a ≤ b) && risingList (b :: t)
  | _ => true

/-- OFMT meets its rules (R219). -/
def lkFormat (x : Table) (b : BitVec 512) : Bool :=
  let o := lkOfmt b
  (if lkSum b then decide (1 ≤ o ∧ o ≤ 3)
   else o == x.fmt || (o != 4 && dmaKind x.fmt o == some 2)) &&
  tableDim x % rowCount o == 0

def lkPanels (x : Table) (b : BitVec 512) : Nat := tableDim x / rowCount (lkOfmt b)

/-- The padding index (R220). -/
def padIndex : Nat := 0xFFFFFFFFFFFFFFFF

/-- The class of an entry: none for padding and invalid ones. -/
def validIndex (nrows x : Nat) : Bool := x != padIndex && decide (x < nrows)

/-- The modules of the rows a LOOKUP will ask for. -/
def lkModules (s : State) (x : Table) (nrows : Nat) (idx : List Nat) : List Nat :=
  (((idx.filter (validIndex nrows)).map fun r => (shardOf x r).2.2.1).eraseDups).filter fun m => m != s.fabric.modid && inFabric s m

/-- The body checks of a LOOKUP (R214, R219): a lookup channel leads to every module that holds one of its rows, which is tested as
soon as its indices have been read (R214 step 3, R221; log entry 161), and the regions it reads are mapped whole. -/
def lkCheck (s : State) (t : Nat) (x : Table) (b : BitVec 512) : Except GStop Unit := do
  gAssert (if lkSum b then lkBags b != 0 else lkNidx b != 0)
  let offs ← lkOffsets s t b
  let n := offs.getLast?.getD 0
  gAssert (offs.head? == some 0 && risingList offs && decide (n ≤ 16777215))
  gIn s t (lkIdx b) (8 * n)
  let idx ← gNums s t (lkIdx b) 8 n
  gAssert ((lkModules s x x.nrows idx).all fun m => (lookupChan s t m).isSome) .permission
  gAssert (lkFormat x b)
  gAssert (lkPath b == 0 || decide (68 + 20 * n ≤ lkPathLen b))
  gOut s t (lkOut b) (regionBytes (lkOut b) (lkOfmt b) (lkPanels x b) (lkRows b))
  if lkPath b = 0 then .ok () else gOut s t (lkPath b) (68 + 20 * n)
  if lkSum b && lkWgt b != 0 then gIn s t (lkWgt b) (2 * n) else .ok ()

/-! ## LOOKUP: what it computes (R220 to R224) -/

/-- A block-sparse zero row. -/
def zeroBlocks (fmt np : Nat) : List (Nat × List Int) :=
  List.replicate (np * blocksPerRow fmt 16) (0, List.replicate (blockSize fmt) 0)

/-- Widen the blocks of a row (R58, R222); an OVF block is written with elements of zero (R37). -/
def widenRow (src dst : Nat) (bs : List (Nat × List Int)) : List (Nat × List Int) :=
  if src = dst then bs.map fun b => (b.1, if b.1 = 255 then b.2.map fun _ => 0 else b.2) else bs.flatMap fun b => widenBlock src dst b.1 b.2

/-- The source blocks that cover the elements from `lo` on, `n` of them: scale byte and the elements in the range. -/
def coverBlocks (fmt lo n : Nat) (row : List (Nat × List Int)) : List (Nat × List Int) :=
  let bs := blockSize fmt
  (List.range ((n + bs - 1) / bs)).map fun k =>
    let e := row.getD ((lo + k * bs) / bs) (0, [])
    (e.1, (e.2.drop ((lo + k * bs) % bs)).take (min bs n))

/-- One output block of a bag (R223): weights with the source blocks that cover it. -/
def poolBlock (fmt ofmt : Nat) (terms : List (Int × List (Nat × List Int))) : Nat × List Int :=
  let n := blockSize ofmt
  let ex := fun (e : Nat) => (e : Int) - 127 - fracBits fmt - 14
  if terms.isEmpty then (0, List.replicate n 0)
  else if terms.any fun w => w.2.any fun c => c.1 == 255 then (255, List.replicate n 0)
  else
    let ps := terms.flatMap fun w => w.2.map fun c => ex c.1
    let q := ps.foldl max (ps.headD 0) - 24 + headroom terms.length
    let cols := terms.map fun w => w.2.flatMap fun c => c.2.map fun x => shiftRound (w.1 * x) (ex c.1 - q)
    let xs := (List.range n).map fun j => cols.foldl (fun a c => a + c.getD j 0) 0
    let e := blockScale ofmt q xs
    (e, blockElems ofmt 0 e q xs (List.replicate n 0))

/-- The blocks of a bag's output row (R223). -/
def poolRow (x : Table) (ofmt : Nat) (terms : List (Int × List (Nat × List Int))) : List (Nat × List Int) :=
  let n := blockSize ofmt
  (List.range (tableDim x / n)).map fun k =>
    poolBlock x.fmt ofmt (terms.map fun w => (w.1, coverBlocks x.fmt (k * n) n w.2))

/-- The positions of each unique row, in ascending row order (R224). -/
def slotsOf (valid : List (Nat × Nat)) : List (Nat × List Nat) :=
  let rows := (valid.map (·.2)).eraseDups.mergeSort
  rows.map fun r => (r, (valid.filter fun e => e.2 == r).map (·.1))

/-- The path record without its header, and the header (R224). -/
def pathRecord (b : BitVec 512) (version nent : Nat) (slots : List (Nat × List Nat)) : List Byte × List Byte :=
  let nv := slots.foldl (fun n e => n + e.2.length) 0
  let head := slots.length + 2 ^ 32 * nv + 2 ^ 64 * nent + 2 ^ 96 * version + 2 ^ 112 * lkTable b + 2 ^ 124 * b2n (lkSum b)
  let map := (List.range nent).map fun i => (slots.findIdx? fun e => e.2.contains i).getD 0xFFFFFFFF
  let ptr := (List.range (slots.length + 1)).map fun u => (slots.take u).foldl (fun n e => n + e.2.length) 0
  (slots.flatMap (fun e => toBytes 8 e.1) ++ map.flatMap (toBytes 4 ·) ++ ptr.flatMap (toBytes 4 ·) ++
    (slots.flatMap (·.2)).flatMap (toBytes 4 ·), toBytes 64 head)

/-- The unique rows with their panels: own rows are read, remote ones come with the event. A row that has not come is PERMISSION where
its channel has gone, and MEM_ERROR where its module has left (R214, R216). -/
def lkFetch (s : State) (t : Nat) (x : Table) (v : Nat) (remote : List (Nat × List Byte)) (r : Nat) :
    Except GStop (Nat × List (Nat × List Int)) :=
  let h := shardOf x r
  if h.2.2.1 = s.fabric.modid then do
    let p ← ownRow s t x v r
    return (r, panelsBlocks x.fmt p)
  else match remote.find? fun e => e.1 == r with
    | some e => .ok (r, panelsBlocks x.fmt (splitPanels x e.2))
    | none =>
      if !inFabric s h.2.2.1 then .error (.bad .memError 0)
      else if (lookupChan s t h.2.2.1).isNone then .error (.bad .permission 0)
      else .error (.need [(h.2.2.1, r)])

/-- What a LOOKUP has to do: its index entries, offsets and unique rows with their positions. -/
structure LkPlan where
  idx : List Nat
  offs : List Nat
  valid : List (Nat × Nat)
  slots : List (Nat × List Nat)
  deriving DecidableEq, Repr

def lkPlan (s : State) (t : Nat) (b : BitVec 512) (nrows : Nat) : Except GStop LkPlan := do
  let offs ← lkOffsets s t b
  let idx ← gNums s t (lkIdx b) 8 (offs.getLast?.getD 0)
  let valid := (idx.zipIdx.filter fun e => validIndex nrows e.1).map fun e => (e.2, e.1)
  return { idx := idx, offs := offs, valid := valid, slots := slotsOf valid }

/-- The blocks of output row `k` (R222, R223). -/
def lkRow (s : State) (t : Nat) (x : Table) (b : BitVec 512) (p : LkPlan)
    (rows : List (Except GStop (Nat × List (Nat × List Int)))) (k : Nat) : Except GStop (List (Nat × List Int)) := do
  let lo := p.offs.getD k 0
  let hi := p.offs.getD (k + 1) 0
  let here := p.valid.filter fun e => decide (lo ≤ e.1 ∧ e.1 < hi)
  let terms ← here.mapM fun e => do
    let r ← rows.getD (p.slots.findIdx fun u => u.1 == e.2) (.error .wait)
    let w ← if lkSum b then weightAt s t (lkWgt b) e.1 else .ok 0
    return (w, r.2)
  if lkSum b then return poolRow x (lkOfmt b) terms
  else return match terms.head? with
    | some w => widenRow x.fmt (lkOfmt b) w.2
    | none => zeroBlocks (lkOfmt b) (lkPanels x b)

/-- The rows of other modules that are in the fabric: module and row. -/
def lkFar (s : State) (x : Table) (p : LkPlan) : List (Nat × Nat) :=
  (p.slots.map fun u => ((shardOf x u.1).2.2.1, u.1)).filter fun e => e.1 != s.fabric.modid && inFabric s e.1

/-- The remote rows without an answer. -/
def lkNeeds (rows : List (Except GStop (Nat × List (Nat × List Int)))) : List (Nat × Nat) :=
  rows.flatMap fun r => match r with | .error (.need l) => l | _ => []

/-- Bytes of the 256 KiB Fold buffer that a fetched row takes. DESIGN CHOICE (log entry 111): the 128 bytes that a panel moves
(R218). -/
def rowRoom (x : Table) : Nat := 128 * x.np

/-- The valid rows of each output row: a bag, or a position in NONE mode. -/
def bagRows (b : BitVec 512) (p : LkPlan) : List (List Nat) :=
  (List.range (lkRows b)).map fun k =>
    ((p.valid.filter fun e => decide (p.offs.getD k 0 ≤ e.1 ∧ e.1 < p.offs.getD (k + 1) 0)).map (·.2)).eraseDups

/-- The unique rows of each run (R221): bags are taken in order as long as their rows fit the buffer; a bag that does not fit by
itself is a run of its own (log entry 111). -/
def lookupRuns (room size : Nat) (bags : List (List Nat)) : List (List Nat) :=
  let r := bags.foldl (fun (a : List (List Nat) × List Nat) bag =>
    let both := (a.2 ++ bag).eraseDups
    if a.2.isEmpty || decide (both.length * size ≤ room) then (a.1, both) else (a.1 ++ [a.2], bag)) ([], [])
  r.1 ++ [r.2]

def runRows (x : Table) (b : BitVec 512) (p : LkPlan) : List (List Nat) := lookupRuns 262144 (rowRoom x) (bagRows b p)

/-- The requests still to make: those of the first run that lacks one, or an answer; a row of two runs is asked for in both
(R221). `far` are the remote rows, `open_` those without an answer. -/
def runNeeds (asked : List (Nat × Nat)) (far open_ : List (Nat × Nat)) (runs : List (List Nat)) : Option (List (Nat × Nat × Nat)) :=
  runs.zipIdx.findSome? fun r =>
    let mine := far.filter fun e => r.1.contains e.2
    let new := mine.filter fun e => !asked.contains (r.2, e.2)
    if new.isEmpty && !(mine.any fun e => open_.contains e) then none else some (new.map fun e => (r.2, e))

/-- Ask the owners for rows, on VC1 (R221): run, module and row. -/
def askRows (s : State) (f : Nat) (g : GCmd) (tbl v : Nat) (needs : List (Nat × Nat × Nat)) : State :=
  let s1 := needs.foldl (fun s e => match lookupChan s g.tenant e.2.1 with
    | some c => chanFrame s c 6 1 (Config.glnRecord [0, tbl, v, e.2.2])
    | none => s) s
  putCmd s1 f { g with asked := g.asked ++ needs.map fun e => (e.1, e.2.2) }

/-- Rows served to lookups, per shard of the table (R233). -/
def serveRows (s : State) (t n : Nat) (rows : List Nat) : State :=
  match tableOf s t n with
  | none => s
  | some x => setTable s t n { x with served := rows.foldl (fun m r => bump m (shardOf x r).1 1) x.served }

/-- The outcome of the output rows: the pieces that could be computed, and the first stop. -/
def lkOuts (x : Table) (b : BitVec 512) (rows : List (Nat × Except GStop (List (Nat × List Int)))) :
    List (Nat × List Byte) × Option GStop :=
  (rows.flatMap fun r => match r.2 with
    | .ok bs => rowPieces (lkOut b) (lkOfmt b) (lkPanels x b) r.1 bs
    | .error _ => [],
   rows.findSome? fun r => match r.2 with | .error e => some e | .ok _ => none)

/-- A LOOKUP whose rows are all here: it writes its output rows and its path record (R222 to R224). DESIGN CHOICE (log entry 162):
rows of its own module's shards that it reads itself count as served, once for each fetch (R233). -/
def finishLookup (f : Nat) (g : GCmd) (x : Table) (b : BitVec 512) (v : Nat) (p : LkPlan) (err : Option BadAccess)
    (got : List (Except GStop (Nat × List (Nat × List Int)))) (s : State) : State :=
  let rows := (List.range (lkRows b)).map fun k => (k, lkRow s g.tenant x b p got k)
  let r := lkOuts x b rows
  let path := pathRecord b v p.idx.length p.slots
  let outs := r.1 ++ (if lkPath b = 0 then [] else [(lkPath b + 64, path.1)])
  let last := if lkPath b = 0 then outs.getLastD (lkOut b, []) else (lkPath b, path.2)
  if !outsReady s g.tenant (last :: outs) then s
  else match r.2, err with
  | some .wait, _ => s
  | some (.need _), _ => s
  | some (.bad c va), _ => failCmd (someOuts s g.tenant r.1) f g c va
  | none, some e => failAccess (someOuts s g.tenant outs) f g e
  | none, none =>
    let ovf := rows.foldl (fun n r => match r.2 with
      | .ok bs => n + (bs.filter fun c => c.1 == 255).length
      | .error _ => n) 0
    let pad := (p.idx.filter (· == padIndex)).length
    let fetched := (runRows x b p).flatten
    let own := fetched.filter fun r => (shardOf x r).2.2.1 == s.fabric.modid
    finishOuts (serveRows s g.tenant (lkTable b) own) f g outs last
      [p.valid.length, p.idx.length - p.valid.length - pad, pad, p.slots.length, ovf]
      [(5, 1), (6, p.valid.length), (7, p.idx.length - p.valid.length - pad), (8, pad), (9, fetched.length),
       (10, fetched.length - own.length), (11, ovf)]

/-- A LOOKUP runs: it asks for remote rows it has no answer for, else it completes. While requests are open, `err` is the failure of
one of them: of the output rows whose rows are here any may have been written (log entry 41). -/
def runLookup (fold : Nat) (g : GCmd) (remote : List (Nat × List Byte)) (err : Option BadAccess) (s : State) : State :=
  let b := gBody g
  let v := g.version.toNat
  match tableOf s g.tenant (lkTable b) with
  | none => failCmd s fold g .permission 0
  | some x => match lkPlan s g.tenant b ((versionOf x v).map (·.nrows) |>.getD x.nrows) with
    | .error (.bad c va) => failCmd s fold g c va
    | .error _ => s
    | .ok p =>
      let got := p.slots.map fun u => lkFetch s g.tenant x v remote u.1
      match runNeeds g.asked (lkFar s x p) (lkNeeds got) (runRows x b p), err with
      | some _, some e =>
        let here := lkOuts x b ((List.range (lkRows b)).map fun k => (k, lkRow s g.tenant x b p got k))
        failCmd (someOuts s g.tenant here.1) fold g e.1 e.2.toNat
      | some needs, none => askRows s fold g (lkTable b) v needs
      | none, _ => finishLookup fold g x b v p err got s

/-- A LOOKUP runs: `remote` holds the rows that have come back, `err` an error that ends one of its accesses or requests (R216,
R220, R221). -/
def execLookup (fold id : Nat) (remote : List (Nat × List Byte)) (err : Option BadAccess) (soft : List SoftError) (s : State) :
    Host.Outcome State Fault Refusal :=
  match runningCmd s fold id 2 with
  | none => .next s
  | some g => .next (noteSoft g.tenant soft (runLookup fold g remote err s))

/-- An owner's Gleaner answers a row request with the row of the version it names, on VC2 (R221, R226). -/
def execLookupRowRequest (fold tenant table version row chan : Nat) (s : State) : Host.Outcome State Fault Refusal :=
  if !chanHeld s tenant chan || !(chanOf s chan).cfg.gln then .next s
  else
    let answer := fun (s : State) (l : List Nat) => chanFrame s chan 6 2 (Config.glnRecord l)
    match tableOf s tenant table with
    | none => .next (answer s [1, row, causeCode .bounds])
    | some x =>
      let h := shardOf x row
      if h.2.2.1 ≠ s.fabric.modid || h.2.2.2.1 ≠ fold then .next (answer s [1, row, causeCode .bounds])
      else match ownRow s tenant x version row with
      | .error (.bad c _) => .next (answer s [1, row, causeCode c])
      | .error _ => .next s
      | .ok ps => .next (answer (serveRows s tenant table [row])
          ([1, row, 0] ++ (ps.flatMap fun p => p.1 ++ p.2).map (·.toNat)))

/-! ## SCATTER (R228 to R230) -/

def scPath (b : BitVec 512) : Nat := field b 0 64
def scGrad (b : BitVec 512) : Nat := field b 64 64
def scOff (b : BitVec 512) : Nat := field b 128 64
def scWgt (b : BitVec 512) : Nat := field b 192 64
def scTable (b : BitVec 512) : Nat := field b 256 12
def scGfmt (b : BitVec 512) : Nat := field b 268 4
def scReserved (b : BitVec 512) : Bool := field b 272 240 != 0
def scAligned (b : BitVec 512) : Bool :=
  scPath b % 64 == 0 && scGrad b % Config.page2M == 0 && scOff b % 4 == 0 && scWgt b % 2 == 0

/-- The path header (R224). -/
structure PathHead where
  nunq : Nat
  nvalid : Nat
  nent : Nat
  table : Nat
  sum : Bool
  deriving DecidableEq, Repr

def pathHead (s : State) (t va : Nat) : Except GStop PathHead := do
  let n ← gNum s t va 64
  return { nunq := n % 2 ^ 32, nvalid := n / 2 ^ 32 % 2 ^ 32, nent := n / 2 ^ 64 % 2 ^ 32, table := n / 2 ^ 112 % 2 ^ 12
           sum := n / 2 ^ 124 % 2 == 1 }

def pathBytes (h : PathHead) : Nat := 68 + 12 * h.nunq + 4 * h.nent + 4 * h.nvalid
def sptrVa (va : Nat) (h : PathHead) : Nat := va + 64 + 8 * h.nunq + 4 * h.nent
def posVa (va : Nat) (h : PathHead) : Nat := sptrVa va h + 4 * (h.nunq + 1)

/-- The bag offsets up to the entry that reaches the index count, latest first; a LOOKUP has at most 65,535 bags (R219, R229). -/
def scOffsets (s : State) (t va nent : Nat) : Nat → List Nat → Except GStop (List Nat)
  | 0, l => .ok l
  | n + 1, l =>
    if nent ≤ l.headD 0 then .ok l
    else do
      let o ← gNum s t (va + 4 * l.length) 4
      scOffsets s t va nent n (o :: l)

/-- The offsets of the LOOKUP of a path record. -/
def pathOffsets (s : State) (t : Nat) (b : BitVec 512) (h : PathHead) : Except GStop (List Nat) :=
  if h.sum then scOffsets s t (scOff b) h.nent 65535 [0] else .ok []

/-- The output row whose gradient position `i` draws on: its bag, or itself (R229). -/
def bagOf (offs : List Nat) (sum : Bool) (i : Nat) : Nat :=
  if sum then (offs.filter fun o => decide (o ≤ i)).length - 1 else i

/-- The body checks of a SCATTER (R228), and the regions it reads mapped whole (R214). DESIGN CHOICE (log entry 163): a GFMT of
which D is not a whole number of panels ends it with BOUNDS, as OFMT does a LOOKUP. -/
def scCheck (s : State) (t : Nat) (x : Table) (b : BitVec 512) : Except GStop Unit := do
  let h ← pathHead s t (scPath b)
  gAssert (decide (h.nunq ≤ h.nvalid ∧ h.nvalid ≤ h.nent ∧ h.nent ≤ 16777215) && h.table == scTable b && x.train)
  gAssert (mappedWhole s t (scPath b, pathBytes h))
  gAssert (h.sum || scOff b == 0)
  gAssert (decide (1 ≤ scGfmt b ∧ scGfmt b ≤ 3) && tableDim x % rowCount (scGfmt b) == 0)
  let offs ← pathOffsets s t b h
  let rows := if h.nent = 0 then 0 else bagOf offs h.sum (h.nent - 1) + 1
  if rows = 0 then .ok () else gIn s t (scGrad b) (regionBytes (scGrad b) (scGfmt b) (tableDim x / rowCount (scGfmt b)) rows)
  if scWgt b = 0 then .ok () else gIn s t (scWgt b) (2 * h.nent)

/-- One term of a slot: the aligned elements of a 32-element block, and whether its gradient block is OVF (R229). -/
def scTerm (gfmt : Nat) (a : Int) (w : Int) (blocks : List (Nat × List Int)) (k : Nat) : List Int × Bool :=
  let cs := coverBlocks gfmt (k * 32) 32 blocks
  if cs.any fun c => c.1 == 255 then ([], true)
  else (cs.flatMap fun c => c.2.map fun x => shiftRound (w * x) ((c.1 : Int) - 127 - fracBits gfmt - 14 - a), false)

/-- A combined block: its exact sums, and whether it is poison before the headroom check (R229, R230). -/
def scBlock (terms : List (List Int × Bool)) : List Int × Bool :=
  let big := fun (x : Int) => decide (2 ^ 31 ≤ x.natAbs)
  ((List.range 32).map fun j => terms.foldl (fun n t => if big (t.1.getD j 0) then n else n + t.1.getD j 0) 0,
   terms.any fun t => t.2 || t.1.any big)

/-- The blocks of slot `u`: row, block number, elements and poison. -/
def scSlot (s : State) (t : Nat) (x : Table) (b : BitVec 512) (h : PathHead) (a : Int) (offs : List Nat) (u : Nat) :
    Except GStop (Nat × List (List Int × Bool)) := do
  let row ← gNum s t (scPath b + 64 + 8 * u) 8
  let lo ← gNum s t (sptrVa (scPath b) h + 4 * u) 4
  let hi ← gNum s t (sptrVa (scPath b) h + 4 * (u + 1)) 4
  gAssert (decide (lo ≤ hi ∧ hi ≤ h.nvalid)) .bounds (sptrVa (scPath b) h + 4 * u)
  let pos ← gNums s t (posVa (scPath b) h + 4 * lo) 4 (hi - lo)
  let np := tableDim x / rowCount (scGfmt b)
  let terms ← pos.mapM fun i => do
    gAssert (decide (i < h.nent))
    let w ← weightAt s t (scWgt b) i
    let p ← rowPanels s t (scGrad b) (scGfmt b) np (bagOf offs h.sum i)
    return (w, panelsBlocks (scGfmt b) p)
  return (row % 2 ^ 40, (List.range (tableDim x / 32)).map fun k =>
    scBlock (terms.map fun w => scTerm (scGfmt b) a w.1 w.2 k))

/-- Inject the blocks of slots into the scatter channel (R230): the blocks sent, and how they went. A block is poison where a term
was, where it fails the headroom check (R55), or where the channel's exponent is no longer that of the command (R56). DESIGN CHOICE
(log entry 201): the frame carries its number alone, and the owner's row names the row and the block. -/
def injectSlots (x : Table) (a : Int) (slots : List (Nat × List (List Int × Bool))) (s : State) :
    State × List (Nat × Nat × List Int × Bool) :=
  let cfg := (chanOf s x.schan).cfg
  let sent := fun (e : List Int × Bool) =>
    let p := e.2 || headroomFails (cfg.fanin.toNat + 1) e.1 || a != signed 10 cfg.aexp.toNat
    ((if p then List.replicate 32 (0 : Int) else e.1), p)
  (slots.foldl (fun s u => u.2.foldl (fun s e => injectBlock s x.schan (some a) e.1 e.2) s) s,
   slots.flatMap fun u => u.2.zipIdx.map fun e => (u.1, e.2, sent e.1))

/-- What a SCATTER has read: the path header, the bag offsets, and each slot up to the first stop. -/
def scPlan (s : State) (t : Nat) (x : Table) (b : BitVec 512) (a : Int) :
    Except GStop (List (Except GStop (Nat × List (List Int × Bool))) × Nat) := do
  let h ← pathHead s t (scPath b)
  let offs ← pathOffsets s t b h
  return ((List.range h.nunq).map (scSlot s t x b h a offs), h.nvalid - h.nunq)

def okSlots {α : Type} : List (Except GStop α) → List α × Option GStop
  | [] => ([], none)
  | .error e :: _ => ([], some e)
  | .ok a :: t => let r := okSlots t; (a :: r.1, r.2)

/-- A failed SCATTER has injected some of its blocks, as a free value says (R216, log entry 41). -/
def someSlots (x : Table) (a : Int) (slots : List (Nat × List (List Int × Bool))) (s : State) : State :=
  let v := freeValue s
  (injectSlots x a (slots.take (v.1.toNat % (slots.length + 1))) v.2).1

/-- A SCATTER runs. -/
def runScatter (fold : Nat) (g : GCmd) (err : Option BadAccess) (s : State) : State :=
  let b := gBody g
  match tableOf s g.tenant (scTable b) with
  | none => failCmd s fold g .permission 0
  | some x => match scPlan s g.tenant x b g.aexp with
    | .error (.bad c va) => failCmd s fold g c va
    | .error _ => s
    | .ok (slots, merged) =>
      let r := okSlots slots
      match r.2, err with
      | some (.bad c va), _ => failCmd (someSlots x g.aexp r.1 s) fold g c va
      | some _, _ => s
      | none, some e => failAccess (someSlots x g.aexp r.1 s) fold g e
      | none, none =>
        let i := injectSlots x g.aexp r.1 s
        let poisoned := (i.2.filter fun e => e.2.2.2).length
        putCmd i.1 fold { g with
          status := some none, counts := [i.2.length, poisoned, merged, 0, 0]
          adds := [(5, 1), (12, i.2.length), (13, poisoned), (14, merged)]
          blocks := i.2.map fun e => (scTable b, e.1, e.2.1, e.2.2.1, e.2.2.2) }

/-- A SCATTER combines the gradients of each slot and injects one block per destination block (R229, R230). -/
def execScatter (fold id : Nat) (err : Option BadAccess) (soft : List SoftError) (s : State) : Host.Outcome State Fault Refusal :=
  match runningCmd s fold id 3 with
  | none => .next s
  | some g => .next (noteSoft g.tenant soft (runScatter fold g err s))

/-- The owner of a row is this module. -/
def ownsRow (s : State) (t tbl row : Nat) : Bool :=
  match tableOf s t tbl with | some x => (shardOf x row).2.2.1 == s.fabric.modid | none => false

/-- A SCATTER of a tenant waits for the acknowledgement of a block. -/
def awaitsBlock (t tbl row blk : Nat) (g : GCmd) : Bool :=
  g.tenant == t && g.blocks.any fun e => e.1 == tbl && e.2.1 == row && e.2.2.1 == blk

/-- The command without the block it waited for. -/
def dropBlock (tbl row blk : Nat) (g : GCmd) : GCmd :=
  { g with blocks := g.blocks.filter fun e => !(e.1 == tbl && e.2.1 == row && e.2.2.1 == blk) }

/-- A block has been added: of the SCATTERs of this module that sent one for it, it acknowledges the oldest, whose block the channel
carried first (R230, R316). -/
def ackBlock (s : State) (t tbl row blk : Nat) : State :=
  let ids := s.folds.flatMap fun f => (f.2.cmds.filter (awaitsBlock t tbl row blk)).map (·.id)
  let first := ids.foldl min (ids.headD 0)
  let one := fun (g : GCmd) => if g.id == first && awaitsBlock t tbl row blk g then dropBlock tbl row blk g else g
  { s with folds := s.folds.map fun f => (f.1, { f.2 with cmds := f.2.cmds.map one }) }

/-- An owner's Gleaner adds a block into the shard's gradient region (R230). -/
def execScatterBlockAdd (fold tenant table row blk : Nat) (elems : List Int) (poison : Bool) (s : State) :
    Host.Outcome State Fault Refusal :=
  match tableOf s tenant table with
  | none => .next s
  | some x =>
    let h := shardOf x row
    if !x.train || h.2.2.1 ≠ s.fabric.modid || h.2.2.2.1 ≠ fold || x.nrows ≤ row || tableDim x ≤ 32 * blk then .next s
    else
      let key := row * 4096 + blk * 32
      let old := (List.range 32).map fun i => look (0 : Int) x.grad (key + i)
      let new := if poison then old else addBlocks old elems false
      let seen := look ([] : List Nat) x.touched h.1
      let l := row - h.2.1
      let x1 := { x with
        grad := new.zipIdx.foldl (fun m e => if e.1 = 0 then del m (key + e.2) else put m (key + e.2) e.1) x.grad
        poison := if poison then put x.poison (row * 128 + blk) true else x.poison
        touched := if seen.contains l then x.touched else put x.touched h.1 (seen ++ [l])
        served := bump x.served (65536 + h.1) 1 }
      .next (ackBlock (setTable s tenant table x1) tenant table row blk)

/-! ## Versions (R225, R226) -/

/-- A LOOKUP that pins a version of the table is in progress on this module. -/
def pinned (s : State) (t n : Nat) (v : Option Nat) : Bool :=
  s.folds.any fun f => f.2.cmds.any fun g => g.tenant == t &&
    match g.pin with | some p => p.1 == n && (match v with | some k => p.2 == k | none => true) | none => false

/-- Other modules in the fabric, on each of which the table may have a version current and lookups in progress; one that has left
counts as having reported (R226). -/
def otherModules (s : State) : List Nat := (s.fabric.map.map (·.modid)).filter fun m => m != s.fabric.modid && inFabric s m

/-- The owner frees a version once a later one is current on every module of the table, and each has reported that no LOOKUP pins it
(R226). `others` says so of the other modules: their reports have come (log entry 164). -/
def execTableVersionFree (tenant table version : Nat) (others : Bool) (s : State) : Host.Outcome State Fault Refusal :=
  match tableOf s tenant table with
  | none => .next s
  | some x =>
    let d := (x.current + 65536 - version % 65536) % 65536
    if 65536 ≤ version || d = 0 || 32767 < d || pinned s tenant table (some version) ||
        (!others && !(otherModules s).isEmpty) then .next s
    else .next (setTable s tenant table { x with versions := x.versions.filter fun e => e.version != version })

/-- Tables whose destruction waits go once no LOOKUP pins them (R226, R419). -/
def settleTables (s : State) (t : Nat) : State :=
  ((tenantOf s t).tables.filter fun e => e.2.doomed && !pinned s t e.1 none).foldl (fun s e =>
    completeObj (setTenant s t { tenantOf s t with tables := del (tenantOf s t).tables e.1 }) 0x0313 (e.1 + 65536 * t)
      stOK 0 0) s

/-! ## Table commands (R217, R225, R227, R419) -/

/-- Shard map entry `i` of the data of TABLE_CREATE. -/
def shardWord (e : Entry) (i : Nat) : BitVec 128 := unit 128 (e.data.drop 32) i
def shardEntry (w : BitVec 128) : Nat × Nat × Nat × Nat := (field w 0 40, field w 40 10, field w 50 6, field w 64 64)

def strictlyRising : List Nat → Bool
  | a :: b :: t => decide (a < b) && strictlyRising (b :: t)
  | _ => true

/-- Every stated range of a descriptor and its shard map (R217). -/
def tableBad (d : BitVec 256) (ws : List (BitVec 128)) : Bool :=
  let fmt := field d 12 4
  !(decide (1 ≤ fmt ∧ fmt ≤ 3)) || field d 22 42 != 0 || field d 64 40 == 0 || field d 104 24 != 0 || field d 128 12 == 0 ||
  (!d.getLsbD 21 && field d 140 12 != 0) || field d 152 104 != 0 ||
  ((ws.map fun w => field w 0 40).headD 1 != 0) || !strictlyRising (ws.map fun w => field w 0 40) ||
  ws.any fun w => decide (48 ≤ field w 50 6) || field w 56 8 != 0 || field w 64 64 % Config.page2M != 0

/-- TABLE_CREATE (R217): version 0 stands at the shard map's bases (log entry 42). -/
def execTableCreate (e : Entry) (s : State) : Host.Outcome State Fault Refusal :=
  let d : BitVec 256 := unit 256 e.data 0
  let n := field d 128 12
  let ws := (List.range n).map (shardWord e)
  let id := field d 0 12
  cmdIn spTableCreate .never (e.data.length != e.payloadLength.toNat || e.data.length != 32 + 16 * n)
    (tableBad d ws) (tableOf s (targetOf e) id).isSome
    (fun t s =>
      let shards := ws.map shardEntry
      let own := (shards.zipIdx.filter fun h => h.1.2.1 == s.fabric.modid).map fun h => (h.2, h.1.2.2.2)
      (resBody 2 [(0, 2, id)], setTable s t id
        { fmt := field d 12 4, np := field d 16 5 + 1, train := d.getLsbD 21, nrows := field d 64 40, schan := field d 140 12
          shards := shards, versions := [{ version := 0, nrows := field d 64 40, bases := own }] })) e s

/-- Some job holds the table's scatter channel (R227). -/
def scatterHeld (s : State) (t : Nat) (x : Table) : Bool :=
  x.train && chanHeld s t x.schan && (chanOf s x.schan).job != 0xFFFF

/-- Rows of shard `k`. -/
def shardRows (x : Table) (k : Nat) : Nat :=
  ((x.shards[k + 1]?.map (·.1)).getD x.nrows) - (x.shards.getD k (0, 0, 0, 0)).1

/-- The data region of a shard of `rows` rows at `base`. -/
def shardRegion (x : Table) (rows base : Nat) : Nat × Nat := (base, if rows = 0 then 0 else regionBytes base x.fmt x.np rows)

def disjointRegions (a b : Nat × Nat) : Bool := decide (a.1 + a.2 ≤ b.1) || decide (b.1 + b.2 ≤ a.1) || a.2 == 0 || b.2 == 0

/-- The owner has memory for a shard beside the versions it still holds (R227): its region is mapped whole, and none of theirs
overlaps it (log entry 165). -/
def hasRoom (s : State) (t : Nat) (x : Table) (v k base : Nat) : Bool :=
  let r := shardRegion x (shardRows x k) base
  mappedWhole s t r && x.versions.all fun o => o.bases.all fun b =>
    (o.version == v && b.1 == k) || disjointRegions r (shardRegion x (shardRows x b.1) b.2)

/-- TABLE_INSTALL: one shard of a version on its owner (R227). -/
def execTableInstall (e : Entry) (s : State) : Host.Outcome State Fault Refusal :=
  let n := fld e.body 0 2
  let sh := fld e.body 2 2
  let v := fld e.body 4 2
  let base := fld e.body 8 8
  let x := tableOf s (targetOf e) n
  cmdIn spTableInstall .never false (base % Config.page2M != 0)
    (match x with | none => true | some x => x.doomed || decide (x.shards.length ≤ sh))
    (fun t s => match tableOf s t n with
      | none => (resFail stBadField, s)
      | some x =>
        let old := versionOf x v
        if (old.isNone && decide (32767 ≤ x.versions.length)) || !hasRoom s t x v sh base then (resFail stNoResource, s)
        else if (x.shards.getD sh (0, 0, 0, 0)).2.1 ≠ s.fabric.modid || scatterHeld s t x then (resFail stDenied, s)
        else match old with
        | some k => (resOk, setTable s t n { x with versions := x.versions.map fun o =>
            if o.version == v then { k with bases := put k.bases sh base } else o })
        | none => (resOk, setTable s t n { x with versions := x.versions ++
            [{ version := v, nrows := x.nrows, bases := [(sh, base)] }] })) e s

/-- TABLE_COMMIT: the version becomes current for every shard and lookup of the module in one step (R225). -/
def execTableCommit (e : Entry) (s : State) : Host.Outcome State Fault Refusal :=
  let n := fld e.body 0 2
  let v := fld e.body 2 2
  let rows := fld e.body 8 8
  let missing := match tableOf s (targetOf e) n with
    | none => true
    | some x => x.doomed || x.shards.zipIdx.any fun h => h.1.2.1 == s.fabric.modid &&
        ((versionOf x v).bind fun k => tabFind k.bases h.2).isNone
  cmdIn spTableCommit .may false (rows == 0 || decide (2 ^ 40 ≤ rows)) missing
    (fun t s => match tableOf s t n with
      | none => (resFail stBadField, s)
      | some x =>
        if (versionOf x v).isNone && decide (32767 ≤ x.versions.length) then (resFail stNoResource, s)
        else if x.shards.any fun h => h.2.1 != s.fabric.modid && !inFabric s h.2.1 then (resFail stUnreachable, s)
        else
          let vs := if (versionOf x v).isSome then x.versions.map fun o => if o.version == v then { o with nrows := rows } else o
                    else x.versions ++ [{ version := v, nrows := rows }]
          (resOk, setTable s t n { x with versions := vs, current := v, nrows := rows })) e s

/-- TABLE_DESTROY: the versions are freed under R226. -/
def execTableDestroy (e : Entry) (s : State) : Host.Outcome State Fault Refusal :=
  let n := fld e.body 0 2
  let x := tableOf s (targetOf e) n
  cmdIn spTableDestroy .long false false (match x with | none => true | some x => x.doomed)
    (fun t s => match tableOf s t n with
      | none => (resFail stBadField, s)
      | some x =>
        if scatterHeld s t x then (resFail stDenied, s)
        else if pinned s t n none then (.wait (n + 65536 * t), setTable s t n { x with doomed := true })
        else (resOk, setTenant s t { tenantOf s t with tables := del (tenantOf s t).tables n })) e s

end Sys2Proof.Machine
end

