-- ==== Sys2Proof/Machine/Sample.lean ====
section
/-! DEFINITION. Graph sampling: the graph, the draws, the expansion of a node, the SAMPLE command and its record, and the
owner's answer (R235 to R248, R252). -/

namespace Sys2Proof.Machine
open Sys2Proof

/-! ## The body (R238) -/

def smGraph (b : BitVec 512) : Nat := field b 0 64
def smSeed (b : BitVec 512) : Nat := field b 64 64
def smOut (b : BitVec 512) : Nat := field b 128 64
def smKey (b : BitVec 512) : Word64 := BitVec.ofNat 64 (field b 192 64)
def smStep (b : BitVec 512) : Word64 := BitVec.ofNat 64 (field b 256 64)
def smOutLen (b : BitVec 512) : Nat := field b 320 32
def smSeeds (b : BitVec 512) : Nat := field b 352 17
def smHops (b : BitVec 512) : Nat := field b 369 3
/-- Fan-out of hop `h`, 1 to 4. -/
def smFan (b : BitVec 512) (h : Nat) : Nat := field b (372 + 11 * (h - 1)) 11
def smWeighted (b : BitVec 512) (h : Nat) : Bool := b.getLsbD (416 + (h - 1))
def smStream (b : BitVec 512) : Nat := field b 420 8
def smRev (b : BitVec 512) : Bool := b.getLsbD 428
def smChan (b : BitVec 512) : Nat := field b 429 12
/-- The hops of a command, 1 to NHOP. -/
def smHopList (b : BitVec 512) : List Nat := (List.range (smHops b)).map (· + 1)
/-- Reserved bits: FAN2 to FAN4 and the mode bits of hops above NHOP are among them. -/
def smReserved (b : BitVec 512) : Bool :=
  field b 441 71 != 0 || [1, 2, 3, 4].any fun h => decide (smHops b < h) && ((h != 1 && smFan b h != 0) || smWeighted b h)
def smAligned (b : BitVec 512) : Bool := smGraph b % 64 == 0 && smSeed b % 8 == 0 && smOut b % 64 == 0

/-! ## The graph (R235 to R237) -/

/-- A part entry. -/
structure Part where
  first : Nat
  modid : Nat
  fold : Nat
  rowptr : Nat
  col : Nat
  cw : Nat
  deriving DecidableEq, Repr

structure Graph where
  nnodes : Nat
  idw : Bool
  hasw : Bool
  parts : List Part
  deriving DecidableEq, Repr

def Graph.width (g : Graph) : Nat := if g.idw then 8 else 4

/-- Nodes of part `i`. -/
def Graph.count (g : Graph) (i : Nat) : Nat :=
  ((g.parts[i + 1]?.map (·.first)).getD g.nnodes) - (g.parts[i]?.map (·.first)).getD 0

/-- The number of the part of a node (R236). -/
def Graph.partNo (g : Graph) (v : Nat) : Nat := (g.parts.filter fun p => decide (p.first ≤ v)).length - 1

/-- The part of a node. -/
def Graph.partAt (g : Graph) (v : Nat) : Part :=
  g.parts.getD (g.partNo v) { first := 0, modid := 0, fold := 0, rowptr := 0, col := 0, cw := 0 }

def partOf (w : BitVec 256) : Part :=
  { first := field w 0 40, modid := field w 40 10, fold := field w 50 6, rowptr := field w 64 64, col := field w 128 64
    cw := field w 192 64 }

/-- A graph descriptor as it is read: header, part entries, and the graph they spell; none but the header where NPART is invalid
(R235, R236). -/
def rawGraph (s : State) (t va : Nat) : Except GStop (BitVec 512 × List (BitVec 256) × Graph) := do
  let n ← gNum s t va 64
  let h : BitVec 512 := BitVec.ofNat 512 n
  let np := field h 40 7
  let ws ← if np ≤ 64 then gNums s t (va + 64) 32 np else .ok []
  let ps : List (BitVec 256) := ws.map fun w => BitVec.ofNat 256 w
  return (h, ps, { nnodes := field h 0 40, idw := h.getLsbD 47, hasw := h.getLsbD 48, parts := ps.map partOf })

/-- The checks of a descriptor (R235, R236, R239 item 1). -/
def checkGraph (r : BitVec 512 × List (BitVec 256) × Graph) : Except GStop Unit := do
  let g := r.2.2
  gAssert (field r.1 0 40 != 0 && decide (1 ≤ field r.1 40 7 ∧ field r.1 40 7 ≤ 64) && field r.1 49 463 == 0)
  gAssert ((g.parts.map (·.first)).headD 1 == 0 && strictlyRising (g.parts.map (·.first)) &&
    (g.parts.all fun p => decide (p.first < g.nnodes) && decide (p.fold < 48) && (g.hasw || p.cw == 0)) &&
    r.2.1.all fun w => field w 56 8 == 0)
  gAssert (g.parts.all fun p => p.rowptr % 8 == 0 && p.col % g.width == 0 && p.cw % 4 == 0) .align

/-- Read and check a graph descriptor. -/
def readGraph (s : State) (t va : Nat) : Except GStop Graph := do
  let r ← rawGraph s t va
  checkGraph r
  return r.2.2

/-! ## Sizes (R239 items 3 and 4, R244) -/

/-- NSEED × FAN1 × … × FANh. -/
def smReach (b : BitVec 512) (h : Nat) : Nat := ((List.range h).map fun i => smFan b (i + 1)).foldl (· * ·) (smSeeds b)

/-- The worst-case edge count E_w. -/
def smEdges (b : BitVec 512) : Nat := (smHopList b).foldl (fun n h => n + smReach b h) 0

def up64 (n : Nat) : Nat := (n + 63) / 64 * 64

/-- The worst-case size of the record. -/
def smWorst (b : BitVec 512) : Nat :=
  64 + up64 (8 * (smSeeds b + smEdges b)) +
  (smHopList b).foldl (fun n h => n + up64 (4 * smReach b (h - 1)) + up64 (4 * (smReach b (h - 1) + 1)) + up64 (4 * smReach b h)) 0 +
  up64 (4 * smReach b (smHops b)) +
  (if smRev b then (smHopList b).foldl (fun n h => n + up64 (4 * (smReach b h + 1)) + up64 (4 * smReach b h)) 0 else 0)

/-- The seeds, checked (R239 item 2). -/
def readSeeds (s : State) (t : Nat) (b : BitVec 512) (g : Graph) : Except GStop (List Nat) := do
  let l ← gNums s t (smSeed b) 8 (smSeeds b)
  gAssert (l.all fun v => decide (v < g.nnodes))
  return l

/-- The checks of a SAMPLE after its frame and alignment: the channel (R214 step 3), then the body (R239). -/
def smCheck (s : State) (t : Nat) (b : BitVec 512) : Except GStop Unit := do
  let r ← rawGraph s t (smGraph b)
  let g := r.2.2
  gAssert ((g.parts.all fun p => p.modid == s.fabric.modid) || (chanHeld s t (smChan b) && (chanOf s (smChan b)).cfg.gln)) .permission
  gAssert (decide (1 ≤ smSeeds b ∧ smSeeds b ≤ 65536 ∧ 1 ≤ smHops b ∧ smHops b ≤ 4) &&
    (smHopList b).all fun h => decide (1 ≤ smFan b h ∧ smFan b h ≤ 1024))
  checkGraph r
  gAssert (g.hasw || (smHopList b).all fun h => !smWeighted b h)
  let _ ← readSeeds s t b g
  gAssert (decide (smEdges b ≤ 16777215) && decide (smWorst b ≤ smOutLen b))
  gOut s t (smOut b) (smOutLen b)

/-! ## Draws (R240) -/

/-- Draw `i` of node `v` at hop `h`. -/
def nodeDraw (key step : Word64) (stream v h i : Nat) : Nat :=
  (draw (key ^^^ 0x8000000000000000)
    (BitVec.ofNat 64 (stream * 2 ^ 45) ||| BitVec.ofNat 64 (v * 32) ||| BitVec.ofNat 64 ((h - 1) * 8) ||| BitVec.ofNat 64 (i / 128))
    step (i % 128)).toNat

/-- r(u, m) = floor(u × m / 2^32). -/
def scaleDraw (u m : Nat) : Nat := u * m / 2 ^ 32

/-! ## Expansion (R241, R242, R247) -/

/-- What an expansion yields: its neighbours, whether they were taken whole, whether the node is isolated, and its CW
probes. -/
structure Expanded where
  nbrs : List Nat
  whole : Bool := false
  isolated : Bool := false
  probes : Nat := 0
  deriving DecidableEq, Repr

/-- Floyd's method: `f` distinct positions of `d` (R241). -/
def floyd (dr : Nat → Nat) (d f : Nat) : List Nat :=
  ((List.range f).foldl (fun l i =>
    let j := d - f + i
    let x := scaleDraw (dr i) (j + 1)
    if l.contains x then j :: l else x :: l) []).mergeSort

/-- A COL entry, checked (R247). -/
def colEntry (s : State) (t : Nat) (g : Graph) (p : Part) (e : Nat) : Except GStop Nat := do
  let va := p.col + g.width * e
  let b ← gReadOr s t .bounds va g.width
  gAssert (decide (ofBytes b < g.nnodes)) .bounds va
  return ofBytes b

def cwEntry (s : State) (t : Nat) (p : Part) (e : Nat) : Except GStop Nat := do
  let b ← gReadOr s t .bounds (p.cw + 4 * e) 4
  return ofBytes b

/-- The binary search of R242: the position and the number of reads. DESIGN CHOICE (log entry 166): CW_PROBES counts the reads that
the search makes, fewer than ceil(log2 d) on some paths where d is no power of 2, and not the read of W (R252). -/
def cwSearch (s : State) (t : Nat) (p : Part) (base x : Nat) : Nat → Nat → Nat → Nat → Except GStop (Nat × Nat)
  | 0, lo, _, n => .ok (lo, n)
  | fuel + 1, lo, hi, n =>
    if lo < hi then do
      let mid := (lo + hi) / 2
      let c ← cwEntry s t p (base + mid)
      if x < c then cwSearch s t p base x fuel lo mid (n + 1) else cwSearch s t p base x fuel (mid + 1) hi (n + 1)
    else .ok (lo, n)

/-- Expand node `v`, whose local index in part `p` is `i` (R241, R242). DESIGN CHOICE (log entry 167): FAULT_ADDR of a descending
ROWPTR pair names entry i, and of several broken entries the first one counts, CW searches before COL reads, as the rules name
them (R247). -/
def expand (s : State) (t : Nat) (g : Graph) (p : Part) (i f : Nat) (weighted : Bool) (dr : Nat → Nat) :
    Except GStop Expanded := do
  let b ← gReadOr s t .bounds (p.rowptr + 8 * i) 16
  let lo := ofBytes (b.take 8)
  let hi := ofBytes (b.drop 8)
  gAssert (decide (lo ≤ hi)) .bounds (p.rowptr + 8 * i)
  let d := hi - lo
  if d = 0 then return { nbrs := [], isolated := true }
  else if weighted then
    let w ← cwEntry s t p (lo + d - 1)
    if w = 0 then return { nbrs := [], isolated := true }
    else
      let ps ← (List.range f).mapM fun k => cwSearch s t p lo (scaleDraw (dr k) w) 64 0 (d - 1) 0
      let ns ← ps.mapM fun q => colEntry s t g p (lo + q.1)
      return { nbrs := ns, probes := ps.foldl (fun n q => n + q.2) 0 }
  else if d ≤ f then
    let ns ← (List.range d).mapM fun q => colEntry s t g p (lo + q)
    return { nbrs := ns, whole := true }
  else
    let ns ← (floyd dr d f).mapM fun q => colEntry s t g p (lo + q)
    return { nbrs := ns }

/-- A remote answer that came with the event: hop, node, CW probes, whether it was taken whole, and the neighbours. -/
abbrev FarAnswer := Nat × Nat × Nat × Bool × List Nat

/-- Expand a node of a frontier here, or take the answer of its owner (R246). -/
def expandNode (s : State) (t : Nat) (b : BitVec 512) (g : Graph) (remote : List FarAnswer) (h v : Nat) :
    Except GStop Expanded :=
  let p := g.partAt v
  if p.modid = s.fabric.modid then
    expand s t g p (v - p.first) (smFan b h) (smWeighted b h) (nodeDraw (smKey b) (smStep b) (smStream b) v h)
  else match remote.find? fun a => a.1 == h && a.2.1 == v with
    | some a => .ok { nbrs := a.2.2.2.2, whole := a.2.2.2.1, isolated := a.2.2.2.2.isEmpty, probes := a.2.2.1 }
    | none => if !inFabric s p.modid then .error (.bad .memError 0) else .error (.need [(h, v)])

/-- The expansions of a whole frontier: all of them, or every remote one that has no answer yet, or the first error. -/
def joinAll : List (Except GStop Expanded) → Except GStop (List Expanded)
  | [] => .ok []
  | e :: t => match e, joinAll t with
    | .ok x, .ok l => .ok (x :: l)
    | .ok _, .error r => .error r
    | .error (.need a), .error (.need c) => .error (.need (a ++ c))
    | .error (.need a), .ok _ => .error (.need a)
    | .error (.need _), .error r => .error r
    | .error r, .error (.bad _ _) => .error r
    | .error r, _ => .error r

/-- The frontiers and expansions of the hops that remain (R243): for each hop its frontier and its expansions. -/
def grow (s : State) (t : Nat) (b : BitVec 512) (g : Graph) (remote : List FarAnswer) :
    List Nat → List Nat → Except GStop (List (List Nat × List Expanded) × List Nat)
  | [], front => .ok ([], front)
  | h :: hs, front => do
    let xs ← joinAll (front.map (expandNode s t b g remote h))
    let r ← grow s t b g remote hs (xs.flatMap (·.nbrs)).eraseDups
    return ((front, xs) :: r.1, r.2)

/-! ## The record (R244) -/

def localId (nodes : List Nat) (v : Nat) : Nat := nodes.findIdx (· == v)

/-- Running sums of a list of counts, from 0. -/
def sums (l : List Nat) : List Nat := (List.range (l.length + 1)).map fun k => (l.take k).foldl (· + ·) 0

def words4 (l : List Nat) : List Byte := l.flatMap (toBytes 4 ·)

/-- The sections of one hop: FRONT, EPTR and SRC. -/
def hopSections (nodes : List Nat) (h : List Nat × List Expanded) : List (List Byte) :=
  [words4 (h.1.map (localId nodes)), words4 (sums (h.2.map fun x => x.nbrs.length)),
   words4 ((h.2.flatMap (·.nbrs)).map (localId nodes))]

/-- The reverse sections of one hop: RPTR and RPOS. -/
def revSections (front : List Nat) (edges : List Nat) : List (List Byte) :=
  let pos := front.map fun v => (edges.zipIdx.filter fun e => e.1 == v).map (·.2)
  [words4 (sums (pos.map List.length)), words4 pos.flatten]

/-- The frontiers in order, the last one included. -/
def frontsOf (r : List (List Nat × List Expanded) × List Nat) : List (List Nat) := r.1.map (·.1) ++ [r.2]

/-- The node list (R243). -/
def nodeList (r : List (List Nat × List Expanded) × List Nat) : List Nat := (frontsOf r).flatten.eraseDups

def edgeCount (h : List Nat × List Expanded) : Nat := h.2.foldl (fun n x => n + x.nbrs.length) 0

/-- The sections of the record after its header. -/
def sampleSections (b : BitVec 512) (r : List (List Nat × List Expanded) × List Nat) : List (List Byte) :=
  let nodes := nodeList r
  [nodes.flatMap (toBytes 8 ·)] ++ r.1.flatMap (hopSections nodes) ++ [words4 (r.2.map (localId nodes))] ++
  (if smRev b then (r.1.zip ((frontsOf r).drop 1)).flatMap fun e => revSections e.2 (e.1.2.flatMap (·.nbrs)) else [])

/-- Lay the sections out, each at the next multiple of 64 bytes. DESIGN CHOICE (log entry 168): the bytes between two sections keep
what memory held (R244). -/
def layOut (va : Nat) : List (List Byte) → List (Nat × List Byte)
  | [] => []
  | x :: t => (va, x) :: layOut (va + up64 x.length) t

/-- The header (R244). -/
def sampleHead (b : BitVec 512) (r : List (List Nat × List Expanded) × List Nat) : List Byte :=
  let fs := (frontsOf r).map List.length
  let es := r.1.map edgeCount
  toBytes 64 ((nodeList r).length + 2 ^ 32 * (es.foldl (· + ·) 0) + 2 ^ 64 * smHops b + 2 ^ 67 * b2n (smRev b) +
    (fs.zipIdx.foldl (fun n e => n + e.1 * 2 ^ (96 + 32 * e.2)) 0) + (es.zipIdx.foldl (fun n e => n + e.1 * 2 ^ (256 + 32 * e.2)) 0))

/-- The whole sample of a command (R243). -/
def sampleOf (s : State) (t : Nat) (b : BitVec 512) (g : Graph) (remote : List FarAnswer) :
    Except GStop (List (List Nat × List Expanded) × List Nat) := do
  let seeds ← readSeeds s t b g
  grow s t b g remote (smHopList b) seeds.eraseDups

/-! ## The command and the owner's side (R243, R246) -/

/-- What a request carries (R246): the draws' key, step and stream, the hop, its mode and fan-out, the node, and the part entry
with what its arrays need. -/
def askWords (b : BitVec 512) (gr : Graph) (h v : Nat) : List Nat :=
  let p := gr.partAt v
  [2, (smKey b).toNat, (smStep b).toNat, smStream b, h, b2n (smWeighted b h), smFan b h, v,
   p.first, p.modid, p.fold, p.rowptr, p.col, p.cw, gr.count (gr.partNo v), gr.nnodes, b2n gr.idw]

/-- Send the requests of one hop that have not been sent, through GCHAN on VC1 to the part's MODULE (R246, log entry 169). DESIGN
CHOICE (log entry 185): R214 tests GCHAN at the start alone; one that has ended since discards what is sent into it (R375). -/
def askNodes (s : State) (f : Nat) (g : GCmd) (b : BitVec 512) (gr : Graph) (needs : List (Nat × Nat)) : State :=
  let fresh := needs.filter fun e => !g.asked.contains e
  let s1 := fresh.foldl (fun s e => chanFrameTo s (smChan b) (BitVec.ofNat 10 (gr.partAt e.2).modid) 6 1
    (Config.glnRecord (askWords b gr e.1 e.2))) s
  putCmd s1 f { g with asked := g.asked ++ fresh }

/-- The counters and counts of a completed SAMPLE (R245, R252). -/
def sampleCounts (s : State) (b : BitVec 512) (g : Graph) (r : List (List Nat × List Expanded) × List Nat) :
    List Nat × List (Nat × Nat) :=
  let xs := r.1.flatMap (·.2)
  let nodes := (nodeList r).length
  let edges := r.1.foldl (fun n h => n + edgeCount h) 0
  let iso := (xs.filter (·.isolated)).length
  let far := ((r.1.flatMap (·.1)).filter fun v => ((g.parts[g.partNo v]?.map (·.modid)).getD s.fabric.modid) != s.fabric.modid).length
  let whole := (r.1.zipIdx.flatMap fun h => h.1.2.filter fun x => !smWeighted b (h.2 + 1) && x.whole).length
  ([nodes, edges, iso, far, whole],
   [(5, 1), (15, smSeeds b), (16, nodes), (17, edges), (18, iso), (19, far), (20, whole),
    (21, xs.foldl (fun n x => n + x.probes) 0)])

/-- A SAMPLE runs: it asks other modules for the expansions of a frontier it has no answer for, else it writes its record. While
requests are open, `err` is the failure of one of them. DESIGN CHOICE (log entry 41): it writes its sections once it is whole, so one
that ends while it grows has written none; one that ends in its writes has written any of them, and no header. -/
def runSample (fold : Nat) (g : GCmd) (remote : List FarAnswer) (err : Option BadAccess) (s : State) : State :=
  let b := gBody g
  match readGraph s g.tenant (smGraph b) with
  | .error (.bad c va) => failCmd s fold g c va
  | .error _ => s
  | .ok gr => match sampleOf s g.tenant b gr remote with
  | .error (.bad c va) => failCmd s fold g c va
  | .error (.need l) => match err with
    | some e => failCmd s fold g e.1 e.2.toNat
    | none => askNodes s fold g b gr l
  | .error .wait => s
  | .ok r =>
    let outs := layOut (smOut b + 64) (sampleSections b r)
    let head := (smOut b, sampleHead b r)
    if !outsReady s g.tenant (head :: outs) then s
    else match err with
      | some e => failAccess (someOuts s g.tenant outs) fold g e
      | none => let k := sampleCounts s b gr r; finishOuts s fold g outs head k.1 k.2

/-- A SAMPLE runs (R243 to R247). `err` is an error that ended one of its accesses or a request, with the address it names. -/
def execSample (fold id : Nat) (remote : List (Nat × Nat × Nat × Bool × List Nat)) (err : Option BadAccess) (soft : List SoftError)
    (s : State) : Host.Outcome State Fault Refusal :=
  match runningCmd s fold id 4 with
  | none => .next s
  | some g => .next (noteSoft g.tenant soft (runSample fold g remote err s))

/-- An owner's Gleaner expands the node of a request under its own mapping and returns the neighbours in order on VC2;
a failure goes back with its cause and address (R246, R247). -/
def execSampleExpansionRequest (fold tenant : Nat) (key step : Word64) (stream hop : Nat) (weighted : Bool)
    (fan node first nlocal nnodes : Nat) (idw : Bool) (rowptrVa colVa cwVa : Word64) (chan : Nat) (s : State) :
    Host.Outcome State Fault Refusal :=
  if 48 ≤ fold || !chanHeld s tenant chan || !(chanOf s chan).cfg.gln then .next s
  else
    let p : Part := { first := first, modid := s.fabric.modid, fold := fold, rowptr := rowptrVa.toNat, col := colVa.toNat
                      cw := cwVa.toNat }
    let g : Graph := { nnodes := nnodes, idw := idw, hasw := weighted, parts := [p] }
    let answer := fun (l : List Nat) => chanFrame s chan 6 2 (Config.glnRecord l)
    if node < first || first + nlocal ≤ node then .next (answer [3, hop, node, causeCode .bounds, 0])
    else match expand s tenant g p (node - first) fan weighted (nodeDraw key step stream node hop) with
    | .error (.bad c va) => .next (noteStop (answer [3, hop, node, causeCode c, va]) tenant va c)
    | .error _ => .next s
    | .ok x => .next (answer ([3, hop, node, 0, x.probes, b2n x.whole] ++ x.nbrs))

end Sys2Proof.Machine
end

