-- ==== Sys2Proof/Machine/Gleaner.lean ====
section
/-! DEFINITION. The start and the completion of a Gleaner command (R191, R212 to R216, R220, R234, R252). -/

namespace Sys2Proof.Machine
open Sys2Proof

/-- Body length in 64-byte units of a CMD code; none for a reserved code (R212). -/
def bodyUnits (code : Nat) : Option Nat := if 1 ≤ code ∧ code ≤ 4 then some 1 else none

/-- The reserved bits of a header (R212). -/
def headReserved (h : BitVec 512) : Bool := field h 12 4 != 0 || field h 17 15 != 0 || field h 128 384 != 0

/-- The frame check: CMD, BLEN and every reserved bit (R214 step 1). -/
def frameOk (h b : BitVec 512) : Bool :=
  bodyUnits (gCode h) == some (field h 8 4) && !headReserved h &&
  !(match gCode h with | 1 => bfReserved b | 2 => lkReserved b | 3 => scReserved b | _ => smReserved b)

/-- The alignment check (R214 step 2). -/
def aligned (h b : BitVec 512) : Bool :=
  gCompl h % 64 == 0 && (match gCode h with | 1 => bfAligned b | 2 => lkAligned b | 3 => scAligned b | _ => smAligned b)

/-- A table the tenant holds (R214 step 3). -/
def liveTable (s : State) (t n : Nat) : Option Table :=
  match tableOf s t n with | some x => if x.doomed then none else some x | none => none

/-- Ownership, then the body checks (R214 steps 3 and 4). -/
def ownAndBody (s : State) (t : Nat) (h b : BitVec 512) : Except GStop Unit :=
  match gCode h with
  | 1 => bfCheck s t b
  | 2 => match liveTable s t (lkTable b) with
    | none => .error (.bad .permission 0)
    | some x => lkCheck s t x b
  | 3 => match liveTable s t (scTable b) with
    | none => .error (.bad .permission 0)
    | some x => do
      gAssert (!x.train || chanHeld s t x.schan) .permission
      scCheck s t x b
  | _ => smCheck s t b

/-- The completion record has a mapped place that takes writes (R214, R215). -/
def complCheck (s : State) (t : Nat) (h : BitVec 512) : Except GStop Unit := do
  gIn s t (gCompl h) 64
  gAssert (permitted s t 1 (gCompl h, 64)) .permission (gCompl h)

/-- Read the whole command and check it (R212, R214): its bytes, and where it fails. DEDUCED (log entry 108): frame, reserved bits and
alignment come before the rows of R184. -/
def readCmd (s : State) (g : GCmd) : Except GStop (List Byte × Option (Cause × Nat)) := do
  let hd ← gRead s g.tenant g.va.toNat 64
  let h : BitVec 512 := BitVec.ofNat 512 (ofBytes hd)
  if bodyUnits (gCode h) ≠ some (field h 8 4) then return (hd, some (.bounds, 0))
  else
    match gRead s g.tenant (g.va.toNat + 64) 64 with
    | .error (.bad c va) => return (hd, some (c, va))
    | .error e => .error e
    | .ok bd =>
    let b : BitVec 512 := BitVec.ofNat 512 (ofBytes bd)
    if !frameOk h b then return (hd ++ bd, some (.bounds, 0))
    else if !aligned h b then return (hd ++ bd, some (.align, 0))
    else match (do ownAndBody s g.tenant h b; complCheck s g.tenant h) with
      | .error (.bad c va) => return (hd ++ bd, some (c, va))
      | .error e => .error e
      | .ok () => return (hd ++ bd, none)

/-- The next command to start: commands start in the order of acceptance, four run at once, and one with ORD waits for
every earlier one of its context (R213). -/
def nextCmd (x : Fold) : Option GCmd :=
  if 4 ≤ (x.cmds.filter (·.started)).length then none else x.cmds.find? fun g => !g.started

def ordWaits (x : Fold) (g : GCmd) (h : BitVec 512) : Bool :=
  gOrd h && x.cmds.any fun o => o.core == g.core && o.ctx == g.ctx && decide (o.order < g.order)

/-- What a checked command takes at its start: a LOOKUP the current version, a SCATTER the agreed exponent (R220, R229). -/
def takeStart (s : State) (g : GCmd) : GCmd :=
  let b := gBody g
  match gCode (gHead g) with
  | 2 => match tableOf s g.tenant (lkTable b) with
    | some x => { g with version := BitVec.ofNat 16 x.current, pin := some (lkTable b, x.current) }
    | none => g
  | 3 => match tableOf s g.tenant (scTable b) with
    | some x => { g with aexp := signed 10 (chanOf s x.schan).cfg.aexp.toNat }
    | none => g
  | _ => g

/-- What becomes of a command that its Gleaner starts. `err` is a read of its own that the hardware ended (R216): without its header
it has no place for a record. -/
def startCmd (fold : Nat) (g : GCmd) (err : Option BadAccess) (s : State) : State :=
  let go := fun (bytes : List Byte) (end_ : GCmd → State) =>
    let g1 := { g with started := true, bytes := bytes }
    if ordWaits (glnOf s fold) g (gHead g1) then s else end_ g1
  match readCmd s g, err with
  | .ok (bytes, some (c, va)), none => go bytes fun g1 => failCmd s fold g1 c va
  | .ok (bytes, none), none => go bytes fun g1 => putCmd s fold (takeStart s g1)
  | .ok r, some e => go (if inRange g.va.toNat 64 e.2.toNat then [] else r.1) fun g1 => failAccess s fold g1 e
  | .error (.bad c va), _ => go [] fun g1 => failCmd s fold g1 c va
  | .error _, _ => s

/-- The Gleaner starts a command: it reads it whole and runs its checks; a page that is not resident is waited for
(R212 to R214). -/
def execGleanerCommandStart (fold : Nat) (err : Option BadAccess) (soft : List SoftError) (s : State) :
    Host.Outcome State Fault Refusal :=
  match nextCmd (glnOf s fold) with
  | none => .next s
  | some g => .next (noteSoft g.tenant soft (startCmd fold g err s))

/-! ## Completion (R215) -/

/-- The 64 bytes of a completion record. -/
def complRecord (g : GCmd) : List Byte :=
  let h := gHead g
  let st := match g.status with | some (some c) => causeCode c | _ => 0
  let version := if gCode h = 2 then g.version.toNat else 0
  let counts := (g.counts.zipIdx.foldl (fun n e => n + e.1 % 2 ^ 32 * 2 ^ (64 + 32 * e.2)) 0)
  toBytes 64 (st + 2 ^ 8 + 2 ^ 16 * version + 2 ^ 32 * gTag h + counts + 2 ^ 256 * g.faultAddr.toNat)

/-- The counters a Fold keeps for a tenant rise once (R191, R234, R252): 0 to 4 SPF_PRED_TILES, USED, MISS, EXTRA,
MISS_EVENTS; 5 GLN_CMDS; 6 to 11 EMB_LOOKUP_IDX, INVALID, PAD, ROWS_FETCHED, ROWS_REMOTE, OVF_BLOCKS; 12 to 14 SCT_BLOCKS,
POISON, COMBINED; 15 to 21 GRS_SEEDS, NODES, EDGES, ISOLATED, REMOTE, WHOLE, CW_PROBES. -/
def addCounts (x : Fold) (g : GCmd) : Fold :=
  { x with counters := g.adds.foldl (fun m e => bump m (g.tenant * 64 + e.1) e.2) x.counters }

/-- The record can be written: aligned, mapped, and resident. -/
def complSpot (s : State) (g : GCmd) : Spot :=
  if g.bytes.length < 64 ∨ gCompl (gHead g) % 64 ≠ 0 then .bad .align else spot s g.tenant (gCompl (gHead g)) 1

/-- Every block of a SCATTER is acknowledged (R230): this module's owners have added theirs, and `acked` says that those of other
modules have (log entry 110). -/
def allAdded (s : State) (g : GCmd) (acked : Bool) : Bool := g.blocks.all fun e => acked && !ownsRow s g.tenant e.1 e.2.1

/-- A command ends: the record with DONE last, the counters of a success, then the signal (R169, R215). A SCATTER ends only
once every block is acknowledged (R230). -/
def execGleanerCompletion (fold id : Nat) (acked : Bool) (s : State) : Host.Outcome State Fault Refusal :=
  match findCmd s fold id with
  | none => .next s
  | some g =>
    if g.status.isNone || !allAdded s g acked then .next s
    else
      let rest := fun (s : State) =>
        let x := addCounts (glnOf s fold) g
        let s1 := setFoldRec s fold { x with cmds := x.cmds.filter fun o => o.id != id }
        let s2 := closeEngine s1 fun r => r == gsubRef id
        let s3 := if g.se then sendSig s2 g.core g.sem 1 else s2
        settle (settleTables s3 g.tenant) g.core
      match complSpot s g with
      | .wait => .next s
      | .bad _ => .next (rest s)
      | .ok _ => .next (rest (vaWrite s g.tenant (gCompl (gHead g)) (complRecord g) .clean).1)

end Sys2Proof.Machine
end

