-- ==== Sys2Proof/Machine/Firmware.lean ====
section
/-! DEFINITION. Drover: lockstep restart and the emergency page, firmware, the entropy source, key rotation, and
attestation (R401, R422, R427, R450 to R454, R460, R461, R464, R467, R468). -/

namespace Sys2Proof.Machine
open Sys2Proof

/-! ## The emergency page (R401) -/

/-- ROM, MBOX or EM_RESULT of the emergency page changed: the PF's EMERG cause. -/
def emergency (s : State) : State := onFunc s 0 fun f => raiseCause f 4

def setRom (s : State) (rom mbox : Bool) : State :=
  if s.drover.romRunning = rom ∧ s.drover.mboxOn = mbox then s
  else emergency { s with drover := { s.drover with romRunning := rom, mboxOn := mbox } }

def setEmResult (s : State) (st : Half) : State := emergency { s with drover := { s.drover with emResult := st } }

/-! ## Restart of Drover (R450) -/

/-- An epoch that is being taken is abandoned, and is taken again at the first boundary after the restart (R449). -/
def abandonEpochs (s : State) : State :=
  { s with tenants := s.tenants.map fun t => (t.1, { t.2 with
      jobs := t.2.jobs.map fun j => (j.1, match j.2.asked with
        | some (n, true) => { j.2 with asked := some (n, false), holdFrom := none }
        | _ => j.2)
      ckpts := t.2.ckpts.map fun c => { c with open_ := none } }) }

/-- SPDM connections and the diagnostic unlock are Uango's volatile state (R498). -/
def dropSpdm (s : State) : State :=
  { s with drover := { s.drover with diagUnlocked := [] }
           side := { s.side with a := { s.side.a with spdm := {} }, b := { s.side.b with spdm := {} }, doe := {} } }

/-- Drover resets, and the recovery ROM starts Uango again; every function shows UPDATING. -/
def startRestart (emergencyAct : Bool) (s : State) : State :=
  let s1 := onPresent toUpdating (abandonEpochs (dropSpdm s))
  setRom { s1 with drover := { s1.drover with restarting := true, switching := false, emergencyAct := emergencyAct } } true false

/-- The functions stay in RECOVERY (R399, R450). -/
def toRecovery (f : Func) : Func :=
  if f.fstate == .updating || f.fstate == .recovery then { f with fstate := .recovery }
  else { f with prior := f.fstate, fstate := .recovery }

def enterRecovery (s : State) : State :=
  setRom { onPresent toRecovery (dropSpdm s) with
    drover := { s.drover with diagUnlocked := [], restarting := false, switching := false } } true false

/-- Uango runs: it has been started, and the recovery ROM does not run. -/
def uangoUp (s : State) : Bool := decide (6 ≤ s.drover.step) && !s.drover.romRunning

/-- Drover's processors disagree: a restart; a second mismatch within one hour leaves the functions in RECOVERY (R450). -/
def execLockstepMismatch (s : State) : Host.Outcome State Fault Refusal :=
  if !uangoUp s then .next s
  else
    let recent := s.drover.mismatches.filter fun t => decide (s.ftime < t + 3600000000000)
    let s1 := { s with drover := { s.drover with mismatches := recent ++ [s.ftime], mismatched := true } }
    .next (if recent.isEmpty then startRestart false s1 else enterRecovery (abandonEpochs s1))

/-- Every command read but without a final response is answered ABORTED (R427). -/
def abortAll (s : State) : State :=
  let s1 := (presentFns s).foldl (fun s fn => dropSetups (abortOwed s fn 0x10000) fn) s
  { s1 with hostWait := [] }

def leaveUpdating (f : Func) : Func :=
  if f.fstate == .updating || f.fstate == .recovery then { f with fstate := f.prior } else f

/-- A scrub that was under way resumes; SCRUB_NS then reports the actual time (R473). -/
def resumeScrubs (s : State) : State :=
  { s with tenants := s.tenants.map fun t => (t.1, { t.2 with
      scrub := t.2.scrub.map fun b => if b.inScrub then { b with restarted := true } else b }) }

/-- Uango starts in the boot: NCLK runs, and the six bands run at 1.25 GHz (R500 step 6). -/
def uangoStart (s : State) : State :=
  { s with drover := { s.drover with step := 6 }
           bands := (List.range 6).map fun b => (b, { units := 50, vcore := Config.vcoreSet 50, stopped := false }) }

/-- The status of the emergency action that a restart was, in EM_RESULT (R401). -/
def endAction (was : Bool) (st : Half) (s : State) : State :=
  if was then setEmResult { s with drover := { s.drover with emergencyAct := false } } st else s

/-- The ROM has checked the image and Uango has rebuilt its state, or the check failed (R450). -/
def execUangoRestartComplete (sigOk : Bool) (s : State) : Host.Outcome State Fault Refusal :=
  let d := s.drover
  if !d.restarting then .next s
  else if !sigOk then .next (endAction d.emergencyAct stIntegrity (enterRecovery s))
  else
    let s1 := { s with drover := { d with restarting := false, slotB := d.slotB != d.otherNext, otherNext := false
                                          mismatchCount := satAdd d.mismatchCount (b2n d.mismatched), mismatched := false } }
    let s2 := if d.step < 6 then uangoStart s1 else s1
    .next (endAction d.emergencyAct stOK (setRom (onPresent leaveUpdating (resumeScrubs (abortAll s2))) false (decide (11 ≤ d.step))))

/-- A write to the emergency page takes effect only with the unlock code and the code of the row, on the PF (R401). -/
def emergencyWrite (fn : Nat) (v : Word64) (code : Nat) (s : State) : Bool :=
  fn == 0 && field v 48 16 == 0xE5C0 && field v 0 8 == code && decide (4 ≤ s.drover.step) && !s.drover.restarting

/-- RESTART_UANGO: a restart through the recovery ROM, with compute running on (R401). -/
def execRestartUango (fn : Nat) (v : Word64) (s : State) : Host.Outcome State Fault Refusal :=
  if emergencyWrite fn v 1 s then .next (startRestart true s) else .next s

/-- SWITCH_SLOT: the next restart uses the other slot, and it then restarts (R401). -/
def execSwitchSlot (fn : Nat) (v : Word64) (s : State) : Host.Outcome State Fault Refusal :=
  if emergencyWrite fn v 2 s then .next (startRestart true { s with drover := { s.drover with otherNext := true } }) else .next s

/-! ## Firmware (R422, R451) -/

/-- FW_STAGE appends to the inactive slot, and data past its 48 MiB is BAD_LENGTH (R11); at FINAL it verifies the signature and the handover record. -/
def execFwStage (e : Entry) (s : State) : Host.Outcome State Fault Refusal :=
  let off := fld e.body 8 4
  let fin := fld e.body 12 1
  cmdIn spFwStage .may (e.data.length != e.payloadLength.toNat || decide (50331648 < off + e.data.length))
    (decide (1 < fin)) (off != 0 && off != s.drover.staged.length) (fun _ s =>
    let got := if off = 0 then e.data else s.drover.staged ++ e.data
    let d1 := { s.drover with staged := got, stagedOk := false }
    if fin = 0 then (resOk, { s with drover := d1 })
    else if !Config.imageSigned got then (resFail stIntegrity, { s with drover := { d1 with staged := [] } })
    else if !Config.imageReadsHandover got then (resFail stBadField, { s with drover := { d1 with staged := [] } })
    else
      let slot := b2n !d1.slotB
      (resOk, { s with drover := { d1 with staged := [], stagedOk := true, imgs := put d1.imgs slot got
                                           imgBuild := put d1.imgBuild slot (Config.imageBuild got) } })) e s

/-- FW_ACTIVATE waits until no command of any function is outstanding; a second one is answered RETRY_LATER (R427, R451). -/
def execFwActivate (e : Entry) (s : State) : Host.Outcome State Fault Refusal :=
  .next (settleSwitch (runCmd spFwActivate .long false false false (fun _ s =>
    if !s.drover.stagedOk then (resFail stIntegrity, s)
    else (.wait 9, { s with drover := { s.drover with switching := true } })) e s))

def execFwQuery (e : Entry) (s : State) : Host.Outcome State Fault Refusal :=
  cmd spFwQuery .never false false (fun _ s =>
    (resBody 10 [(0, 4, (buildOf s false).toNat), (4, 4, (buildOf s true).toNat), (8, 1, b2n s.drover.slotB)
                 , (9, 1, b2n s.drover.stagedOk)], s)) e s

/-- The switch-over ends: FW_ACTIVATE is answered and FW_SWITCHED posted (R451). -/
def endSwitch (st : Half) (s : State) : State :=
  let s1 := onPresent leaveUpdating { s with drover := { s.drover with switching := false } }
  postAll (completeObj (countFailed s1 st) 0x0901 9 st 0 0) 0x0060
    [(0, 4, (buildOf s1 s1.drover.slotB).toNat), (4, 1, b2n s1.drover.slotB), (5, 1, Config.minor)]

/-- The switch-over is under way. -/
def switchingOver (s : State) : Bool := s.drover.switching && (funcOf s 0).fstate == .updating

/-- The staged image resumes from the handover record (R451). -/
def execFwSwitched (s : State) : Host.Outcome State Fault Refusal :=
  if !switchingOver s then .next s
  else .next (endSwitch stOK { s with drover := { s.drover with slotB := !s.drover.slotB, stagedOk := false } })

/-- The new image does not resume in 50 ms: the previous slot answers INTERNAL (R451). -/
def execFwSwitchTimeout (s : State) : Host.Outcome State Fault Refusal :=
  if !switchingOver s then .next s else .next (endSwitch stInternal s)

/-! ## The entropy source (R452) -/

/-- A health test fails: the DRBG gives no output, and a link in KEYX fails. -/
def execDrbgHealthFail (s : State) : Host.Outcome State Fault Refusal :=
  .next (((s.links.filter fun l => l.2.st == .keyx).map (·.1)).foldl enterFailed
    { s with drover := { s.drover with drbgOk := false } })

/-- The start-up tests run again; the source resumes once they pass. -/
def execEntropyRetest (pass : Bool) (s : State) : Host.Outcome State Fault Refusal :=
  .next { s with drover := { s.drover with drbgOk := s.drover.drbgOk || pass } }

/-! ## Rotation (R460, R461, R464) -/

/-- Rows of KEY_ROTATE are told apart by SCOPE; a SCOPE beyond both is BAD_FIELD. -/
def keyRotate (scope : Nat) (pend : Pend) (run : Nat → State → Res × State) (e : Entry) (s : State) :
    Host.Outcome State Fault Refusal :=
  let v := fld e.body 0 1
  if v ≠ scope ∧ v < 2 then .next s
  else cmd spKeyRotate pend false (decide (1 < v)) run e s

/-- KEY_ROTATE of the tenant's memory keys: a new generation is drawn and its frames are rotated one by one (R460). -/
def execKeyRotateMemory (e : Entry) (s : State) : Host.Outcome State Fault Refusal :=
  keyRotate 0 .long (fun t s =>
    let x := tenantOf s t
    if !s.drover.drbgOk || x.keys.rotating then (resFail stRetryLater, s)
    else
      let fs := (s.frames.filter fun f => f.2.keyTag.toNat == t).map (·.1)
      let k := { x.keys with gen := !x.keys.gen, rotating := !fs.isEmpty, left := fs }
      (if fs.isEmpty then resOk else .wait (2 + t), setTenant s t { x with keys := k })) e s

/-- KEY_ROTATE of the link keys: every link in UP rekeys (R464). -/
def execKeyRotateLink (e : Entry) (s : State) : Host.Outcome State Fault Refusal :=
  keyRotate 1 .may (fun _ s =>
    if e.fn ≠ 0 then (resFail stDenied, s)
    else if !s.drover.drbgOk then (resFail stRetryLater, s)
    else (resOk, (s.links.map (·.1)).foldl startRekey s)) e s

/-- The port that holds a frame: a Near stack, 8 Mid, 9 Far. -/
def portOfFrame (f : Nat) : Nat := tierPlace (f * Config.page2M)

/-- The frame's rotation is over: GEN is inverted; after the last frame the old generation is destroyed and the command
is answered OK (R460 step 3). -/
def endFrameRotation (s : State) (t f : Nat) : State :=
  let x := tenantOf s t
  let left := x.keys.left.filter (· != f)
  let e := look ({} : Frame) s.frames f
  let s1 := if e.rot then { s with frames := put s.frames f { e with gen := !e.gen, rot := false, cursor := 0 } } else s
  let s2 := setTenant s1 t { x with keys := { x.keys with left := left, rotating := !left.isEmpty } }
  if left.isEmpty then completeObj s2 0x0701 (2 + t) stOK 0 0 else s2

/-- A port re-encrypts one sector of a frame under the new generation (R460): read, checked and written. A sector that fails
its check is left as it is, and the frame is recorded (R461); so is one of a Far tier that takes no write (R281). A Far unit is
programmed once for its 32 sectors. -/
def execKeyRotationSector (frame : Nat) (out : PortOutcome) (s : State) : Host.Outcome State Fault Refusal :=
  match s.tenants.find? fun t => t.2.keys.rotating && t.2.keys.left.contains frame with
  | none => .next s
  | some t =>
    let e := look ({} : Frame) s.frames frame
    let busy := s.frames.any fun f => f.2.rot && f.1 != frame && portOfFrame f.1 == portOfFrame frame
    if e.keyTag.toNat ≠ t.1 then .next (endFrameRotation s t.1 frame)
    else if busy || (s.power.farWait && portOfFrame frame == 9) then .next s
    else
      let e1 := if e.rot then e else { e with rot := true, cursor := 0 }
      let pa := frame * Config.page2M + e1.cursor.toNat * 512
      let s1 := { s with frames := put s.frames frame { e1 with cursor := e1.cursor + 1 } }
      let s2 := match readCheck s1 pa 512 out with
        | (s2, none) =>
          if tierOf pa = some 2 && s2.far.readOnly then reportFrame (markBad s2 pa .integrity) pa .memError
          else if tierOf pa = some 2 && e1.cursor.toNat % 32 == 31 && (tabFind s2.badUnits (farUnit pa)).isNone then
            programUnit s2 (farUnit pa) 0
          else s2
        | (s2, some _) => reportFrame (markBad s2 pa .integrity) pa .integrity
      .next (if e1.cursor = 4095 then endFrameRotation s2 t.1 frame else s2)

/-! ## Measurements (R467) -/

/-- The image in a slot. -/
def imageIn (s : State) (b : Bool) : List Byte := (tabFind s.drover.imgs (b2n b)).getD (Config.slotImage b)

def digestBytes (b : List Byte) : List Byte := toBytes 48 (Config.sha384 b).toNat

/-- What measurement 0x04 covers: Plover weights and thresholds, telemetry rate, active slot, the fused core record. -/
def configList (s : State) : List Nat :=
  weights ++ [s.plover.watch.toNat, s.plover.secure.toNat, s.plover.evacuate.toNat, b2n (fineNow s), b2n s.drover.slotB] ++
  s.fuses.flatMap fun f => [f.1, match f.2 with | .good => 0 | .bad => 1 | .fallow => 2]

/-- Raw block 0x05. -/
def identityBytes (s : State) : List Byte :=
  toBytes 32 (Config.serialNo.toNat + 2 ^ 64 * s.fabric.modid + 2 ^ 80 * b2n s.fabric.modv +
    2 ^ 128 * (bwPair s).1.toNat + 2 ^ 192 * s.fabric.mapEpoch.toNat)

/-- A log entry of 64 bytes. -/
def logEntry (t kind id : Nat) (digest : BitVec 384) (at_ : Nat) : List Byte :=
  toBytes 64 (t + 2 ^ 8 * kind + 2 ^ 32 * id + 2 ^ 64 * digest.toNat + 2 ^ 448 * at_)

/-- The program and weight log, of one tenant or of all (R467, R468). -/
def imageLog (s : State) (who : Option Nat) : List Byte :=
  (s.tenants.filter fun t => match who with | some n => t.1 == n | none => true).flatMap fun t =>
    ((t.2.progs.filter fun p => p.2.loaded).flatMap fun p => logEntry t.1 0 p.1 p.2.digest p.2.at_) ++
    ((t.2.weights.filter fun w => w.2.final).flatMap fun w => logEntry t.1 1 w.1 w.2.digest w.2.at_)

/-- The measurement blocks: index, raw, value. -/
def measurements (s : State) (who : Option Nat) : List (Nat × Bool × List Byte) :=
  [(1, false, digestBytes (imageIn s false)), (2, false, digestBytes (imageIn s true)), (3, false, digestBytes Config.romImage),
   (4, false, digestBytes (Config.droverConfig (configList s))), (5, true, identityBytes s), (6, true, [0x04, 0x10]),
   (0x10, true, imageLog s who)]

def blockBytes (m : Nat × Bool × List Byte) : List Byte := Config.dmtfBlock m.1 m.2.1 m.2.2

def asciiBytes (s : String) : List Byte := s.toList.map fun c => BitVec.ofNat 8 c.toNat

/-- The report of ATTEST_GET (R468). -/
def attestReport (s : State) (t nonce : Nat) : List Byte :=
  let ms := measurements s (some t)
  let body := ms.flatMap blockBytes ++ Config.certChain
  let head := toBytes 64 (64 + body.length + 96 + 2 ^ 32 * ms.length + 2 ^ 64 * nonce + 2 ^ 320 * copyOf s 7)
  let all := head ++ body
  all ++ toBytes 96 (Config.identitySign (asciiBytes "Irsum I4 ATTEST_GET v1" ++ all)).toNat

/-- ATTEST_GET: INTERNAL without an identity (R465). -/
def execAttestGet (e : Entry) (s : State) : Host.Outcome State Fault Refusal :=
  cmd spAttestGet .may false false (fun t s =>
    if !s.drover.identity then (resFail stInternal, s)
    else
      let r := attestReport s t (fld e.body 8 32)
      (.done stOK r.length 0 (some r), s)) e s

end Sys2Proof.Machine
end

