-- ==== Sys2Proof/Machine/Telemetry.lean ====
section
/-! DEFINITION. Counters and telemetry: the sets of TELEM_READ, the 1 ms windows, the 100 ms power windows with the energy of
jobs, and the core map (R233, R422, R470, R475 to R482). -/

namespace Sys2Proof.Machine
open Sys2Proof

/-! ## Counters of the sets (R476 to R478) -/

/-- The SYS numbers of R476 and R477 in order. -/
def ctxSys : List Nat := (List.range 13).map (0x100 + ·)
def coreSys : List Nat :=
  [0x140, 0x141, 0x142, 0x148, 0x149, 0x14A, 0x14B, 0x14C, 0x14D, 0x14E, 0x14F, 0x150, 0x152, 0x154, 0x155, 0x156, 0x158,
   0x159, 0x15A, 0x15B, 0x15C, 0x15D, 0x15E]

def pick (m : Tab Nat) (ks : List Nat) : List Nat := ks.map (look 0 m)

/-- UNIT, with bit 63 set for a unit that has left (R481). -/
def unitWord (gone : Bool) (u : Nat) : Nat := u + 2 ^ 63 * b2n gone

/-- CORE: the tasks of open handles, then the core's own counters. -/
def coreUnits (s : State) (t : Nat) : List (Nat × List Nat) :=
  (s.cores.filter fun k => k.2.tenant == some t).map fun k =>
    (unitWord (k.2.fenced || s.grid.retired.contains k.1) k.1,
     ((k.2.ctxs.filter fun x => x.2.st != .free && (match x.2.task with | some r => r.tenant == t | none => false)).flatMap
       fun x => pick x.2.counters ctxSys) ++ pick k.2.counters coreSys)

/-- The PF counters of a Fold: the sums of its cores' counters, in the order of R276. The FOLD set of R478 does not list
them. -/
def foldPf (s : State) (f : Nat) : List Nat :=
  (List.range 6).map fun i => (s.cores.filter fun k => foldOf s k.1 == f).foldl (fun n k => satAdd n (look 0 k.2.counters (0x158 + i))) 0

/-- The tenant's Fold counters in the order of R191, R234 and R252. -/
def foldUnits (s : State) (t : Nat) : List (Nat × List Nat) :=
  (List.range 48).map fun f => (f, pick (glnOf s f).counters ((List.range 22).map (t * 64 + ·)))

def pagingUnits (s : State) (t : Nat) : List (Nat × List Nat) := [(t, pick (tenantOf s t).pg (List.range 6))]

def dmaUnits (s : State) (t : Nat) : List (Nat × List Nat) :=
  (dmaHeld s t).map fun c => (c, pick (dmaOf s c).counters (List.range 9))

def chanUnits (s : State) (t : Nat) : List (Nat × List Nat) :=
  (s.chans.filter fun c => c.2.valid && c.2.cfg.tenant.toNat == t).map fun c =>
    (unitWord c.2.ended c.1, pick c.2.counters [chSeqDiscard, chEndedDiscard, chSigDiscard, chRedAdded])

/-- OPT_HELD of a tensor stands in the step area, or in its backing copy where the page is not resident (R208, log entry 36). -/
def optHeld (s : State) (t : Nat) (j : Job) (n : Nat) : Nat :=
  match peekPage s t (j.stepVa.toNat + Config.optHeldOff n) 8 with | (_, .ok b) => ofBytes b | _ => 0

/-- ENERGY_KJ: whole kilojoules, rounded down (R480). -/
def energyKj (j : Job) : Nat := satAdd 0 (j.energyNj / 1000000000000)

def jobUnits (s : State) (t : Nat) : List (Nat × List Nat) :=
  (tenantOf s t).jobs.map fun j =>
    (j.1, [j.2.steps, j.2.appliedSteps, j.2.steps - j.2.appliedSteps] ++ (j.2.scales.flatMap fun g => [g.2.skips, g.2.stall]) ++
      (j.2.opts.map fun o => optHeld s t j.2 o.1) ++ [j.2.holdNs, energyKj j.2])

/-- Telemetry numbers of shared units: links from 0, routers, link dies (log entry 44). -/
def sharedUnits (s : State) : List (Nat × List Nat) :=
  (s.links.map fun l => (l.1, pick l.2.counters
    [lnkTx, lnkRx, lnkUncorr, lnkParErr, lnkTagErr, lnkReplay, lnkLasting, lnkRetrain, lnkLaneDrop, lnkFailed, lnkFailover] ++
    (List.range 4).map fun i => l.2.fecCorr.getD i 0)) ++
  (s.planes.flatMap fun p => p.2.routers.map fun r => (0x10000 + p.1 * 0x1000 + r.1, pick r.2.counters (List.range 14))) ++
  s.dies.map fun d => (0x20000 + d.1, pick d.2.counters [dieBadFrame, dieAgeDiscard, dieRedAdded])

/-- Counter-wise sum of lists. -/
def sumLists : List (List Nat) → List Nat
  | [] => []
  | x :: t => let r := sumLists t; (List.range (max x.length r.length)).map fun i => x.getD i 0 + r.getD i 0

def tenantUnits (s : State) (set t : Nat) : List (Nat × List Nat) :=
  match set with
  | 1 => coreUnits s t
  | 2 => foldUnits s t
  | 3 => pagingUnits s t
  | 4 => dmaUnits s t
  | _ => chanUnits s t

/-! ## 1 ms windows (R233, R479) -/

/-- The key of a ring: the set with a tenant, or of the shared set 8 with a unit plus 1, 0 for the module's totals. -/
def ringKey (set a : Nat) : Nat := set * 2 ^ 32 + a

/-- Ring length: the last 1,000 windows at the fine rate, the last 100 at the coarse rate. -/
def ringLen (s : State) : Nat := if fineNow s then 1000 else 100

def lastN {α : Type} (n : Nat) (l : List α) : List α := l.drop (l.length - n)

/-- The totals that get a record in every window. -/
def windowTotals (s : State) : List (Nat × List Nat) :=
  (s.tenants.flatMap fun t => [1, 2, 3, 4, 5].map fun set => (ringKey set t.1, sumLists ((tenantUnits s set t.1).map (·.2)))) ++
  (ringKey 8 0, sumLists ((sharedUnits s).map (·.2))) :: (sharedUnits s).map fun u => (ringKey 8 (u.1 + 1), u.2)

/-- Close the window of one ring: the increase of each counter. -/
def closeRing (start n : Nat) (m : Telem) (e : Nat × List Nat) : Telem :=
  let old := look ([] : List Nat) m.last e.1
  let inc := e.2.zipIdx.map fun c => c.1 - old.getD c.2 0
  { m with rings := put m.rings e.1 (lastN n (look [] m.rings e.1 ++ [(start, inc)])), last := put m.last e.1 e.2 }

/-- The window of a table: the shard with the most rows served, ties to the lower entry, its count, and the mean.
DESIGN CHOICE (log entry 170): the mean rounds down and divides by all shard map entries, those of other modules counting 0. -/
def closeTable (start n : Nat) (x : Table) : Table :=
  let served := x.closing.headD x.served
  let cs := (List.range x.shards.length).map fun k => (k, look 0 served k)
  let best := cs.foldl (fun b c => if b.2 < c.2 then c else b) (0, look 0 served 0)
  let mean := (cs.foldl (fun n c => n + c.2) 0) / max 1 x.shards.length
  { x with served := if x.closing.isEmpty then [] else x.served, closing := x.closing.tail
           busiest := lastN n (x.busiest ++ [(start, best.1, best.2, mean)]) }

/-- The start of the 1 ms window that ended last. -/
def windowStart (s : State) : Nat := s.ftime / 1000000 * 1000000 - 1000000

/-- The 1 ms window from `start` ends: what it has counted is set apart from what the next one counts (R12, R479). -/
def endWindow (start : Nat) (s : State) : State :=
  { s with
    telem := { s.telem with snaps := s.telem.snaps ++ [(start, windowTotals s)] }
    tenants := s.tenants.map fun t => (t.1, { t.2 with tables := t.2.tables.map fun x =>
      (x.1, { x.2 with closing := x.2.closing ++ [x.2.served], served := [] }) }) }

/-- A 1 ms window closes: the record of the oldest window that has ended enters every ring; where none waits, that of the
counters as they stand. -/
def execTelemetryWindowClose (s : State) : Host.Outcome State Fault Refusal :=
  let w := s.telem.snaps.headD (windowStart s, windowTotals s)
  let start := w.1
  let n := ringLen s
  .next { s with
    telem := w.2.foldl (closeRing start n) { s.telem with snaps := s.telem.snaps.tail }
    tenants := s.tenants.map fun t => (t.1, { t.2 with tables := t.2.tables.map fun x => (x.1, closeTable start n x.2) }) }

/-! ## Power windows (R470, R474, R480) -/

/-- The end of the 100 ms window that ended last. -/
def powerEnd (s : State) : Nat := s.ftime / 100000000 * 100000000

/-- The window [t − 100 ms, t) overlaps a scrub: both are half-open (R12, R474). -/
def overlapsScrub (s : State) : Bool :=
  s.tenants.any (fun t => match t.2.scrub with | some b => b.inScrub && decide (b.since < powerEnd s) | none => false) ||
  s.power.scrubs.any fun b => decide (b.1 < powerEnd s) && decide (powerEnd s < b.2 + 100000000)

/-- Core-nanoseconds of every job in the window under way, and those of no job (R480). -/
def spanNow (s : State) : List (Nat × Nat × Nat) × Nat := ((allJobs s).map fun j => (j.1, j.2.1, j.2.2.coreNs), s.telem.idleNs)

/-- The core-nanoseconds of the next window count from zero. -/
def clearSpan (s : State) : State :=
  { s with
    tenants := s.tenants.map fun t => (t.1, { t.2 with jobs := t.2.jobs.map fun j => (j.1, { j.2 with coreNs := 0 }) })
    telem := { s.telem with idleNs := 0 } }

/-- A power window ends: what it has counted is set apart from what the next one counts (R12). -/
def endSpan (s : State) : State :=
  clearSpan { s with telem := { s.telem with spans := s.telem.spans ++ [spanNow s] } }

/-- The energy of a window divided among jobs by core-nanoseconds, in nJ rounded down (R480, log entry 43). -/
def shareEnergy (energyJ : Nat) (w : List (Nat × Nat × Nat) × Nat) (s : State) : State :=
  let all := max 1 (w.1.foldl (fun n j => n + j.2.2) 0 + w.2)
  let share := fun (t j : Nat) => (w.1.filter fun x => x.1 == t && x.2.1 == j).foldl (fun n x => n + x.2.2) 0
  { s with
    tenants := s.tenants.map fun t => (t.1, { t.2 with jobs := t.2.jobs.map fun j =>
      (j.1, { j.2 with energyNj := j.2.energyNj + energyJ * 1000000000 * share t.1 j.1 / all }) }) }

/-- A 100 ms window ends: readings are published, unless a scrub freezes them, and energy is attributed (R470, R474,
R480). Power is published in steps of 10 W. -/
def execPowerWindowClose (energyJ watts : Nat) (sensors : List Int) (s : State) : Host.Outcome State Fault Refusal :=
  let s1 := match s.telem.spans with
    | w :: rest => shareEnergy energyJ w { s with telem := { s.telem with spans := rest } }
    | [] => clearSpan (shareEnergy energyJ (spanNow s) s)
  let kept := s.power.scrubs.filter fun b => decide (powerEnd s < b.2)
  .next (if overlapsScrub s then { s1 with power := { s1.power with scrubs := kept } }
         else { s1 with power := { s1.power with scrubs := kept, winW := watts / 10 * 10, sensors := sensors } })

/-! ## TELEM_READ (R478, R481) -/

/-- A record: 8-byte fields, padded to a multiple of 64 bytes; a counter stays at 2^64 − 1 (R475). -/
def record (l : List Nat) : List Byte :=
  let b := l.flatMap fun n => toBytes 8 (satAdd 0 n)
  b ++ List.replicate ((64 - b.length % 64) % 64) 0

def exact (l : List (Nat × List Nat)) : List (List Nat) := l.map fun u => u.1 :: u.2

def ringRecords (s : State) (key unit : Nat) : List (List Nat) :=
  (look [] s.telem.rings key).map fun w => unit :: w.1 :: w.2

/-- MEMORY: corrections, transient and lasting errors and retired frames per stack; the Far fields of R280. -/
def memoryRecords (s : State) : List (List Nat) :=
  (List.range 10).map fun k =>
    [k, look 0 s.telem.stackCorrected k, look 0 s.telem.stackTransient k, look 0 s.telem.stackLasting k,
     (s.frames.filter fun f => f.2.retired && portOfFrame f.1 == k).length] ++
    (if k = 9 then [s.far.host, s.far.media, lifeUsed s, farBudget s, s.far.spare] else [])
where
  /-- FAR_BUDGET: media bytes of the last 24 h over the daily share of 60,000 TiB in 12 years, in 1/1,000 (R280). -/
  farBudget (s : State) : Nat :=
    let day := ((s.far.recent.filter fun e => decide (s.ftime < e.1 + 86400000000000)).foldl (fun n e => n + e.2) 0)
    day * 1000 * 12 * 1461 / (60000 * 2 ^ 40 * 4)

def powerRecord (s : State) : List Nat :=
  [0, s.power.winW] ++ s.power.sensors.map (lowBits 64) ++ [lowBits 64 s.fabric.ppsOffset, b2n s.fabric.holdover]

/-- HEALTH, with the history of R482 after it. -/
def healthRecord (s : State) : List Nat :=
  [0, s.plover.risk.toNat, s.plover.level.toNat] ++ pick s.plover.subs (List.range 9) ++
  [s.drover.mismatchCount, s.grid.fallow.length,
   s.planes.foldl (fun n p => n + p.2.routers.foldl (fun n r => n + look 0 r.2.counters arbBites) 0) 0,
   s.grid.mapVersion.toNat] ++ s.plover.history.map (·.toNat)

/-- SHARED: what no rule defines of it, the request and byte counts of the ports, is a free value (log entry 44). -/
def sharedRecords (s : State) (pf : Bool) : List (List Nat) × State :=
  let v := freeValue s
  let port := fun (p : Nat) => (look [] s.telem.rings (ringKey 8 0)).map fun w =>
    [0x30000 + p, w.1, (Config.freeWord (v.1.toNat + 2 * p)).toNat, (Config.freeWord (v.1.toNat + 2 * p + 1)).toNat]
  (if pf then ((sharedUnits s).flatMap fun u => ringRecords s (ringKey 8 (u.1 + 1)) u.1) ++ (List.range 13).flatMap port
   else ringRecords s (ringKey 8 0) 0, v.2)

/-- The records of a set for a reader: `pf` the PF, `own` the reader's own tenant; none where it is withheld. -/
def setRecords (s : State) (set t : Nat) (pf own : Bool) : Option (List (List Nat) × State) :=
  match set with
  | 6 => some (if own then exact (jobUnits s t) else (tenantOf s t).jobs.map fun j => [j.1, energyKj j.2], s)
  | 7 => if own then some ((tenantOf s t).tables.flatMap fun x => x.2.busiest.map fun w => [x.1, w.1, w.2.1, w.2.2.1, w.2.2.2], s)
         else none
  | 8 => some (sharedRecords s pf)
  | 9 => if pf then some (memoryRecords s, s) else none
  | 10 => if pf then some ([powerRecord s], s) else none
  | 11 => if pf then some ([healthRecord s], s) else none
  | _ => some (if own then exact (tenantUnits s set t) else ringRecords s (ringKey set t) t, s)

/-- The data of a read: a 64-byte header, then the records. -/
def telemData (s : State) (set : Nat) (rs : List (List Nat)) : List Byte :=
  toBytes 64 (set + 2 ^ 32 * rs.length + 2 ^ 64 * copyOf s 7 + 2 ^ 128 * b2n (fineNow s)) ++ rs.flatMap record

/-- TELEM_READ: BAD_FIELD for a reserved SET, DENIED for one withheld from the function or another tenant named by a VF. -/
def execTelemRead (e : Entry) (s : State) : Host.Outcome State Fault Refusal :=
  let set := fld e.body 8 2
  let tn := fld e.body 10 1
  cmd spTelemRead .never false (set == 0 || decide (11 < set) || (decide (64 ≤ tn) && tn != 0xFF)) (fun t s =>
    let who := if tn = 0xFF then t else tn
    if e.fn ≠ 0 ∧ who ≠ t then (resFail stDenied, s)
    else match setRecords s set who (e.fn == 0) (who == t) with
    | none => (resFail stDenied, s)
    | some r => (.done stOK (telemData s set r.1).length 0 (some (telemData s set r.1)), r.2)) e s

/-- TELEM_RATE: the fine or the coarse rate (R482). -/
def execTelemRate (e : Entry) (s : State) : Host.Outcome State Fault Refusal :=
  let v := fld e.body 0 1
  cmd spTelemRate .never false (decide (1 < v)) (fun _ s =>
    (resOk, { s with drover := { s.drover with fineRate := v == 1 } })) e s

/-- The 4 bytes of a logical core in the core map (R422). -/
def coreMapWord (s : State) (c : Nat) : Nat :=
  if s.grid.retired.contains c then 2 ^ 9
  else match tabFind s.grid.map c with
    | some p => p.1 + 16 * p.2
    | none => 2 ^ 9

/-- CORE_MAP: VERSION, the number of logical cores, and their places. -/
def execCoreMap (e : Entry) (s : State) : Host.Outcome State Fault Refusal :=
  cmd spCoreMap .never false false (fun _ s =>
    let d := toBytes 16 (s.grid.mapVersion.toNat + 2 ^ 16 * Config.nCores) ++
      (List.range Config.nCores).flatMap fun c => toBytes 4 (coreMapWord s c)
    (.done stOK d.length 0 (some d), s)) e s

end Sys2Proof.Machine
end

