-- ==== Sys2Proof/Machine/Power.lean ====
section
/-! DEFINITION. Power, clocks, temperature, the resets, the boot, and the PCIe domain (R399, R400, R484 to R502,
R510, R512). -/

namespace Sys2Proof.Machine
open Sys2Proof

/-! ## Bands, droops and the governor (R487, R491, R494) -/

def onBand (s : State) (b : Nat) (g : Band → Band) : State :=
  match tabFind s.bands b with
  | some x => { s with bands := put s.bands b (g x) }
  | none => s

/-- Every 10 µs: the level rises by one step while a limit is at risk, and falls by one step per 100 µs after (R487). -/
def execGovernorSample (watts : Nat) (atRisk : Bool) (s : State) : Host.Outcome State Fault Refusal :=
  let p := { s.power with watts := watts }
  if s.power.groupsUp = 0 then .next s
  else if atRisk then .next { s with power := { p with level := min 7 (p.level + 1), since := 0 } }
  else if p.since + 1 < 10 then .next { s with power := { p with since := p.since + 1 } }
  else .next { s with power := { p with level := p.level - 1, since := 0 } }

/-- A detector of a running band sees a droop: the clock is stretched, and a droop seen while it is counts as the same event
(R491). -/
def execDroopEvent (band : Nat) (s : State) : Host.Outcome State Fault Refusal :=
  match tabFind s.bands band with
  | none => .next s
  | some b =>
    if b.stopped || b.stretch then .next s
    else .next { onBand s band fun b => { b with stretch := true } with
                 plover := { s.plover with droops := s.plover.droops + 1 } }

def execClockStretchEnd (band : Nat) (s : State) : Host.Outcome State Fault Refusal :=
  .next (onBand s band fun b => { b with stretch := false })

/-- Uango starts a change: VCORE rises first, then the clock stops for the relock; bands change one at a time (R494). -/
def execCclkChange (band units : Nat) (s : State) : Host.Outcome State Fault Refusal :=
  if !uangoUp s || decide (units < 20 ∨ 54 < units) || s.bands.any (fun b => b.2.stopped) then .next s
  else .next (onBand s band fun b =>
    { b with stopped := true, next := units, vcore := if b.units < units then Config.vcoreSet units else b.vcore })

/-- The clock restarts at the new frequency; VCORE falls after the restart (R494). -/
def execPllRelockComplete (band : Nat) (s : State) : Host.Outcome State Fault Refusal :=
  .next (onBand s band fun b =>
    if b.stopped && decide (0 < b.next) then
      { b with stopped := false, units := b.next, next := 0, vcore := Config.vcoreSet b.next }
    else b)

/-! ## Lands (R486, R497, R510) -/

/-- The power class in force: 0b00 applies 0b01, and a low input applies 0b01 (R486, R489). -/
def powerClass (s : State) : Nat :=
  if s.power.lowClass ∨ s.power.pwrSel = 0 then 1 else s.power.pwrSel.toNat

/-- The limits of the class in watts: sustained and peak (R486). -/
def powerLimits (s : State) : Nat × Nat :=
  match powerClass s with | 3 => (1500, 1650) | 2 => (1200, 1320) | _ => (900, 990)

/-- FAULT# is asserted (R497). -/
def faultLand (s : State) : Bool :=
  s.power.fault || (funcOf s 0).fstate == .recovery || (funcOf s 0).fstate == .lost

/-- The 7-bit address of both SMBus ports (R510). -/
def smbAddress (s : State) : Nat := 0x60 + s.power.slotId.toNat

/-! ## Links under scan (R512) -/

/-- A land-driving instruction is loaded and PERST# is asserted. -/
def scanActive (s : State) : Bool :=
  s.pcie.perst && (s.side.jtag == .extest || s.side.jtag == .clamp || s.side.jtag == .highz)

/-- Every link is held DISABLED and posts its link event. -/
def holdLinks (s : State) : State :=
  if !scanActive s then s
  else (List.range 32).foldl (fun s l =>
    if (linkOf s l).scanHeld then s
    else
      let s1 := linkDown s l .disabled
      linkEvent (setLink s1 l { linkOf s1 l with scanHeld := true, lanes := 0 }) l) s

/-- A link that Uango enables enters TRAIN. -/
def trainLink (s : State) (l : Nat) : State :=
  let x := linkOf s l
  if x.st == .disabled && !x.byUango && !x.scanHeld then setLink s l { x with st := .train, trainFails := 0 } else s

/-- The scan releases the lands: Uango moves every link it had not disabled itself to TRAIN; before step 10 of the boot, and
out of service, they stay DISABLED. -/
def releaseLinks (s : State) : State :=
  if scanActive s then s
  else (List.range 32).foldl (fun s l =>
    let x := linkOf s l
    if !x.scanHeld then s
    else
      let s1 := setLink s l { x with scanHeld := false }
      if decide (10 ≤ s.drover.step) && !s.drover.outOfService then trainLink s1 l else s1) s

/-- Load a JTAG instruction. -/
def loadJtag (s : State) (j : Jtag) (dr : Word32) : State :=
  releaseLinks (holdLinks { s with side := { s.side with jtag := j, dr := dr } })

/-! ## The module reset (R498) -/

/-- What is left of a tenant: its checkpoints in the Far tier. -/
def leftTenant (x : Tenant) : Tenant :=
  { ckpts := x.ckpts.map fun c => { c with open_ := none, redo := [], full := true }, mirrored := x.mirrored }

/-- Frames that Uango has recorded stay recorded or retired (R278); every key entry returns to its reset value. -/
def leftFrames (m : Tab Frame) : Tab Frame :=
  (m.filter fun f => f.2.recorded || f.2.retired).map fun f => (f.1, { recorded := f.2.recorded, retired := f.2.retired })

/-- Every domain but the always-on island resets. What survives: fuses, flash, Far contents, fabric time, sideband
addresses, THERM_ALERT# and FAULT#. The rails of groups 2 to 4 stay up, or fall. -/
def moduleReset (rails : Bool) (s : State) : State :=
  let r : State :=
    { pending := s.pending, free := s.free, nextId := s.nextId, ftime := s.ftime
      mem := s.mem.filter fun c => tierOf c.1 == some 2
      badUnits := s.badUnits, frames := leftFrames s.frames, far := s.far, fuses := s.fuses
      tenants := (s.tenants.filter fun t => !(t.2.ckpts.isEmpty && t.2.mirrored.isEmpty)).map fun t => (t.1, leftTenant t.2)
      drover := { step := if rails then 3 else 0, moduleReset := true, slotB := s.drover.slotB, imgs := s.drover.imgs
                  imgBuild := s.drover.imgBuild }
      power := { s.power with groupsUp := if rails then 4 else 1 }
      pcie := { perst := s.pcie.perst, since := s.ftime }
      side := { s.side with a := { s.side.a with spdm := {} }, b := { s.side.b with spdm := {} }, doe := {} } }
  holdLinks r

/-- The always-on island runs and the input stands in its range. -/
def powered (s : State) : Bool := s.power.groupsUp != 0 && (s.power.vin == .good || s.power.vin == .low)

def execModuleReset (s : State) : Host.Outcome State Fault Refusal :=
  if powered s && decide (3 ≤ s.drover.step) then .next (moduleReset true s) else .next s

/-- The recovery ROM has reported no progress for 2 s (R498). -/
def execAonWatchdogExpiry (s : State) : Host.Outcome State Fault Refusal :=
  if powered s && decide (3 ≤ s.drover.step) && s.drover.romRunning then .next (moduleReset true s) else .next s

/-! ## The input (R485, R486, R489, R510) -/

/-- VIN has stood at 40 V for 1 ms. After an absent input it is a power-on: the straps are sampled and group 1 ramps. After an
undervoltage the always-on island has run on, and groups 2 to 4 ramp. -/
def execVinGood (pwrSel : BitVec 2) (slotId : BitVec 3) (s : State) : Host.Outcome State Fault Refusal :=
  match s.power.vin with
  | .absent => .next { s with ftime := 0, drover := { s.drover with step := 1 }
                              power := { s.power with vin := .good, pwrSel := pwrSel, slotId := slotId, groupsUp := 0 } }
  | .under => .next { s with power := { s.power with vin := .good, fault := s.power.tripped }
                             drover := { s.drover with step := if s.power.tripped then 0 else 2 } }
  | _ => .next s

/-- 36 to 40 V for 1 ms: the limits of class 0b01 apply. -/
def execVinLow (s : State) : Host.Outcome State Fault Refusal :=
  if s.power.vin = .good then .next { s with power := { s.power with vin := .low, lowClass := true } } else .next s

/-- Below 36 V for 1 ms. -/
def execVinUndervolt (s : State) : Host.Outcome State Fault Refusal :=
  if !powered s then .next s
  else
    let s1 := moduleReset false s
    .next { s1 with power := { s1.power with vin := .under, fault := true } }

/-- Above 62 V for 100 µs: conversion stops. -/
def execVinOvervolt (s : State) : Host.Outcome State Fault Refusal :=
  if !powered s then .next s
  else
    let s1 := moduleReset false s
    .next { s1 with power := { s1.power with vin := .over, fault := true } }

/-- VIN has stood in its range for 1 s. -/
def execVinRestored (s : State) : Host.Outcome State Fault Refusal :=
  match s.power.vin with
  | .low => .next { s with power := { s.power with vin := .good, lowClass := false } }
  | .good => .next { s with power := { s.power with lowClass := false } }
  | .over => .next { s with power := { s.power with vin := .good, lowClass := false, fault := s.power.tripped }
                            drover := { s.drover with step := if s.power.tripped then 0 else 2 } }
  | _ => .next s

/-- A group is within tolerance; the next is raised, and after group 4 Drover leaves reset (R485, R500 steps 2 and 3). -/
def execRailsInTolerance (group : Nat) (s : State) : Host.Outcome State Fault Refusal :=
  let p := s.power
  if (p.vin = .good ∨ p.vin = .low) ∧ group = p.groupsUp + 1 ∧ group ≤ 4 ∧ (s.drover.step = 1 ∨ s.drover.step = 2) then
    .next { s with power := { p with groupsUp := group }, drover := { s.drover with step := if group = 4 then 3 else 2 } }
  else .next s

/-! ## Temperature (R495 to R497) -/

/-- Throttle point and trip point of a sensor: 24 of the bands, 8 of the link dies, 8 of HBM, 16 of LPDDR, 4 of Far. -/
def sensorPoints (i : Nat) : Int × Option Int :=
  if i < 24 then (95, some 110) else if i < 32 then (100, some 115) else if i < 40 then (85, some 95)
  else if i < 56 then (95, some 105) else (70, none)

def nSensors : Nat := 60

/-- A sensor at or above its trip point. -/
def atTrip (i : Nat) (t : Int) : Bool := match (sensorPoints i).2 with | some p => decide (p ≤ t) | none => false

/-- Readings 3 K below the throttle point in a row, while the action is applied; 10 of them end it. -/
def coolCount (p : Power) (i : Nat) (t : Int) : Nat :=
  if p.throttle.contains i && decide (t ≤ (sensorPoints i).1 - 3) then look 0 p.coolMs i + 1 else 0

/-- The throttle action of a sensor after a reading. -/
def throttled (p : Power) (i : Nat) (t : Int) : Bool :=
  decide ((sensorPoints i).1 ≤ t) || (p.throttle.contains i && decide (coolCount p i t < 10))

/-- THERM_ALERT#: asserted within 5 K of a throttle point, released 8 K below all of them (R497). -/
def alertNext (was : Bool) (temps : List (Int × Nat)) : Bool :=
  temps.any (fun e => decide ((sensorPoints e.2).1 - 5 ≤ e.1)) ||
  (was && !temps.all fun e => decide (e.1 ≤ (sensorPoints e.2).1 - 8))

/-- Far writes wait from 85 °C until the sensors are below 80 °C (R495). -/
def farWaits (was : Bool) (temps : List (Int × Nat)) : Bool :=
  let far := temps.filter fun e => decide (56 ≤ e.2)
  far.any (fun e => decide (85 ≤ e.1)) || (was && far.any fun e => decide (80 ≤ e.1))

/-- The THERMAL input of R437: the least distance to a throttle point. -/
def thermalMargin (temps : List (Int × Nat)) : Int :=
  temps.foldl (fun m e => min m ((sensorPoints e.2).1 - e.1)) ((sensorPoints 0).1 - (temps.headD (0, 0)).1)

/-- Level 7 is applied to a band from 100 °C until its throttle action ends (R495). -/
def bandGated (temps : List (Int × Nat)) (throttle : List Nat) (b : Nat) (was : Bool) : Bool :=
  temps.any (fun e => decide (e.2 / 4 = b) && decide (100 ≤ e.1)) || (was && throttle.any fun i => decide (i / 4 = b))

/-- The actions of R495 after a reading. -/
def applyReading (temps : List (Int × Nat)) (s : State) : State :=
  let p := s.power
  let throttle := (temps.filter fun e => throttled p e.2 e.1).map (·.2)
  { s with
    power := { p with
      temps := temps.map (·.1), throttle := throttle
      coolMs := temps.foldl (fun m e => put m e.2 (coolCount p e.2 e.1)) []
      tripCount := temps.foldl (fun m e => put m e.2 (if atTrip e.2 e.1 then look 0 p.tripCount e.2 + 1 else 0)) []
      thermAlert := alertNext p.thermAlert temps, farWait := farWaits p.farWait temps }
    plover := { s.plover with thermMargin := thermalMargin temps }
    bands := s.bands.map fun b => (b.1, { b.2 with gated := bandGated temps throttle b.1 b.2.gated }) }

/-- Cooling after a trip: 10 s with every sensor at 70 °C or below end it, and the rails come up again (R496). -/
def coolDown (temps : List (Int × Nat)) (s : State) : State :=
  let p := s.power
  if !p.tripped then s
  else if !temps.all (fun e => decide (e.1 ≤ 70)) then { s with power := { p with coolFor := 0 } }
  else if p.coolFor + 1 < 10000 then { s with power := { p with coolFor := p.coolFor + 1 } }
  else
    let ok := p.vin == .good || p.vin == .low
    { s with power := { p with tripped := false, coolFor := 0, fault := !ok }
             drover := { s.drover with step := if ok then 2 else 0 } }

/-- Every 1 ms the sensors are read. Three readings in a row at a trip point reset the module (R496). -/
def execThermalReading (temps : List Int) (s : State) : Host.Outcome State Fault Refusal :=
  let l := temps.zipIdx
  if s.power.groupsUp = 0 ∨ temps.length ≠ nSensors then .next s
  else
    let s1 := coolDown l (applyReading l s)
    if !s1.power.tripped && s1.power.tripCount.any (fun e => decide (3 ≤ e.2)) then
      let s2 := moduleReset false s1
      .next { s2 with power := { s2.power with tripped := true, fault := true, coolFor := 0 } }
    else .next s1

/-! ## Boot (R500 to R502) -/

/-- Steps 4 to 6: the ROM reconstructs the PUF key, checks the active slot, or else the other, and starts Uango; with neither
signed the functions show RECOVERY (R502). -/
def execUangoStarted (pufOk sigA sigB : Bool) (s : State) : Host.Outcome State Fault Refusal :=
  if s.drover.step ≠ 3 then .next s
  else
    let active := if s.drover.slotB then sigB else sigA
    let other := if s.drover.slotB then sigA else sigB
    let s1 := { s with drover := { s.drover with identity := pufOk, step := 4 } }
    if active then .next (setRom (uangoStart s1) false false)
    else if other then .next (setRom (uangoStart { s1 with drover := { s1.drover with slotB := !s1.drover.slotB } }) false false)
    else .next { enterRecovery s1 with pcie := { s1.pcie with crs := false } }

/-- Step 1 of R472 for a tenant with an ending mark: its salt goes, and with it what its storage key protected. -/
def finishMark (s : State) (t : Nat) : State :=
  let s1 := eraseSalt s t
  storeRecord { s1 with tenants := del s1.tenants t } { s1.far with endingMarks := s1.far.endingMarks.filter (· != t) } Config.farRecordBytes

/-- Steps 7 and 8: Uango reads its Far records. After a power-on the stored fabric time is loaded; the module gives itself its
stored ID, or 0 (R361, R378). -/
def execFarControllerReady (s : State) : Host.Outcome State Fault Refusal :=
  if s.drover.step ≠ 6 || !uangoUp s then .next s
  else
    let f := s.far
    let now := if s.drover.moduleReset ∨ f.ftime = 0 then s.ftime else f.ftime
    let s1 := { s with ftime := now, pcie := { s.pcie with since := s.pcie.since + now - s.ftime }
                       grid := { s.grid with map := f.coreMap.getD [], fallow := f.fallow, bad := f.badCores, retired := f.retired }
                       fabric := { s.fabric with map := f.map, groups := f.groups, mapEpoch := f.mapEpoch, storedEpoch := f.mapEpoch } }
    let s2 := takeId s1 (f.modid.getD 0)
    let s3 := f.endingMarks.foldl finishMark s2
    .next { s3 with drover := { s3.drover with step := 8 } }

/-- Physical cores in order of Fold ID and local index. -/
def allPhysical : List (Nat × Nat) :=
  (List.range 48).flatMap fun f => (List.range 8).map fun i => (f % 8 * 2 + i % 2, f / 8 * 4 + i / 2)

def fuseOf (s : State) (q : Nat × Nat) : Fuse := look .good s.fuses (q.2 * 16 + q.1)

/-- The first boot numbers the cores from the fuses (R20, R501); a later boot has the stored map. -/
def numberCores (s : State) : State :=
  if s.far.coreMap.isSome then s
  else
    let good := allPhysical.filter fun q => fuseOf s q == .good
    let g := { s.grid with
      map := ((good.take 352).zipIdx).map fun e => (e.2, e.1)
      fallow := allPhysical.filter fun q => fuseOf s q == .fallow || (good.drop 352).contains q
      bad := allPhysical.filter fun q => fuseOf s q == .bad }
    storeRecord { s with grid := g } { s.far with coreMap := some g.map, fallow := g.fallow, badCores := g.bad } Config.farRecordBytes

/-- A Fallow core that fails its self-test is bad at once (R501). -/
def dropFallow (s : State) (q : Nat × Nat) : State :=
  if s.grid.fallow.contains q then
    publishMap { s with grid := { s.grid with fallow := s.grid.fallow.erase q, bad := s.grid.bad ++ [q] } }
  else s

/-- A numbered core that fails its self-test is handled as a failed core (R21, R22, R501). -/
def replaceFailed (s : State) (q : Nat × Nat) : State :=
  match s.grid.map.find? (fun e => e.2 == q && !s.grid.retired.contains e.1) with
  | none => s
  | some e => match chooseFallow s e.1 with
    | some n => substitute s e.1 n.1 n.2
    | none => retireCore s e.1

/-- Uango's frame of the distance table, written in step 9 (R290). -/
def placeDist (s : State) : State :=
  match freeFrame (usedFrames s) 0 0 with
  | none => s
  | some f => writeDist { s with frames := put s.frames f { look {} s.frames f with keyTag := 0x80 }
                                 grid := { s.grid with distFrame := some f } } 0

/-- Steps 9 and 10: cores are numbered and tested, and every link that is not FAILED enters TRAIN. A memory that fails training
takes the module out of service (R282, R502). `selfTestFail` names physical cores by y × 16 + x. -/
def execMemoryTrainingComplete (stackFail : BitVec 8) (midOk farOk : Bool) (selfTestFail : List Nat) (s : State) :
    Host.Outcome State Fault Refusal :=
  if !uangoUp s || !(s.drover.step = 8 || (s.drover.step = 6 && !farOk)) then .next s
  else
    let qs := (selfTestFail.filter (· < 384)).map fun n => (n % 16, n / 16)
    let s1 := if farOk then qs.foldl replaceFailed (qs.foldl dropFallow (placeDist (numberCores s))) else s
    let s2 := { s1 with drover := { s1.drover with step := 10 } }
    if stackFail = 0 && midOk && farOk then .next ((List.range 32).foldl trainLink s2)
    else .next { s2 with drover := { s2.drover with outOfService := true, lostUntold := List.range 64 } }

/-- A function leaves BOOTING for IDLE, or for LOST (R500 step 11, R502). -/
def leaveBooting (lost : Bool) (f : Func) : Func :=
  if f.fstate == .booting then { f with fstate := if lost then .lost else .idle } else f

def execBootComplete (s : State) : Host.Outcome State Fault Refusal :=
  if !uangoUp s || s.drover.step != 10 || (funcOf s 0).fstate != .booting then .next s
  else
    let s1 := onPresent (leaveBooting s.drover.outOfService) { s with drover := { s.drover with step := 11 } }
    .next (setRom { s1 with pcie := { s1.pcie with crs := false } } false true)

/-- 900 ms after PERST# is deasserted Uango is not ready: the ROM presents RECOVERY (R399). After a module reset with PERST# high
the time counts from that reset (log entry 197). -/
def execCrsTimeout (s : State) : Host.Outcome State Fault Refusal :=
  if s.pcie.crs && !s.pcie.perst && decide (s.pcie.since + 900000000 ≤ s.ftime) && decide (3 ≤ s.drover.step ∧ s.drover.step < 11) && (funcOf s 0).fstate == .booting then
    .next { enterRecovery s with pcie := { s.pcie with crs := false } }
  else .next s

/-- Every 1 s Uango writes the fabric time to its Far records (R500). -/
def execFabricTimeStore (s : State) : Host.Outcome State Fault Refusal :=
  if uangoUp s && decide (7 ≤ s.drover.step) then .next (storeRecord s { s.far with ftime := s.ftime } 8) else .next s

/-! ## The PCIe domain (R397 to R400, R426, R498, R499) -/

/-- A function whose BAR0 registers, rings, session and MSI-X table are at reset. -/
def bareFunc (f : Func) : Func := { fstate := f.fstate, prior := f.prior }

/-- VF Enable falls, but no tenant ends (R499). -/
def pcieReset (s : State) : State :=
  { s with funcs := s.funcs.map fun f => (f.1, bareFunc f.2)
           pcie := { perst := s.pcie.perst, since := s.pcie.since, answers := s.pcie.answers }
           side := { s.side with doe := {} }
           drover := { s.drover with diagUnlocked := s.drover.diagUnlocked.erase 2 } }

def execPerstAssert (s : State) : Host.Outcome State Fault Refusal :=
  if s.pcie.perst then .next s
  else
    let s1 := settleSwitch (pcieReset s)
    .next (holdLinks { s1 with pcie := { s1.pcie with perst := true } })

/-- Training starts, and configuration requests are answered with Retry Status (R399, R499). -/
def execPerstDeassert (s : State) : Host.Outcome State Fault Refusal :=
  if !s.pcie.perst then .next s
  else .next (releaseLinks { s with pcie := { s.pcie with perst := false, since := s.ftime } })

def execHotReset (s : State) : Host.Outcome State Fault Refusal :=
  if s.pcie.up then .next (settleSwitch (pcieReset s)) else .next s

def execPcieLinkDown (s : State) : Host.Outcome State Fault Refusal :=
  if s.pcie.up then .next (settleSwitch (pcieReset s)) else .next s

/-- Training ends at a rate and width of R397; Retry Status ends unless a boot is under way (R399, R499). -/
def execPcieLinkUp (gen width : Nat) (s : State) : Host.Outcome State Fault Refusal :=
  if s.pcie.perst || s.pcie.up || s.drover.step < 3 || !([3, 4, 5].contains gen && [4, 8, 16].contains width) then .next s
  else .next { s with pcie := { s.pcie with up := true, gen := gen, width := width
                                            crs := s.pcie.crs && (funcOf s 0).fstate == .booting } }

/-- Vendor ID, device ID and class code of a function (R397): bits 15:0, 31:16 and 55:32. -/
def pcieIdentity (fn : Nat) : Word64 := BitVec.ofNat 64 (0x1F4B + 2 ^ 16 * (if fn = 0 then 0x0140 else 0x0141) + 2 ^ 32 * 0x120000)

/-- The value of a configuration request; of a register that PCIe lays down it is a free value (R397). -/
def cfgValue (fn : Nat) (req : CfgReq) (s : State) : Word64 × State :=
  match req with
  | .identity => (pcieIdentity fn, s)
  | .bar2Size n => (BitVec.ofNat 64 n, s)
  | .other => freeValue s

/-- A configuration request is answered, or answered with Retry Status; an absent function gives no answer of its own. BAR2 takes a
size from 1 GiB to 64 GiB (R397). -/
def execConfigurationRequest (fn : Nat) (req : CfgReq) (s : State) : Host.Outcome State Fault Refusal :=
  let answer := fun (v : Option Word64) (s : State) => { s with pcie := { s.pcie with answers := s.pcie.answers ++ [(fn, v)] } }
  if !s.pcie.up || !fnPresent s fn then .next s
  else if s.pcie.crs then .next (answer none s)
  else
    let r := cfgValue fn req s
    .next (answer (some r.1) (match req with
      | .bar2Size n => if 30 ≤ n ∧ n ≤ 36 then onFunc r.2 fn fun f => { f with barLog2 := n } else r.2
      | _ => r.2))

/-- The function's tenant can be ended: Uango has brought the functions up. -/
def endable (f : Func) : Bool :=
  match f.fstate with | .idle => true | .ready => true | .ending => true | .scrub => true | _ => false

/-- End the tenant as TENANT_END does. A function that shows UPDATING or RECOVERY goes on to show it, and returns to ENDING. -/
def endTenant (s : State) (fn : Nat) (gone : Bool) : State :=
  let f := funcOf s fn
  if endable f then beginEnd s fn gone
  else if (f.fstate == .updating || f.fstate == .recovery) && endable { f with fstate := f.prior } then
    let s1 := beginEnd s fn gone
    onFunc s1 fn fun g => { g with fstate := f.fstate, prior := g.fstate }
  else s

/-- FLR (R400): the registers are reset, the session closes, and no response is written. -/
def execFunctionLevelReset (fn : Nat) (s : State) : Host.Outcome State Fault Refusal :=
  if !fnPresent s fn || s.pcie.perst then .next s
  else .next (settleSwitch (onFunc (endTenant s fn false) fn fun f => { bareFunc f with barLog2 := f.barLog2 }))

/-- A VF as it is enabled: in the state of the PF while Uango boots, updates or is lost, else IDLE or READY by its tenant's
allotments. -/
def newVf (s : State) (n : Nat) : Func :=
  let st := if (allots (tenantOf s n)).all (· == 0) then FState.idle else .ready
  match (funcOf s 0).fstate with
  | .booting => { fstate := .booting }
  | .recovery => { fstate := .recovery, prior := if s.drover.step < 11 then .booting else st }
  | .updating => { fstate := .updating, prior := if s.drover.step < 11 then .booting else st }
  | .lost => { fstate := .lost }
  | _ => { fstate := st }

/-- VF `n` is attached to tenant `n` (R499). -/
def attachVf (s : State) (n : Nat) : State :=
  match tabFind s.funcs n with
  | some _ => match (tenantOf s n).scrub with
    | some b => setTenant s n { tenantOf s n with scrub := some { b with gone := false } }
    | none => s
  | none => setFunc s n (newVf s n)

def execVfEnable (num : Nat) (s : State) : Host.Outcome State Fault Refusal :=
  if !s.pcie.up || s.pcie.vfEnable || decide (num < 1 ∨ 63 < num) then .next s
  else .next (((List.range num).map (· + 1)).foldl attachVf
    { s with pcie := { s.pcie with vfEnable := true, numVfs := num } })

/-- VF Enable goes from 1 to 0: each VF's tenant ends, and the VF becomes absent (R426). -/
def execVfDisable (s : State) : Host.Outcome State Fault Refusal :=
  if !s.pcie.vfEnable then .next s
  else
    let one := fun (s : State) (n : Nat) =>
      let s1 := endTenant s n true
      if (tenantOf s1 n).scrub.isSome then onFunc s1 n bareFunc else { s1 with funcs := del s1.funcs n }
    let s1 := ((List.range s.pcie.numVfs).map (· + 1)).foldl one s
    .next (settleSwitch { s1 with pcie := { s1.pcie with vfEnable := false, numVfs := 0 } })

/-! ## Reads of BAR0 (R401) -/

/-- The 64 bytes of an event record (R405). -/
def eventWord (e : Ev) : Nat :=
  e.code.toNat + 2 ^ 16 * e.verMinor.toNat + 2 ^ 24 * e.verMajor.toNat + 2 ^ 32 * e.eseq.toNat + 2 ^ 48 * b2n e.phase +
    2 ^ 64 * e.stamp + 2 ^ 128 * e.body.toNat

/-- What the 8 bytes at an offset of BAR0 read as (R8, R401): a write-only register, a reserved offset and, on a VF, a range of the PF
alone read as zero. `none`: the function is in RECOVERY and the register does not answer (R399). -/
def readReg0 (s : State) (fn off : Nat) : Option Word64 :=
  let f := funcOf s fn
  let w := fun (fs : List (Nat × Nat)) => BitVec.ofNat 64 (fs.foldl (fun n e => n + 2 ^ e.1 * e.2) 0)
  if off = 0x0000 then some (w [(0, 0x04), (8, 0x10), (16, fn), (24, fn), (32, fstateCode f.fstate)])
  else if off = 0x0008 then some Config.serialNo
  else if off = 0x0010 then some (w [(0, 1), (8, Config.minor), (16, f.sMajor.toNat), (24, f.sMinor.toNat), (32, s.fabric.modid),
    (42, b2n s.fabric.modv)])
  else if off = 0x0018 then some (w [(0, (buildOf s s.drover.slotB).toNat), (32, b2n s.drover.slotB)])
  else if fn = 0 ∧ off = 0x1000 then some (w [(0, s.plover.risk.toNat), (8, s.plover.level.toNat), (10, b2n s.drover.romRunning),
    (11, b2n s.drover.mboxOn)])
  else if fn = 0 ∧ off = 0x1010 then some (s.drover.emResult.setWidth 64)
  else if fn = 0 ∧ 0x1100 ≤ off ∧ off < 0x2000 then
    some (match s.drover.emLog[(off - 0x1100) / 64]? with
      | some e => BitVec.ofNat 64 (eventWord e / 2 ^ (8 * ((off - 0x1100) % 64)))
      | none => 0)
  else if f.fstate = .recovery then none
  else if off = 0x0200 then some f.cmdBase
  else if off = 0x0208 then some f.rspBase
  else if off = 0x0210 then some f.evtBase
  else if off = 0x0218 then some (w [(0, f.evtLog2.toNat), (4, b2n f.enable), (5, b2n f.rerr), (8, f.rerrCode.toNat)])
  else if off = 0x0220 then some (w [(0, f.cmdCi.toNat), (16, f.rspPi.toNat), (32, f.evtPi.toNat)])
  else if off = 0x0228 then some (f.evtLost.setWidth 64)
  else if off = 0x0400 then some (f.cause.setWidth 64)
  else if off = 0x0408 then some (f.mask.setWidth 64)
  else if off = 0x0410 then some (w [(0, f.rspVec.toNat), (8, f.evtVec.toNat), (16, f.errVec.toNat)])
  else if 0x0420 ≤ off ∧ off < 0x0440 then some (look (0 : Word64) f.dmaCause ((off - 0x0420) / 8))
  else if 0x2000 ≤ off ∧ off < 0x2400 then
    let x := look (0 : Word64) f.msixTable off
    some (if off % 16 = 8 then setField x 32 1 (b2n (f.msixMask.getLsbD ((off - 0x2000) / 16))) else x)
  else if off = 0x3000 then some f.pba
  else some 0

end Sys2Proof.Machine
end

