-- ==== Sys2Proof/Machine/Sideband.lean ====
section
/-! DEFINITION. The sideband: SPDM on both SMBus ports and on DOE, PLDM and PMBus readings, MCTP control, and JTAG (R465 to
R467, R483, R510 to R512). -/

namespace Sys2Proof.Machine
open Sys2Proof

/-! ## SPDM (R465 to R467) -/

def spdmOf (s : State) (p : SidePort) : Spdm :=
  match p with | .smb0 => s.side.a.spdm | .smb1 => s.side.b.spdm | .doe => s.side.doe

def setSpdm (s : State) (p : SidePort) (x : Spdm) : State :=
  match p with
  | .smb0 => { s with side := { s.side with a := { s.side.a with spdm := x } } }
  | .smb1 => { s with side := { s.side with b := { s.side.b with spdm := x } } }
  | .doe => { s with side := { s.side with doe := x } }

def portNumber (p : SidePort) : Nat := match p with | .smb0 => 0 | .smb1 => 1 | .doe => 2

/-- The responder answers on a port: Uango runs, and DOE needs the PCIe link. -/
def spdmAnswers (s : State) (p : SidePort) : Bool := uangoUp s && (p != .doe || s.pcie.up)

/-- Response codes of DSP0274 (log entry 46). -/
def spVersion : Nat := 0x04
def spCapabilities : Nat := 0x61
def spAlgorithms : Nat := 0x63
def spDigests : Nat := 0x01
def spCertificate : Nat := 0x02
def spChallengeAuth : Nat := 0x03
def spMeasurements : Nat := 0x60
def spChunk : Nat := 0x06
def spKeyExchangeRsp : Nat := 0x64
def spFinishRsp : Nat := 0x65
def spEndSessionAck : Nat := 0x6C
def spError : Nat := 0x7F

def spdmSay (x : Spdm) (code : Nat) (bytes : List Byte) : Spdm := { x with answers := x.answers ++ [(code, bytes)] }

/-- ERROR with its code (log entry 46). -/
def spdmErr (x : Spdm) (code : Byte) : Spdm := spdmSay x spError [code]
def errInvalid : Byte := 0x01
def errUnexpected : Byte := 0x04
def errUnspecified : Byte := 0x05
def errDecrypt : Byte := 0x06
def errLarge : Byte := 0x0F
def errVersion : Byte := 0x41

/-- A response, or ERROR with a handle where it is larger than a message; CHUNK_GET then fetches it. -/
def spdmReply (x : Spdm) (code : Nat) (bytes : List Byte) : Spdm :=
  if bytes.length ≤ Config.spdmMessage then spdmSay x code bytes
  else
    let h := (x.handle + 1) % 256
    spdmSay { x with large := BitVec.ofNat 8 code :: bytes, handle := h } spError [errLarge, BitVec.ofNat 8 h]

/-- One request: what it does to the port's responder and to the module. -/
def spdmStep (p : SidePort) (s : State) (g : Spdm → Spdm) : Host.Outcome State Fault Refusal :=
  if spdmAnswers s p then .next (setSpdm s p (g (spdmOf s p))) else .next s

/-- GET_VERSION starts a connection: 1.2 and 1.3. -/
def execGetVersion (port : SidePort) (s : State) : Host.Outcome State Fault Refusal :=
  if !spdmAnswers s port then .next s
  else
    let x := spdmOf s port
    let s1 := { s with drover := { s.drover with diagUnlocked := s.drover.diagUnlocked.erase (portNumber port) } }
    .next (setSpdm s1 port (spdmSay { stage := .versioned, handle := x.handle, answers := x.answers } spVersion [0x12, 0x13]))

/-- GET_CAPABILITIES settles the version. -/
def execGetCapabilities (port : SidePort) (ver : Byte) (s : State) : Host.Outcome State Fault Refusal :=
  spdmStep port s fun x =>
    if x.stage == .none then spdmErr x errUnexpected
    else if ver = 0x12 ∨ ver = 0x13 then spdmSay { x with stage := .capable, version := ver } spCapabilities []
    else spdmErr x errVersion

/-- NEGOTIATE_ALGORITHMS: what the requester offers of ECDSA P-384, SHA-384, secp384r1 and AES-256-GCM is selected; a
connection needs all four. -/
def execNegotiateAlgorithms (port : SidePort) (ecdsaP384 sha384 secp384r1 aes256gcm : Bool) (s : State) :
    Host.Outcome State Fault Refusal :=
  spdmStep port s fun x =>
    if x.stage == .none || x.stage == .versioned then spdmErr x errUnexpected
    else spdmSay { x with stage := if ecdsaP384 && sha384 && secp384r1 && aes256gcm then .negotiated else .capable } spAlgorithms
      ([ecdsaP384, sha384, secp384r1, aes256gcm].map fun b => BitVec.ofNat 8 (b2n b))

/-- A request that needs the identity: ERROR where the connection has not come so far, or the module has none (R465). -/
def identified (s : State) (x : Spdm) (g : Spdm → Spdm) : Spdm :=
  if x.stage != .negotiated then spdmErr x errUnexpected
  else if !s.drover.identity then spdmErr x errUnspecified
  else g x

/-- GET_DIGESTS: the digest of the chain in slot 0. -/
def execGetDigests (port : SidePort) (s : State) : Host.Outcome State Fault Refusal :=
  spdmStep port s fun x => identified s x fun x => spdmReply x spDigests (digestBytes Config.certChain)

/-- GET_CERTIFICATE: a portion of the chain in slot 0. -/
def execGetCertificate (port : SidePort) (slot offset length : Nat) (s : State) : Host.Outcome State Fault Refusal :=
  spdmStep port s fun x => identified s x fun x =>
    if slot ≠ 0 ∨ Config.certChain.length ≤ offset then spdmErr x errInvalid
    else spdmReply x spCertificate ((Config.certChain.drop offset).take length)

/-- Bytes with the nonce of the request and the identity key's signature over both. -/
def signedBytes (bytes : List Byte) (nonce : BitVec 256) : List Byte :=
  let all := bytes ++ toBytes 32 nonce.toNat
  all ++ toBytes 96 (Config.identitySign all).toNat

/-- CHALLENGE: signed with the identity key. -/
def execChallenge (port : SidePort) (slot : Nat) (nonce : BitVec 256) (s : State) : Host.Outcome State Fault Refusal :=
  spdmStep port s fun x => identified s x fun x =>
    if slot ≠ 0 then spdmErr x errInvalid
    else spdmReply x spChallengeAuth (signedBytes (digestBytes Config.certChain) nonce)

/-- GET_MEASUREMENTS: the number of blocks for index 0, every block for 0xFF, else one block of R467; signed. -/
def execGetMeasurements (port : SidePort) (index : Byte) (nonce : BitVec 256) (s : State) :
    Host.Outcome State Fault Refusal :=
  spdmStep port s fun x => identified s x fun x =>
    let ms := measurements s none
    let mine := if index = 0xFF then ms else ms.filter fun m => m.1 == index.toNat
    if index = 0 then spdmReply x spMeasurements (signedBytes [BitVec.ofNat 8 ms.length] nonce)
    else if mine.isEmpty then spdmErr x errInvalid
    else spdmReply x spMeasurements (signedBytes (mine.flatMap blockBytes) nonce)

/-- CHUNK_GET: one piece of the response that was too large. -/
def execChunkGet (port : SidePort) (handle chunk : Nat) (s : State) : Host.Outcome State Fault Refusal :=
  spdmStep port s fun x =>
    let n := max 1 Config.spdmMessage
    if x.large.isEmpty || handle != x.handle || decide (x.large.length ≤ chunk * n) then spdmErr x errInvalid
    else spdmSay x spChunk ((x.large.drop (chunk * n)).take n)

/-- KEY_EXCHANGE, for the diagnostic unlock only (R423): the module draws its own point from the DRBG. -/
def execKeyExchange (port : SidePort) (pointOk : Bool) (s : State) : Host.Outcome State Fault Refusal :=
  if !spdmAnswers s port then .next s
  else
    let x := spdmOf s port
    if x.stage != .negotiated then .next (setSpdm s port (spdmErr x errUnexpected))
    else if !s.drover.identity || !s.drover.drbgOk then .next (setSpdm s port (spdmErr x errUnspecified))
    else if !pointOk then .next (setSpdm s port (spdmErr x errInvalid))
    else
      let v := freeValue s
      .next (setSpdm v.2 port (spdmReply { x with exchanged := true } spKeyExchangeRsp (toBytes 8 v.1.toNat)))

/-- FINISH brings the session up; authorised by Kilsyn, it unlocks the vendor diagnostics for its port. -/
def execFinish (port : SidePort) (macOk authorised : Bool) (s : State) : Host.Outcome State Fault Refusal :=
  if !spdmAnswers s port then .next s
  else
    let x := spdmOf s port
    if !x.exchanged then .next (setSpdm s port (spdmErr x errUnexpected))
    else if !macOk then .next (setSpdm s port (spdmErr { x with exchanged := false } errDecrypt))
    else
      let s1 := if authorised && !s.drover.diagUnlocked.contains (portNumber port) then
          { s with drover := { s.drover with diagUnlocked := s.drover.diagUnlocked ++ [portNumber port] } } else s
      .next (setSpdm s1 port (spdmSay { x with exchanged := false, sessionUp := true } spFinishRsp []))

/-- END_SESSION ends the session and the unlock of its port. -/
def execEndSession (port : SidePort) (s : State) : Host.Outcome State Fault Refusal :=
  if !spdmAnswers s port then .next s
  else
    let x := spdmOf s port
    if !x.sessionUp then .next (setSpdm s port (spdmErr x errUnexpected))
    else
      let s1 := { s with drover := { s.drover with diagUnlocked := s.drover.diagUnlocked.erase (portNumber port) } }
      .next (setSpdm s1 port (spdmSay { x with sessionUp := false } spEndSessionAck []))

/-! ## MCTP, PLDM and PMBus (R483, R511) -/

def smbOf (s : State) (b : Bool) : Smb := if b then s.side.b else s.side.a
def setSmb (s : State) (b : Bool) (x : Smb) : State :=
  if b then { s with side := { s.side with b := x } } else { s with side := { s.side with a := x } }

/-- The ports answer once the always-on island runs (R500 step 2). -/
def onSmb (s : State) (b : Bool) (g : Smb → Smb) : Host.Outcome State Fault Refusal :=
  if s.power.groupsUp = 0 then .next s else .next (setSmb s b (g (smbOf s b)))

/-- The bus owner assigns the endpoint ID of one port. -/
def execSetEndpointId (portB : Bool) (eid : Byte) (s : State) : Host.Outcome State Fault Refusal :=
  onSmb s portB fun x => { x with eid := eid }

/-- The state sensors: Plover level, FSTATE of the PF, MODULE_LOST. -/
def stateSensors (s : State) : List Nat := [s.plover.level.toNat, fstateCode (funcOf s 0).fstate, b2n s.drover.outOfService]

/-- A sensor by its number (log entry 45): 0 input power; 1 to 86 the published readings: input voltage and current, 23 rails, 60
temperatures, coolant; 87 the Plover index; 88 to 90 the state sensors. -/
def sensorValue (s : State) (n : Nat) : Option Nat :=
  if n = 0 then (if s.power.sensors.isEmpty then none else some s.power.winW)
  else if n ≤ 86 then (s.power.sensors[n - 1]?).map (lowBits 64)
  else if n = 87 then some s.plover.risk.toNat
  else (stateSensors s)[n - 88]?

def execPldmSensorRead (portB : Bool) (sensor : Nat) (s : State) : Host.Outcome State Fault Refusal :=
  onSmb s portB fun x => { x with answers := x.answers ++ [(sensor, sensorValue s sensor)] }

/-- SMBx_ALERT# is asserted: a state sensor has changed since the port's events were read (log entry 45). -/
def smbAlert (s : State) (b : Bool) : Bool := (smbOf s b).told != stateSensors s

/-- The bus owner reads the port's events. -/
def execPldmEventRead (portB : Bool) (s : State) : Host.Outcome State Fault Refusal :=
  onSmb s portB fun x => { x with told := stateSensors s }

/-- LINEAR11 of a value in thousandths: the least exponent whose mantissa fits 11 signed bits (log entry 47). -/
def linear11 (milli : Int) : Nat :=
  let fits := fun (n : Nat) => decide (-1024 ≤ mant n ∧ mant n ≤ 1023)
  let n := ((List.range 32).find? fits).getD 31
  lowBits 5 ((n : Int) - 16) * 2 ^ 11 + lowBits 11 (mant n)
where
  /-- The mantissa under exponent `n` − 16. -/
  mant (n : Nat) : Int := milli * 65536 / (1000 * 2 ^ n)

/-- PMBus commands by their codes (log entry 47). -/
def pmVin : Nat := 0x88
def pmIin : Nat := 0x89
def pmPout : Nat := 0x96
def pmTemp (n : Nat) : Nat := 0x8C + n
def pmStatus : Nat := 0x79

/-- A PMBus reading through Drover: no answer before Uango runs. -/
def pmbus (portB : Bool) (code : Nat) (v : Option Int) (s : State) : Host.Outcome State Fault Refusal :=
  if !uangoUp s then .next s
  else onSmb s portB fun x => { x with answers := x.answers ++ [(code, v.map linear11)] }

/-- Published readings: input voltage in mV, input current in mA. -/
def execReadVin (portB : Bool) (s : State) : Host.Outcome State Fault Refusal := pmbus portB pmVin s.power.sensors[0]? s
def execReadIin (portB : Bool) (s : State) : Host.Outcome State Fault Refusal := pmbus portB pmIin s.power.sensors[1]? s

/-- The module's power reading (log entry 47). -/
def execReadPout (portB : Bool) (s : State) : Host.Outcome State Fault Refusal :=
  pmbus portB pmPout (if s.power.sensors.isEmpty then none else some (1000 * (s.power.winW : Int))) s

/-- READ_TEMPERATURE_1 to _3, in degrees. -/
def execReadTemperature (portB : Bool) (n : Nat) (s : State) : Host.Outcome State Fault Refusal :=
  if n < 1 ∨ 3 < n then .next s
  else pmbus portB (pmTemp n) ((s.power.sensors[Config.pmbusTemp n - 1]?).map (1000 * ·)) s

/-- STATUS_WORD: bit 2 the thermal alert, bit 12 FAULT# (log entry 47). -/
def execStatusWord (portB : Bool) (s : State) : Host.Outcome State Fault Refusal :=
  if !uangoUp s then .next s
  else onSmb s portB fun x => { x with answers := x.answers ++ [(pmStatus, some (4 * b2n s.power.thermAlert + 4096 * b2n (faultLand s)))] }

/-! ## JTAG (R512) -/

/-- IDCODE of B0. -/
def idcodeWord : Word32 := BitVec.ofNat 32 (0x1 * 2 ^ 28 + 0x0140 * 2 ^ 12 + 2 * Config.jtagMaker.toNat + 1)

def execBypass (s : State) : Host.Outcome State Fault Refusal := .next (loadJtag s .bypass 0)
def execIdcode (s : State) : Host.Outcome State Fault Refusal := .next (loadJtag s .idcode idcodeWord)

/-- SAMPLE/PRELOAD captures the boundary register, whose contents are a free value. -/
def execSamplePreload (s : State) : Host.Outcome State Fault Refusal :=
  .next (loadJtag (freeValue s).2 .sample ((freeValue s).1.setWidth 32))

/-- While PERST# is asserted they drive the lands, and every link is held DISABLED; else they act as BYPASS. -/
def execExtest (s : State) : Host.Outcome State Fault Refusal := .next (loadJtag s .extest 0)
def execClamp (s : State) : Host.Outcome State Fault Refusal := .next (loadJtag s .clamp 0)
def execHighz (s : State) : Host.Outcome State Fault Refusal := .next (loadJtag s .highz 0)

end Sys2Proof.Machine
end

