-- ==== Sys2Proof/Machine/Tick.lean ====
section
/-! DEFINITION. What an idle step stands for: 10 ns of fabric time (R317), in which the clocks run and
the counters of R476 and R477 that count cycles count, and the mesh carries its packets on (R301, log entry 1). -/

namespace Sys2Proof.Machine
open Sys2Proof

/-- The context counter of a state (R476). -/
def stateCounter (c : CtxState) : Option Nat :=
  match c with
  | .running => some 0x101
  | .ready => some 0x102
  | .waitMem => some 0x103
  | .waitPage => some 0x104
  | .waitTag => some 0x105
  | .waitSem => some 0x106
  | .waitTcfg => some 0x107
  | .waitUnit => some 0x108
  | _ => none

/-- `m` CCLK cycles of one context. -/
def tickCtx (m : Nat) (x : Ctx) : Ctx :=
  match stateCounter x.st with
  | some r => { x with counters := bump x.counters r m }
  | none => x

/-- `m` CCLK cycles of the array: those in which no streaming operand is in any cell count as idle (R124). -/
def tickArray (m : Nat) (k : Core) : Core :=
  let idle := m - k.arrLeft
  coreBump { k with arrLeft := k.arrLeft - m, arrIdle := if k.arrLeft = 0 then k.arrIdle + m else idle } 0x14E idle

/-- `m` CCLK cycles of one core. -/
def tickCore (m : Nat) (k : Core) : Core :=
  let k1 := { k with ctxs := k.ctxs.map fun p => (p.1, tickCtx m p.2) }
  let live := (List.range 8).any fun n => (ctxOf k n).st == .running || (ctxOf k n).st == .ready
  let k2 := if live then k1 else coreBump k1 0x142 m
  tickArray m (if shape3Held k then coreBump k2 0x14D m else k2)

/-- Eighths of a CCLK cycle in 10 ns: a clock of `k` × 25 MHz makes k/4 of a cycle, half of that while it runs at twice
its period (R491), and none while it is stopped (R494). -/
def bandEighths (b : Band) : Nat := if b.stopped then 0 else if b.stretch then b.units else 2 * b.units

/-- Whole CCLK cycles a band completes in 10 ns. -/
def bandCycles (b : Band) : Nat := (b.eighths + bandEighths b) / 8 - b.eighths / 8

/-- How far fabric time advances in a tick: 10 ns, and once in 10,000 ticks 20 or none while an offset is steered out,
which is 100 ppm (R376, R377). -/
def advance (f : Fabric) : Nat :=
  if f.rateTick + 1 < 10000 then 10 else if 10 ≤ f.steer then 20 else if f.steer ≤ -10 then 0 else 10

/-- What the tick leaves of the steering. -/
def steered (f : Fabric) : Fabric :=
  if f.rateTick + 1 < 10000 then { f with rateTick := f.rateTick + 1 }
  else { f with rateTick := 0, steer := f.steer + 10 - advance f }

/-- The jobs with a task on some context of the core that is not FREE (R480). -/
def coreJobs (k : Core) : List (Nat × Nat) :=
  (k.ctxs.filterMap fun x => match x.2.task with
    | some r => if x.2.st == .free || r.desc.job == 0xFFFF then none else some (r.tenant, r.desc.job.toNat)
    | none => none).eraseDups

/-- The jobs of every bound core, one entry per core and job. -/
def busyJobs (s : State) : List (Nat × Nat) := s.cores.flatMap fun k => if k.2.tenant.isSome then coreJobs k.2 else []

/-- Core-nanoseconds of the jobs of one tenant (R480). -/
def tickJobs (n t : Nat) (busy : List (Nat × Nat)) (x : Tenant) : Tenant :=
  { x with jobs := x.jobs.map fun j => (j.1, { j.2 with coreNs := j.2.coreNs + n * busy.count (t, j.1) }) }

/-- Logical cores that no job uses. -/
def idleCores (s : State) : Nat := Config.nCores - (s.cores.filter fun k => k.2.tenant.isSome && !(coreJobs k.2).isEmpty).length

/-- The windows that end as fabric time goes from `t` to that of `s` (R12, R317). -/
def crossed (t : Nat) (s : State) : State :=
  let s1 := if t / 1000000 < s.ftime / 1000000 then endWindow (t / 1000000 * 1000000) s else s
  let s2 := if t / 10000000 < s.ftime / 10000000 then endPlover s1 else s1
  if t / 100000000 < s.ftime / 100000000 then endSpan s2 else s2

/-- A time root that has lost its 1PPS input holds its last rate: what it was last steered by in a second is steered again in every
further one (R377). -/
def coast (t : Nat) (s : State) : State :=
  if s.fabric.holdover && isTimeRoot s && decide (t / 1000000000 < s.ftime / 1000000000) then
    { s with fabric := { s.fabric with steer := s.fabric.steer + s.fabric.rate } }
  else s

/-- The always-on island runs once the rails of group 1 stand (R500); before, no time passes. -/
def tick (s : State) : State :=
  if s.power.groupsUp = 0 then s
  else meshTick (deliverCopies true (deliverCopies false (coast s.ftime (crossed s.ftime { s with
    ftime := s.ftime + advance s.fabric
    fabric := steered s.fabric
    tenants := s.tenants.map fun p => (p.1, tickJobs (advance s.fabric) p.1 (busyJobs s) p.2)
    telem := { s.telem with idleNs := s.telem.idleNs + advance s.fabric * idleCores s }
    bands := s.bands.map fun p => (p.1, { p.2 with eighths := p.2.eighths + bandEighths p.2 })
    cores := s.cores.map fun p => (p.1, tickCore (bandCycles (look {} s.bands (bandOf s p.1))) p.2) }))))

/-! ## Forward steps of fabric time (R376, R378) -/

/-- Fabric time steps forward: the windows under way end (R12, R317). -/
def stepTo (s : State) (t : Nat) : State := crossed s.ftime { s with ftime := t }

/-- The parent answers with its stamps; the child stamps the answer with its own time, to 1 ns, and takes the offset
((t2 − t1) − (t4 − t3)) / 2: more than 1 ms ahead it steps forward, else it changes its rate. Of `t4` only the nanoseconds within a
count of 10 are taken (R376, R378, log entry 31). -/
def execTime (h : FrameHdr) (answer : Bool) (t1 t2 t3 t4 : Word64) (s : State) : Host.Outcome State Fault Refusal :=
  .next (recvPlain h (fun s =>
    if !answer then sendOut s h.link (timeFrame t1.toNat (linkTime s h.link) (linkTime s h.link))
    else
      let own : Int := (linkTime s h.link + t4.toNat % 10 : Nat)
      let off : Int := (((t2.toNat : Int) - t1.toNat) - (own - t3.toNat)) / 2
      if 1000000 < off then
        let s1 := stepTo s (s.ftime + off.toNat)
        { s1 with fabric := { s1.fabric with steer := 0, joined := true } }
      else { s with fabric := { s.fabric with steer := off, joined := true } }) s)

/-- TIME_SET at the time root: forward only (R378). -/
def execTimeSet (e : Entry) (s : State) : Host.Outcome State Fault Refusal :=
  cmd spTimeSet .never false (decide (fld e.body 0 8 < s.ftime)) (fun _ s =>
    if !isTimeRoot s then (resFail stDenied, s) else (resOk, stepTo s (fld e.body 0 8))) e s

end Sys2Proof.Machine
end

