-- ==== Sys2Proof/Machine/Dispatch.lean ====
section
/-! DEFINITION. One arm per command: each calls the meaning of its row. -/

namespace Sys2Proof.Machine
open Sys2Proof

def exec (i : Instr) (s : State) : Host.Outcome State Fault Refusal :=
  match i with
  | .nop x => Sys2Proof.Machine.execNop x s
  | .exit x => Sys2Proof.Machine.execExit x s
  | .yield x => Sys2Proof.Machine.execYield x s
  | .rsr x d sys => Sys2Proof.Machine.execRsr x d sys s
  | .add x d a b => Sys2Proof.Machine.execAdd x d a b s
  | .addi x d a imm => Sys2Proof.Machine.execAddi x d a imm s
  | .sub x d a b => Sys2Proof.Machine.execSub x d a b s
  | .and x d a b => Sys2Proof.Machine.execAnd x d a b s
  | .andi x d a imm => Sys2Proof.Machine.execAndi x d a imm s
  | .or x d a b => Sys2Proof.Machine.execOr x d a b s
  | .ori x d a imm => Sys2Proof.Machine.execOri x d a imm s
  | .xor x d a b => Sys2Proof.Machine.execXor x d a b s
  | .xori x d a imm => Sys2Proof.Machine.execXori x d a imm s
  | .shl x d a b => Sys2Proof.Machine.execShl x d a b s
  | .shli x d a imm => Sys2Proof.Machine.execShli x d a imm s
  | .shr x d a b => Sys2Proof.Machine.execShr x d a b s
  | .shri x d a imm => Sys2Proof.Machine.execShri x d a imm s
  | .shrl x d a b => Sys2Proof.Machine.execShrl x d a b s
  | .shrli x d a imm => Sys2Proof.Machine.execShrli x d a imm s
  | .min x d a b => Sys2Proof.Machine.execMin x d a b s
  | .max x d a b => Sys2Proof.Machine.execMax x d a b s
  | .minu x d a b => Sys2Proof.Machine.execMinu x d a b s
  | .maxu x d a b => Sys2Proof.Machine.execMaxu x d a b s
  | .mul x d a b => Sys2Proof.Machine.execMul x d a b s
  | .muli x d a imm => Sys2Proof.Machine.execMuli x d a imm s
  | .mulh x d a b => Sys2Proof.Machine.execMulh x d a b s
  | .mulhu x d a b => Sys2Proof.Machine.execMulhu x d a b s
  | .div x d a b => Sys2Proof.Machine.execDiv x d a b s
  | .divu x d a b => Sys2Proof.Machine.execDivu x d a b s
  | .rem x d a b => Sys2Proof.Machine.execRem x d a b s
  | .remu x d a b => Sys2Proof.Machine.execRemu x d a b s
  | .dividerResult core => Sys2Proof.Machine.execDividerResult core s
  | .sel x d p a b => Sys2Proof.Machine.execSel x d p a b s
  | .clz x d a => Sys2Proof.Machine.execClz x d a s
  | .popc x d a => Sys2Proof.Machine.execPopc x d a s
  | .sext x d a k => Sys2Proof.Machine.execSext x d a k s
  | .movk x d a imm => Sys2Proof.Machine.execMovk x d a imm s
  | .cmp x pd cond a b => Sys2Proof.Machine.execCmp x pd cond a b s
  | .cmpi x pd cond a imm => Sys2Proof.Machine.execCmpi x pd cond a imm s
  | .pand x pd pa pb => Sys2Proof.Machine.execPand x pd pa pb s
  | .por x pd pa pb => Sys2Proof.Machine.execPor x pd pa pb s
  | .pxor x pd pa pb => Sys2Proof.Machine.execPxor x pd pa pb s
  | .pandn x pd pa pb => Sys2Proof.Machine.execPandn x pd pa pb s
  | .pget x d pa => Sys2Proof.Machine.execPget x d pa s
  | .pset x pd a => Sys2Proof.Machine.execPset x pd a s
  | .br x imm => Sys2Proof.Machine.execBr x imm s
  | .jal x d imm => Sys2Proof.Machine.execJal x d imm s
  | .jr x a => Sys2Proof.Machine.execJr x a s
  | .jalr x d a => Sys2Proof.Machine.execJalr x d a s
  | .dbnz x a imm => Sys2Proof.Machine.execDbnz x a imm s
  | .ld x d a sz imm out => Sys2Proof.Machine.execLd x d a sz imm out s
  | .ldu x d a sz imm out => Sys2Proof.Machine.execLdu x d a sz imm out s
  | .st x r a sz imm => Sys2Proof.Machine.execSt x r a sz imm s
  | .lld x d a sz imm out => Sys2Proof.Machine.execLld x d a sz imm out s
  | .lldu x d a sz imm out => Sys2Proof.Machine.execLldu x d a sz imm out s
  | .lst x r a sz imm => Sys2Proof.Machine.execLst x r a sz imm s
  | .pf x a sz imm => Sys2Proof.Machine.execPf x a sz imm s
  | .tcfg x td gs => Sys2Proof.Machine.execTcfg x td gs s
  | .trel x td => Sys2Proof.Machine.execTrel x td s
  | .tload x td ga r0 c0 => Sys2Proof.Machine.execTload x td ga r0 c0 s
  | .tstore x ts ga r0 c0 => Sys2Proof.Machine.execTstore x ts ga r0 c0 s
  | .tmma x ts tw ad d0 shape t c ax gx => Sys2Proof.Machine.execTmma x ts tw ad d0 shape t c ax gx s
  | .vadd x d a b w => Sys2Proof.Machine.execVadd x d a b w s
  | .vsub x d a b w => Sys2Proof.Machine.execVsub x d a b w s
  | .vabs x d a => Sys2Proof.Machine.execVabs x d a s
  | .vneg x d a => Sys2Proof.Machine.execVneg x d a s
  | .vmin x d a b => Sys2Proof.Machine.execVmin x d a b s
  | .vmax x d a b => Sys2Proof.Machine.execVmax x d a b s
  | .vand x d a b => Sys2Proof.Machine.execVand x d a b s
  | .vor x d a b => Sys2Proof.Machine.execVor x d a b s
  | .vxor x d a b => Sys2Proof.Machine.execVxor x d a b s
  | .vclz x d a => Sys2Proof.Machine.execVclz x d a s
  | .vshl x d a cnt w => Sys2Proof.Machine.execVshl x d a cnt w s
  | .vshr x d a cnt rnd => Sys2Proof.Machine.execVshr x d a cnt rnd s
  | .vshrl x d a cnt => Sys2Proof.Machine.execVshrl x d a cnt s
  | .vcmp x d a b cond => Sys2Proof.Machine.execVcmp x d a b cond s
  | .vsel x d m a b => Sys2Proof.Machine.execVsel x d m a b s
  | .vmul x d a b w => Sys2Proof.Machine.execVmul x d a b w s
  | .vmulh x d a b => Sys2Proof.Machine.execVmulh x d a b s
  | .vmulsh x d a b sh => Sys2Proof.Machine.execVmulsh x d a b sh s
  | .vperm x d a b => Sys2Proof.Machine.execVperm x d a b s
  | .vbcast x d a lane => Sys2Proof.Machine.execVbcast x d a lane s
  | .vmovv x d gs => Sys2Proof.Machine.execVmovv x d gs s
  | .vmovg x d a lane => Sys2Proof.Machine.execVmovg x d a lane s
  | .vredsum x d a => Sys2Proof.Machine.execVredsum x d a s
  | .vredmax x d a => Sys2Proof.Machine.execVredmax x d a s
  | .vredmin x d a => Sys2Proof.Machine.execVredmin x d a s
  | .vtstp x pd a => Sys2Proof.Machine.execVtstp x pd a s
  | .vtrd x d ts row h => Sys2Proof.Machine.execVtrd x d ts row h s
  | .vtsc x d ts row => Sys2Proof.Machine.execVtsc x d ts row s
  | .vard x d ad row => Sys2Proof.Machine.execVard x d ad row s
  | .vtwr x td row vs => Sys2Proof.Machine.execVtwr x td row vs s
  | .vawr x ad row vs => Sys2Proof.Machine.execVawr x ad row vs s
  | .vreq x td row vs gq mode gk gc gs => Sys2Proof.Machine.execVreq x td row vs gq mode gk gc gs s
  | .areq x td r0t ad r0a n sq mode gk gc gs => Sys2Proof.Machine.execAreq x td r0t ad r0a n sq mode gk gc gs s
  | .vwid x td r0t ts r0s n gk => Sys2Proof.Machine.execVwid x td r0t ts r0s n gk s
  | .vld x d a imm => Sys2Proof.Machine.execVld x d a imm s
  | .vst x r a imm => Sys2Proof.Machine.execVst x r a imm s
  | .vldL x d a imm => Sys2Proof.Machine.execVldL x d a imm s
  | .vstL x r a imm => Sys2Proof.Machine.execVstL x r a imm s
  | .vfn x d a fn fi fo => Sys2Proof.Machine.execVfn x d a fn fi fo s
  | .vrng x d gk gc gs h => Sys2Proof.Machine.execVrng x d gk gc gs h s
  | .sig x ga sem cnt rel => Sys2Proof.Machine.execSig x ga sem cnt rel s
  | .wait x sem => Sys2Proof.Machine.execWait x sem s
  | .tryw x pd sem => Sys2Proof.Machine.execTryw x pd sem s
  | .fence x mask => Sys2Proof.Machine.execFence x mask s
  | .dsub x gc gn se sem => Sys2Proof.Machine.execDsub x gc gn se sem s
  | .gsub x ga se sem => Sys2Proof.Machine.execGsub x ga se sem s
  | .engineCommandAccept core => Sys2Proof.Machine.execEngineCommandAccept core s
  | .issueSwitch core => Sys2Proof.Machine.execIssueSwitch core s
  | .yieldTimerExpiry core => Sys2Proof.Machine.execYieldTimerExpiry core s
  | .readResponseArrival id => Sys2Proof.Machine.execReadResponseArrival id s
  | .writeResponseArrival id => Sys2Proof.Machine.execWriteResponseArrival id s
  | .tagFree core write => Sys2Proof.Machine.execTagFree core write s
  | .walkComplete fold tenant va err => Sys2Proof.Machine.execWalkComplete fold tenant va err s
  | .translationInvalidate id agent => Sys2Proof.Machine.execTranslationInvalidate id agent s
  | .tloadRowArrival id => Sys2Proof.Machine.execTloadRowArrival id s
  | .tstoreStart core id out => Sys2Proof.Machine.execTstoreStart core id out s
  | .vectorEntryStart core out => Sys2Proof.Machine.execVectorEntryStart core out s
  | .vectorResultWrite core id => Sys2Proof.Machine.execVectorResultWrite core id s
  | .arrayPassStart core out => Sys2Proof.Machine.execArrayPassStart core out s
  | .stationaryLoadStart core out => Sys2Proof.Machine.execStationaryLoadStart core out s
  | .stationaryLoadEnd core => Sys2Proof.Machine.execStationaryLoadEnd core s
  | .passCommitStart core id out => Sys2Proof.Machine.execPassCommitStart core id out s
  | .passRetire core id => Sys2Proof.Machine.execPassRetire core id s
  | .arrayRampDown core => Sys2Proof.Machine.execArrayRampDown core s
  | .signalArrival core sem picks => Sys2Proof.Machine.execSignalArrival core sem picks s
  | .sigRelRelease core id => Sys2Proof.Machine.execSigRelRelease core id s
  | .fenceRelease core ctx => Sys2Proof.Machine.execFenceRelease core ctx s
  | .taskStart tenant handle ctx => Sys2Proof.Machine.execTaskStart tenant handle ctx s
  | .taskDoneCompare core ctx => Sys2Proof.Machine.execTaskDoneCompare core ctx s
  | .faultCleanupComplete core ctx => Sys2Proof.Machine.execFaultCleanupComplete core ctx s
  | .pageResident tenant va => Sys2Proof.Machine.execPageResident tenant va s
  | .timeSliceBoundary core => Sys2Proof.Machine.execTimeSliceBoundary core s
  | .contextSaveComplete core ctx => Sys2Proof.Machine.execContextSaveComplete core ctx s
  | .flitReceive plane rx ry inp pkt chk => Sys2Proof.Machine.execFlitReceive plane rx ry inp pkt chk s
  | .arbitrationRound plane rx ry outp => Sys2Proof.Machine.execArbitrationRound plane rx ry outp s
  | .arbPreempt plane rx ry outp => Sys2Proof.Machine.execArbPreempt plane rx ry outp s
  | .grantWatchdogBite plane rx ry outp => Sys2Proof.Machine.execGrantWatchdogBite plane rx ry outp s
  | .outputResetEnd plane rx ry outp => Sys2Proof.Machine.execOutputResetEnd plane rx ry outp s
  | .reductionBlockArrival plane rx ry inp pkt => Sys2Proof.Machine.execReductionBlockArrival plane rx ry inp pkt s
  | .routerFailure plane rx ry => Sys2Proof.Machine.execRouterFailure plane rx ry s
  | .planeDrained plane => Sys2Proof.Machine.execPlaneDrained plane s
  | .coreStatusProbe => Sys2Proof.Machine.execCoreStatusProbe s
  | .coreProbeTimeout core => Sys2Proof.Machine.execCoreProbeTimeout core s
  | .coreFailure core => Sys2Proof.Machine.execCoreFailure core s
  | .fenceDrainComplete core => Sys2Proof.Machine.execFenceDrainComplete core s
  | .fallowSelfTestComplete core pass => Sys2Proof.Machine.execFallowSelfTestComplete core pass s
  | .memoryReadRequest id out => Sys2Proof.Machine.execMemoryReadRequest id out s
  | .memoryWriteRequest id out => Sys2Proof.Machine.execMemoryWriteRequest id out s
  | .farWrite id out => Sys2Proof.Machine.execFarWrite id out s
  | .pageFault tenant va => Sys2Proof.Machine.execPageFault tenant va s
  | .pageInCopyComplete tenant va err => Sys2Proof.Machine.execPageInCopyComplete tenant va err s
  | .evictionStart tenant mid stack => Sys2Proof.Machine.execEvictionStart tenant mid stack s
  | .evictionAcksReceived tenant va => Sys2Proof.Machine.execEvictionAcksReceived tenant va s
  | .evictionWritebackDone tenant va err => Sys2Proof.Machine.execEvictionWritebackDone tenant va err s
  | .accClearTick => Sys2Proof.Machine.execAccClearTick s
  | .nearStackUnusable stack why => Sys2Proof.Machine.execNearStackUnusable stack why s
  | .prefetchFill id => Sys2Proof.Machine.execPrefetchFill id s
  | .dmaDescriptorFetch chan err => Sys2Proof.Machine.execDmaDescriptorFetch chan err s
  | .dmaBurstIssue engine => Sys2Proof.Machine.execDmaBurstIssue engine s
  | .dmaReadReturn chan burst out => Sys2Proof.Machine.execDmaReadReturn chan burst out s
  | .dmaWriteResponse chan burst out => Sys2Proof.Machine.execDmaWriteResponse chan burst out s
  | .dmaFarCheckAnswer chan cause => Sys2Proof.Machine.execDmaFarCheckAnswer chan cause s
  | .dmaDescriptorComplete chan => Sys2Proof.Machine.execDmaDescriptorComplete chan s
  | .dmaRecordWritten chan err => Sys2Proof.Machine.execDmaRecordWritten chan err s
  | .dmaLateWriteError chan burst cause => Sys2Proof.Machine.execDmaLateWriteError chan burst cause s
  | .dmaPauseDrained chan => Sys2Proof.Machine.execDmaPauseDrained chan s
  | .dmaAbortDrained chan => Sys2Proof.Machine.execDmaAbortDrained chan s
  | .gleanerCommandStart fold err soft => Sys2Proof.Machine.execGleanerCommandStart fold err soft s
  | .blockFetchPredict fold id err soft => Sys2Proof.Machine.execBlockFetchPredict fold id err soft s
  | .blockFetchResolve fold id err soft => Sys2Proof.Machine.execBlockFetchResolve fold id err soft s
  | .lookup fold id remote err soft => Sys2Proof.Machine.execLookup fold id remote err soft s
  | .scatter fold id err soft => Sys2Proof.Machine.execScatter fold id err soft s
  | .sample fold id remote err soft => Sys2Proof.Machine.execSample fold id remote err soft s
  | .gleanerCompletion fold id acked => Sys2Proof.Machine.execGleanerCompletion fold id acked s
  | .lookupRowRequest fold tenant table version row chan => Sys2Proof.Machine.execLookupRowRequest fold tenant table version row chan s
  | .sampleExpansionRequest fold tenant key step stream hop weighted fan node first nlocal nnodes idw rowptrVa colVa cwVa chan => Sys2Proof.Machine.execSampleExpansionRequest fold tenant key step stream hop weighted fan node first nlocal nnodes idw rowptrVa colVa cwVa chan s
  | .scatterBlockAdd fold tenant table row blk elems poison => Sys2Proof.Machine.execScatterBlockAdd fold tenant table row blk elems poison s
  | .tableVersionFree tenant table version others => Sys2Proof.Machine.execTableVersionFree tenant table version others s
  | .voteSumReceive tenant job sum poison => Sys2Proof.Machine.execVoteSumReceive tenant job sum poison s
  | .stepClose tenant job => Sys2Proof.Machine.execStepClose tenant job s
  | .ploverRecompute unread => Sys2Proof.Machine.execPloverRecompute unread s
  | .epochIntervalExpiry tenant job watch => Sys2Proof.Machine.execEpochIntervalExpiry tenant job watch s
  | .epochStart tenant job boundary => Sys2Proof.Machine.execEpochStart tenant job boundary s
  | .segmentReceive jobUid epoch rank region seg bytes digest => Sys2Proof.Machine.execSegmentReceive jobUid epoch rank region seg bytes digest s
  | .epochVerified tenant job status => Sys2Proof.Machine.execEpochVerified tenant job status s
  | .moduleLossDetected modid => Sys2Proof.Machine.execModuleLossDetected modid s
  | .linkTrainComplete link ok margins => Sys2Proof.Machine.execLinkTrainComplete link ok margins s
  | .linkAlignComplete link lanes inTime => Sys2Proof.Machine.execLinkAlignComplete link lanes inTime s
  | .helloSendTick link => Sys2Proof.Machine.execHelloSendTick link s
  | .hello link rcd => Sys2Proof.Machine.execHello link rcd s
  | .linkRefusedRecheck link => Sys2Proof.Machine.execLinkRefusedRecheck link s
  | .keyxShare link pointOk => Sys2Proof.Machine.execKeyxShare link pointOk s
  | .keyxCert link chainOk serial => Sys2Proof.Machine.execKeyxCert link chainOk serial s
  | .keyxFinish link sigOk switchPoint => Sys2Proof.Machine.execKeyxFinish link sigOk switchPoint s
  | .keyxTimeout link => Sys2Proof.Machine.execKeyxTimeout link s
  | .fecLockLoss link lane => Sys2Proof.Machine.execFecLockLoss link lane s
  | .linkErrorWindowEnd link uncorr serHigh corr => Sys2Proof.Machine.execLinkErrorWindowEnd link uncorr serHigh corr s
  | .retrainComplete link ok margins => Sys2Proof.Machine.execRetrainComplete link ok margins s
  | .linkFailedRetry link => Sys2Proof.Machine.execLinkFailedRetry link s
  | .idleFrame h => Sys2Proof.Machine.execIdleFrame h s
  | .dataFrame h payload => Sys2Proof.Machine.execDataFrame h payload s
  | .xferWrite h bar len va first => Sys2Proof.Machine.execXferWrite h bar len va first s
  | .xferRead h bar len va => Sys2Proof.Machine.execXferRead h bar len va s
  | .xferDone h status doneb => Sys2Proof.Machine.execXferDone h status doneb s
  | .redFrame h elems => Sys2Proof.Machine.execRedFrame h elems s
  | .redpFrame h => Sys2Proof.Machine.execRedpFrame h s
  | .sigFrame h core sem cnt => Sys2Proof.Machine.execSigFrame h core sem cnt s
  | .glnFrame h body => Sys2Proof.Machine.execGlnFrame h body s
  | .nak h e => Sys2Proof.Machine.execNak h e s
  | .fovReq h named => Sys2Proof.Machine.execFovReq h named s
  | .fovAns h named e => Sys2Proof.Machine.execFovAns h named e s
  | .nakResendTimer link => Sys2Proof.Machine.execNakResendTimer link s
  | .failoverLimit link => Sys2Proof.Machine.execFailoverLimit link s
  | .elect h serial hops => Sys2Proof.Machine.execElect h serial hops s
  | .map h epoch entries groups => Sys2Proof.Machine.execMap h epoch entries groups s
  | .join h serial stored groups => Sys2Proof.Machine.execJoin h serial stored groups s
  | .routes h dieB version table => Sys2Proof.Machine.execRoutes h dieB version table s
  | .ready h src version => Sys2Proof.Machine.execReady h src version s
  | .hold h => Sys2Proof.Machine.execHold h s
  | .drained h src => Sys2Proof.Machine.execDrained h src s
  | .commit h version => Sys2Proof.Machine.execCommit h version s
  | .csetup h src srcChan tag cfg faninLocal jobUid => Sys2Proof.Machine.execCsetup h src srcChan tag cfg faninLocal jobUid s
  | .cinstall h chan cfg rootMod rootChan inMask outLinks => Sys2Proof.Machine.execCinstall h chan cfg rootMod rootChan inMask outLinks s
  | .cend h chan reason => Sys2Proof.Machine.execCend h chan reason s
  | .lost h chan => Sys2Proof.Machine.execLost h chan s
  | .time h answer t1 t2 t3 t4 => Sys2Proof.Machine.execTime h answer t1 t2 t3 t4 s
  | .bellwetherSettle => Sys2Proof.Machine.execBellwetherSettle s
  | .routeTableFree dieB => Sys2Proof.Machine.execRouteTableFree dieB s
  | .frameAgeDiscard dieB chan => Sys2Proof.Machine.execFrameAgeDiscard dieB chan s
  | .channelSetupWindowEnd chan => Sys2Proof.Machine.execChannelSetupWindowEnd chan s
  | .channelIdRelease chan => Sys2Proof.Machine.execChannelIdRelease chan s
  | .timeSyncTick root => Sys2Proof.Machine.execTimeSyncTick root s
  | .ppsEdge => Sys2Proof.Machine.execPpsEdge s
  | .ppsLoss => Sys2Proof.Machine.execPpsLoss s
  | .rekeyTrigger link => Sys2Proof.Machine.execRekeyTrigger link s
  | .governorSample watts atRisk => Sys2Proof.Machine.execGovernorSample watts atRisk s
  | .droopEvent band => Sys2Proof.Machine.execDroopEvent band s
  | .clockStretchEnd band => Sys2Proof.Machine.execClockStretchEnd band s
  | .thermalReading temps => Sys2Proof.Machine.execThermalReading temps s
  | .cclkChange band units => Sys2Proof.Machine.execCclkChange band units s
  | .pllRelockComplete band => Sys2Proof.Machine.execPllRelockComplete band s
  | .vinGood pwrSel slotId => Sys2Proof.Machine.execVinGood pwrSel slotId s
  | .vinLow => Sys2Proof.Machine.execVinLow s
  | .vinUndervolt => Sys2Proof.Machine.execVinUndervolt s
  | .vinOvervolt => Sys2Proof.Machine.execVinOvervolt s
  | .vinRestored => Sys2Proof.Machine.execVinRestored s
  | .aonWatchdogExpiry => Sys2Proof.Machine.execAonWatchdogExpiry s
  | .moduleReset => Sys2Proof.Machine.execModuleReset s
  | .farControllerReady => Sys2Proof.Machine.execFarControllerReady s
  | .memoryTrainingComplete stackFail midOk farOk selfTestFail => Sys2Proof.Machine.execMemoryTrainingComplete stackFail midOk farOk selfTestFail s
  | .bootComplete => Sys2Proof.Machine.execBootComplete s
  | .perstAssert => Sys2Proof.Machine.execPerstAssert s
  | .perstDeassert => Sys2Proof.Machine.execPerstDeassert s
  | .hotReset => Sys2Proof.Machine.execHotReset s
  | .pcieLinkDown => Sys2Proof.Machine.execPcieLinkDown s
  | .functionLevelReset fn => Sys2Proof.Machine.execFunctionLevelReset fn s
  | .vfEnable num => Sys2Proof.Machine.execVfEnable num s
  | .vfDisable => Sys2Proof.Machine.execVfDisable s
  | .configurationRequest fn req => Sys2Proof.Machine.execConfigurationRequest fn req s
  | .crsTimeout => Sys2Proof.Machine.execCrsTimeout s
  | .cmdPi fn n => Sys2Proof.Machine.execCmdPi fn n s
  | .rspCi fn n => Sys2Proof.Machine.execRspCi fn n s
  | .evtCi fn n => Sys2Proof.Machine.execEvtCi fn n s
  | .ringEnable fn => Sys2Proof.Machine.execRingEnable fn s
  | .ringDisable fn => Sys2Proof.Machine.execRingDisable fn s
  | .intMask fn v => Sys2Proof.Machine.execIntMask fn v s
  | .restartUango fn v => Sys2Proof.Machine.execRestartUango fn v s
  | .switchSlot fn v => Sys2Proof.Machine.execSwitchSlot fn v s
  | .registerWrite fn off v => Sys2Proof.Machine.execRegisterWrite fn off v s
  | .bar2Read fn off len out => Sys2Proof.Machine.execBar2Read fn off len out s
  | .bar2Write fn off bytes => Sys2Proof.Machine.execBar2Write fn off bytes s
  | .responseRingSpace fn => Sys2Proof.Machine.execResponseRingSpace fn s
  | .helloCommand e => Sys2Proof.Machine.execHelloCommand e s
  | .bye e => Sys2Proof.Machine.execBye e s
  | .ping e => Sys2Proof.Machine.execPing e s
  | .tenantConfig e => Sys2Proof.Machine.execTenantConfig e s
  | .tenantQuery e => Sys2Proof.Machine.execTenantQuery e s
  | .tenantEnd e => Sys2Proof.Machine.execTenantEnd e s
  | .coreBind e => Sys2Proof.Machine.execCoreBind e s
  | .coreUnbind e => Sys2Proof.Machine.execCoreUnbind e s
  | .ctxOpen e => Sys2Proof.Machine.execCtxOpen e s
  | .ctxResume e => Sys2Proof.Machine.execCtxResume e s
  | .ctxFlush e => Sys2Proof.Machine.execCtxFlush e s
  | .ctxKill e => Sys2Proof.Machine.execCtxKill e s
  | .ctxClose e => Sys2Proof.Machine.execCtxClose e s
  | .ctxQuery e => Sys2Proof.Machine.execCtxQuery e s
  | .ctxSignal e => Sys2Proof.Machine.execCtxSignal e s
  | .jobCreate e => Sys2Proof.Machine.execJobCreate e s
  | .jobScale e => Sys2Proof.Machine.execJobScale e s
  | .jobOpt e => Sys2Proof.Machine.execJobOpt e s
  | .jobMask e => Sys2Proof.Machine.execJobMask e s
  | .jobStart e => Sys2Proof.Machine.execJobStart e s
  | .jobStop e => Sys2Proof.Machine.execJobStop e s
  | .jobQuery e => Sys2Proof.Machine.execJobQuery e s
  | .jobDestroy e => Sys2Proof.Machine.execJobDestroy e s
  | .taskSubmit e => Sys2Proof.Machine.execTaskSubmit e s
  | .memMap e => Sys2Proof.Machine.execMemMap e s
  | .memUnmap e => Sys2Proof.Machine.execMemUnmap e s
  | .memPin e => Sys2Proof.Machine.execMemPin e s
  | .memUnpin e => Sys2Proof.Machine.execMemUnpin e s
  | .memWrite e => Sys2Proof.Machine.execMemWrite e s
  | .memRead e => Sys2Proof.Machine.execMemRead e s
  | .apertureMap e => Sys2Proof.Machine.execApertureMap e s
  | .apertureUnmap e => Sys2Proof.Machine.execApertureUnmap e s
  | .memQuery e => Sys2Proof.Machine.execMemQuery e s
  | .distMap e => Sys2Proof.Machine.execDistMap e s
  | .progLoad e => Sys2Proof.Machine.execProgLoad e s
  | .progUnload e => Sys2Proof.Machine.execProgUnload e s
  | .weightLoad e => Sys2Proof.Machine.execWeightLoad e s
  | .tableCreate e => Sys2Proof.Machine.execTableCreate e s
  | .tableInstall e => Sys2Proof.Machine.execTableInstall e s
  | .tableCommit e => Sys2Proof.Machine.execTableCommit e s
  | .tableDestroy e => Sys2Proof.Machine.execTableDestroy e s
  | .chanSetup e => Sys2Proof.Machine.execChanSetup e s
  | .chanJoin e => Sys2Proof.Machine.execChanJoin e s
  | .chanGroup e => Sys2Proof.Machine.execChanGroup e s
  | .chanTeardown e => Sys2Proof.Machine.execChanTeardown e s
  | .chanQuery e => Sys2Proof.Machine.execChanQuery e s
  | .dmaAllot e => Sys2Proof.Machine.execDmaAllot e s
  | .dmaRelease e => Sys2Proof.Machine.execDmaRelease e s
  | .dmaPause e => Sys2Proof.Machine.execDmaPause e s
  | .dmaResume e => Sys2Proof.Machine.execDmaResume e s
  | .dmaAbort e => Sys2Proof.Machine.execDmaAbort e s
  | .dmaReset e => Sys2Proof.Machine.execDmaReset e s
  | .dmaSubmit e => Sys2Proof.Machine.execDmaSubmit e s
  | .dmaStatus e => Sys2Proof.Machine.execDmaStatus e s
  | .ckptConfig e => Sys2Proof.Machine.execCkptConfig e s
  | .ckptSecure e => Sys2Proof.Machine.execCkptSecure e s
  | .ckptList e => Sys2Proof.Machine.execCkptList e s
  | .ckptRestore e => Sys2Proof.Machine.execCkptRestore e s
  | .ckptDelete e => Sys2Proof.Machine.execCkptDelete e s
  | .attestGet e => Sys2Proof.Machine.execAttestGet e s
  | .keyRotateMemory e => Sys2Proof.Machine.execKeyRotateMemory e s
  | .keyRotateLink e => Sys2Proof.Machine.execKeyRotateLink e s
  | .keyRotationSector frame out => Sys2Proof.Machine.execKeyRotationSector frame out s
  | .telemRead e => Sys2Proof.Machine.execTelemRead e s
  | .telemRate e => Sys2Proof.Machine.execTelemRate e s
  | .coreMap e => Sys2Proof.Machine.execCoreMap e s
  | .ploverSet e => Sys2Proof.Machine.execPloverSet e s
  | .timeSet e => Sys2Proof.Machine.execTimeSet e s
  | .fwStage e => Sys2Proof.Machine.execFwStage e s
  | .fwActivate e => Sys2Proof.Machine.execFwActivate e s
  | .fwQuery e => Sys2Proof.Machine.execFwQuery e s
  | .linkDisable e => Sys2Proof.Machine.execLinkDisable e s
  | .linkEnable e => Sys2Proof.Machine.execLinkEnable e s
  | .linkRetrain e => Sys2Proof.Machine.execLinkRetrain e s
  | .modEvacuate e => Sys2Proof.Machine.execModEvacuate e s
  | .vendorDiagnostic e opcode => Sys2Proof.Machine.execVendorDiagnostic e opcode s
  | .lockstepMismatch => Sys2Proof.Machine.execLockstepMismatch s
  | .uangoRestartComplete sigOk => Sys2Proof.Machine.execUangoRestartComplete sigOk s
  | .fwSwitchTimeout => Sys2Proof.Machine.execFwSwitchTimeout s
  | .drbgHealthFail => Sys2Proof.Machine.execDrbgHealthFail s
  | .entropyRetest pass => Sys2Proof.Machine.execEntropyRetest pass s
  | .scrubStart tenant => Sys2Proof.Machine.execScrubStart tenant s
  | .scrubHoldEnd tenant => Sys2Proof.Machine.execScrubHoldEnd tenant s
  | .telemetryWindowClose => Sys2Proof.Machine.execTelemetryWindowClose s
  | .powerWindowClose energyJ watts sensors => Sys2Proof.Machine.execPowerWindowClose energyJ watts sensors s
  | .fabricTimeStore => Sys2Proof.Machine.execFabricTimeStore s
  | .getVersion port => Sys2Proof.Machine.execGetVersion port s
  | .getCapabilities port ver => Sys2Proof.Machine.execGetCapabilities port ver s
  | .negotiateAlgorithms port ecdsaP384 sha384 secp384r1 aes256gcm => Sys2Proof.Machine.execNegotiateAlgorithms port ecdsaP384 sha384 secp384r1 aes256gcm s
  | .getDigests port => Sys2Proof.Machine.execGetDigests port s
  | .getCertificate port slot offset length => Sys2Proof.Machine.execGetCertificate port slot offset length s
  | .challenge port slot nonce => Sys2Proof.Machine.execChallenge port slot nonce s
  | .getMeasurements port index nonce => Sys2Proof.Machine.execGetMeasurements port index nonce s
  | .chunkGet port handle chunk => Sys2Proof.Machine.execChunkGet port handle chunk s
  | .keyExchange port pointOk => Sys2Proof.Machine.execKeyExchange port pointOk s
  | .finish port macOk authorised => Sys2Proof.Machine.execFinish port macOk authorised s
  | .endSession port => Sys2Proof.Machine.execEndSession port s
  | .setEndpointId portB eid => Sys2Proof.Machine.execSetEndpointId portB eid s
  | .pldmSensorRead portB sensor => Sys2Proof.Machine.execPldmSensorRead portB sensor s
  | .readVin portB => Sys2Proof.Machine.execReadVin portB s
  | .readIin portB => Sys2Proof.Machine.execReadIin portB s
  | .readPout portB => Sys2Proof.Machine.execReadPout portB s
  | .readTemperature portB n => Sys2Proof.Machine.execReadTemperature portB n s
  | .statusWord portB => Sys2Proof.Machine.execStatusWord portB s
  | .bypass => Sys2Proof.Machine.execBypass s
  | .idcode => Sys2Proof.Machine.execIdcode s
  | .samplePreload => Sys2Proof.Machine.execSamplePreload s
  | .extest => Sys2Proof.Machine.execExtest s
  | .clamp => Sys2Proof.Machine.execClamp s
  | .highz => Sys2Proof.Machine.execHighz s
  | .reservedEncoding x word => Sys2Proof.Machine.execReservedEncoding x word s
  | .undefinedOpcode e opcode => Sys2Proof.Machine.execUndefinedOpcode e opcode s
  | .reservedFrameType h type => Sys2Proof.Machine.execReservedFrameType h type s
  | .finalResponse fn seq => Sys2Proof.Machine.execFinalResponse fn seq s
  | .fwSwitched => Sys2Proof.Machine.execFwSwitched s
  | .railsInTolerance group => Sys2Proof.Machine.execRailsInTolerance group s
  | .uangoStarted pufOk sigA sigB => Sys2Proof.Machine.execUangoStarted pufOk sigA sigB s
  | .farRelocation bytes spareUsed => Sys2Proof.Machine.execFarRelocation bytes spareUsed s
  | .pcieLinkUp gen width => Sys2Proof.Machine.execPcieLinkUp gen width s
  | .pldmEventRead portB => Sys2Proof.Machine.execPldmEventRead portB s

end Sys2Proof.Machine
end

