-- ==== Sys2Proof/Safety.lean ====
section
/-! DEFINITION. What the claims call a safe run, what they call an instruction that executes, and what they say a
step leaves unchanged. -/

namespace Sys2Proof.Machine
open Sys2Proof

/-! ## Runs -/

/-- What every step keeps: the memory of the module is in its canonical form. -/
def State.Inv (s : State) : Prop := Memory.wf s.mem = true

/-- A step goes on. -/
def Completes (o : Host.Outcome State Fault Refusal) : Prop := ∃ t, o = .next t

/-- The states that steps reach from `s`. -/
inductive Reaches (s : State) : State → Prop where
  | refl : Reaches s s
  | tail {t u : State} : Reaches s t → step t = .next u → Reaches s u

/-- A run is safe if from every state it reaches the next step goes on. -/
def SafeFrom (s : State) : Prop := ∀ t, Reaches s t → Completes (step t)

/-! ## An instruction that executes (R61, R143, R148, R149) -/

/-- The context of the instruction holds the issue slot, its PC is a canonical address, its fetch hits, its guard
holds, and neither the guard nor a general register of `rs` or a predicate of `ps` is still pending. -/
structure Runs (x : Issue) (rs ps : List Nat) (s : State) : Prop where
  slot : issues s x = true
  pc : field (stCtx s x.core x.ctx).pc 48 16 = 0
  fetch : icHits (coreOf s x.core) (stCtx s x.core x.ctx).pc = true
  guardLegal : ¬(x.pg = 0 ∧ x.pn = true)
  guardKnown : predPending (coreOf s x.core) x.ctx x.pg.toNat = false
  guard : readP (stCtx s x.core x.ctx) x.pg.toNat ≠ x.pn
  known : firstPending (coreOf s x.core) x.ctx rs ps = none

/-! ## What a step leaves unchanged -/

/-- Nothing outside core `c` changes: no other core, no byte of memory, no other element of the module. -/
def OnlyCore (c : Nat) (s t : State) : Prop :=
  t = { s with cores := t.cores } ∧ ∀ j, j ≠ c → coreOf t j = coreOf s j

/-- Of core `c`, only context `n`, the counters, the tags in use and the order of the instruction cache change. -/
def OnlyCtx (c n : Nat) (s t : State) : Prop :=
  OnlyCore c s t ∧
  coreOf t c = { coreOf s c with ctxs := (coreOf t c).ctxs, counters := (coreOf t c).counters,
                                 readTags := (coreOf t c).readTags, writeTags := (coreOf t c).writeTags,
                                 icache := (coreOf t c).icache } ∧
  (∀ a, icHits (coreOf t c) a = icHits (coreOf s c) a) ∧
  ∀ m, m ≠ n → stCtx t c m = stCtx s c m

/-- The issuing context goes on at `pc`, and nothing but its registers, predicates and counts changes in it. -/
def GoesTo (x : Issue) (pc : Word64) (s t : State) : Prop :=
  OnlyCtx x.core x.ctx s t ∧
  let a := stCtx s x.core x.ctx
  let b := stCtx t x.core x.ctx
  b = { a with regs := b.regs, preds := b.preds, counters := b.counters, yieldTimer := b.yieldTimer, granted := [],
               pc := pc, order := a.order + 1 }

/-- The context goes on at `pc` with general register `d` holding `v`; g0 reads 0 whatever is written; every other
register and every predicate is unchanged. -/
def SetsReg (x : Issue) (pc : Word64) (d : Nat) (v : Word64) (s t : State) : Prop :=
  GoesTo x pc s t ∧
  (∀ r, readG (stCtx t x.core x.ctx) r = if r = d ∧ d ≠ 0 then v else readG (stCtx s x.core x.ctx) r) ∧
  (stCtx t x.core x.ctx).preds = (stCtx s x.core x.ctx).preds

/-- The context goes on at the next instruction with predicate `p` holding `v`; p0 reads 1 whatever is written; every
other predicate and every register is unchanged. -/
def SetsPred (x : Issue) (p : Nat) (v : Bool) (s t : State) : Prop :=
  GoesTo x ((stCtx s x.core x.ctx).pc + 8) s t ∧
  (∀ q, q < 8 → readP (stCtx t x.core x.ctx) q = if q = p ∧ p ≠ 0 then v else readP (stCtx s x.core x.ctx) q) ∧
  (stCtx t x.core x.ctx).regs = (stCtx s x.core x.ctx).regs

/-- The context stops at its instruction with a precise fault (R81): FAULTED, with the cause, the address and the
instruction's PC recorded, if it had no earlier fault. -/
def FaultsAt (x : Issue) (c : Cause) (addr : Word64) (s t : State) : Prop :=
  let b := stCtx t x.core x.ctx
  b.st = .faulted ∧ b.cause = some c ∧ b.imprecise = false ∧ b.faultPc = (stCtx s x.core x.ctx).pc ∧
  b.faultAddr = addr ∧ t.mem = s.mem

/-! ## Frames and mailbox commands -/

/-- A sequenced frame that its receiver accepts (R349, R350): the link is UP, parity and tag are good and the number is the one
expected. The rest says that its header has nothing else to do: nothing is acknowledged, no credit comes back, nothing waits. -/
structure FrameAccepted (h : FrameHdr) (s : State) : Prop where
  up : (linkOf s h.link).st = .up
  notStopped : (linkOf s h.link).stopped = false
  parity : h.parityOk = true
  tag : h.tagOk = true
  number : h.fseq = (linkOf s h.link).rxE
  nothingOpen : (linkOf s h.link).txBuf = []
  nothingWaits : (dieOf s (decide (16 ≤ h.link))).queue = []
  noCredit : h.cred.getLsbD 2 = false
  noCopies : (dieOf s (decide (16 ≤ h.link))).mcWait = []
  noneLocal : (dieOf s (decide (16 ≤ h.link))).toLocal = []
  noneKept : ∀ e ∈ s.chans, e.2.later = []
  running : s.fabric.holding = false

/-- A frame without a sequence number that its receiver takes. -/
structure FrameTaken (h : FrameHdr) (s : State) : Prop where
  up : (linkOf s h.link).st = .up
  parity : h.parityOk = true
  tag : h.tagOk = true
  vc : h.vc = 0
  noCredit : h.cred.getLsbD 2 = false
  nothingWaits : (dieOf s (decide (16 ≤ h.link))).queue = []
  noCopies : (dieOf s (decide (16 ≤ h.link))).mcWait = []
  noneLocal : (dieOf s (decide (16 ≤ h.link))).toLocal = []
  noneKept : ∀ e ∈ s.chans, e.2.later = []
  running : s.fabric.holding = false

/-- The state in which an accepted frame is delivered: its header has been taken, and it has its input buffer (R350, R351). -/
def intake (h : FrameHdr) (s : State) : State := acceptFrame h (takeHeader s h)

/-- The channel of this module to which an accepted frame is delivered (R316, R363, R375): valid, not ended, and the frame carries
the next channel sequence number. -/
structure ForChan (h : FrameHdr) (s : State) : Prop where
  here : h.dest.toNat = s.fabric.modid
  notCopied : tabFind (dieOf s (decide (16 ≤ h.link))).groups (treeKey h.dest.toNat h.chan.toNat) = none
  valid : (chanOf s h.chan.toNat).valid = true
  live : (chanOf s h.chan.toNat).ended = false
  next : h.cseq = (chanOf s h.chan.toNat).rxH + 1

/-- Uango reads the entry, which passes every check of R407 that does not look at the fields of its own opcode, and answers at once:
the response ring has room, and the entry asks for no late answer. -/
structure Admits (p : CmdSpec) (e : Entry) (s : State) : Prop where
  ready : slotReady s e = true
  read : e.readFails = false
  steady : switching s (funcOf s e.fn) = false
  header : headerCheck (funcOf s e.fn) e (p.op == 0) (some p) false = none
  body : bodyCheck s e p false = none
  few : (funcOf s e.fn).owed.length < 64
  atOnce : e.late = false
  noneWaits : (funcOf s e.fn).rspWait = []
  room : idxDist (funcOf s e.fn).rspPi (funcOf s e.fn).rspCi < 256

/-- The command has been consumed, and its response stands in the next slot of the response ring (R402, R405): status, length, body,
and the bytes written to the host's buffer. -/
def Answered (e : Entry) (op : Nat) (st : Half) (len : Nat) (body : BitVec 384) (data : List Byte) (s t : State) : Prop :=
  let f := funcOf s e.fn
  let g := funcOf t e.fn
  g.cmdCi = f.cmdCi + 1 ∧ g.rspPi = f.rspPi + 1 ∧
  ∃ r, tabFind g.rspRing (f.rspPi.toNat % 256) = some r ∧ r.opcode.toNat = op ∧ r.seq = e.seq ∧ r.status = st ∧ r.length = len ∧
    r.body = body ∧ r.data = data

/-- The command is answered, and its own effect leads from `s` to `u`: the registers and rings of the sending function are all that
changes besides. -/
def Gives (e : Entry) (op : Nat) (st : Half) (len : Nat) (body : BitVec 384) (data : List Byte) (u s t : State) : Prop :=
  Answered e op st len body data s t ∧ t = { u with funcs := t.funcs } ∧ ∀ n, n ≠ e.fn → funcOf t n = funcOf u n

/-- The command answers OK with nothing in its response, and its own effect leads from `s` to `u`. -/
def GivesOk (e : Entry) (op : Nat) (u s t : State) : Prop := Gives e op stOK 0 0 [] u s t

/-- The command is refused with a status, and changes nothing. -/
def Refuses (e : Entry) (op : Nat) (st : Half) (s t : State) : Prop := Gives e op st 0 0 [] s s t

/-- The command answers PENDING, and is owed its final response until the work on `obj` is whole (R408). -/
def Waits (e : Entry) (op obj : Nat) (s t : State) : Prop :=
  Answered e op stPending 0 0 [] s t ∧
  ∃ c ∈ (funcOf t e.fn).owed, c.opcode.toNat = op ∧ c.seq = e.seq ∧ c.obj = obj ∧ c.status = none

/-- The state of `v` is that of `s` but for the functions and the model's own numbering. -/
def SameBut (s v : State) : Prop := v = { s with funcs := v.funcs, nextId := v.nextId }

end Sys2Proof.Machine
end

