-- ==== Sys2Proof/WellFormed.lean ====
section
/-! DEFINITION. What a command has to satisfy to be one the manual speaks of: its operands name parts the module has, and
no field holds a value its table marks as reserved (R8, R145). A model of a command outside it changes nothing it names. -/

namespace Sys2Proof

/-- A logical core (R17). -/
def coreOk (c : Nat) : Bool := decide (c < 352)

/-- A function, and the tenant of the same number (R398). -/
def fnOk (n : Nat) : Bool := decide (n < 64)

/-- A fabric link (R345). -/
def linkOk (l : Nat) : Bool := decide (l < 32)

/-- A fabric channel (R366), and a DMA channel (R320). -/
def chanOk (c : Nat) : Bool := decide (c < 4096)
def dmaOk (c : Nat) : Bool := decide (c < 256)

/-- An instruction comes from one of the eight contexts of a logical core (R61). -/
def issueOk (x : Issue) : Bool := coreOk x.core && decide (x.ctx < 8)

/-- The command is one of the manual's. -/
def Instr.wf (i : Instr) : Bool :=
  match i with
  | .nop x => issueOk x
  | .exit x => issueOk x
  | .yield x => issueOk x
  | .rsr x _ _ => issueOk x
  | .add x _ _ _ => issueOk x
  | .addi x _ _ _ => issueOk x
  | .sub x _ _ _ => issueOk x
  | .and x _ _ _ => issueOk x
  | .andi x _ _ _ => issueOk x
  | .or x _ _ _ => issueOk x
  | .ori x _ _ _ => issueOk x
  | .xor x _ _ _ => issueOk x
  | .xori x _ _ _ => issueOk x
  | .shl x _ _ _ => issueOk x
  | .shli x _ _ imm => issueOk x && decide (imm.toNat < 64)
  | .shr x _ _ _ => issueOk x
  | .shri x _ _ imm => issueOk x && decide (imm.toNat < 64)
  | .shrl x _ _ _ => issueOk x
  | .shrli x _ _ imm => issueOk x && decide (imm.toNat < 64)
  | .min x _ _ _ => issueOk x
  | .max x _ _ _ => issueOk x
  | .minu x _ _ _ => issueOk x
  | .maxu x _ _ _ => issueOk x
  | .mul x _ _ _ => issueOk x
  | .muli x _ _ _ => issueOk x
  | .mulh x _ _ _ => issueOk x
  | .mulhu x _ _ _ => issueOk x
  | .div x _ _ _ => issueOk x
  | .divu x _ _ _ => issueOk x
  | .rem x _ _ _ => issueOk x
  | .remu x _ _ _ => issueOk x
  | .dividerResult core => coreOk core
  | .sel x _ _ _ _ => issueOk x
  | .clz x _ _ => issueOk x
  | .popc x _ _ => issueOk x
  | .sext x _ _ _ => issueOk x
  | .movk x _ _ _ => issueOk x
  | .cmp x _ cond _ _ => issueOk x && decide (cond.toNat ≤ 9)
  | .cmpi x _ cond _ _ => issueOk x && decide (cond.toNat ≤ 9)
  | .pand x _ _ _ => issueOk x
  | .por x _ _ _ => issueOk x
  | .pxor x _ _ _ => issueOk x
  | .pandn x _ _ _ => issueOk x
  | .pget x _ _ => issueOk x
  | .pset x _ _ => issueOk x
  | .br x _ => issueOk x
  | .jal x _ _ => issueOk x
  | .jr x _ => issueOk x
  | .jalr x _ _ => issueOk x
  | .dbnz x _ _ => issueOk x
  | .ld x _ _ _ _ _ => issueOk x
  | .ldu x _ _ sz _ _ => issueOk x && decide (sz ≠ 3)
  | .st x _ _ _ _ => issueOk x
  | .lld x _ _ _ _ _ => issueOk x
  | .lldu x _ _ sz _ _ => issueOk x && decide (sz ≠ 3)
  | .lst x _ _ _ _ => issueOk x
  | .pf x _ _ _ => issueOk x
  | .tcfg x _ _ => issueOk x
  | .trel x _ => issueOk x
  | .tload x _ _ _ _ => issueOk x
  | .tstore x _ _ _ _ => issueOk x
  | .tmma x _ _ _ _ shape t c ax _ =>
    issueOk x && decide (shape.toNat ≤ 5) && !(t && shape != 0 && shape != 5) && !(ax && !c)
  | .vadd x _ _ _ _ => issueOk x
  | .vsub x _ _ _ _ => issueOk x
  | .vabs x _ _ => issueOk x
  | .vneg x _ _ => issueOk x
  | .vmin x _ _ _ => issueOk x
  | .vmax x _ _ _ => issueOk x
  | .vand x _ _ _ => issueOk x
  | .vor x _ _ _ => issueOk x
  | .vxor x _ _ _ => issueOk x
  | .vclz x _ _ => issueOk x
  | .vshl x _ _ cnt _ => issueOk x && match cnt with | .imm k => decide (k.toNat < 32) | .lanes _ => true
  | .vshr x _ _ _ rnd => issueOk x && decide (rnd.toNat < 2)
  | .vshrl x _ _ _ => issueOk x
  | .vcmp x _ _ _ cond => issueOk x && [0, 1, 2, 3, 6].contains cond.toNat
  | .vsel x _ _ _ _ => issueOk x
  | .vmul x _ _ _ _ => issueOk x
  | .vmulh x _ _ _ => issueOk x
  | .vmulsh x _ _ _ _ => issueOk x
  | .vperm x _ _ _ => issueOk x
  | .vbcast x _ _ _ => issueOk x
  | .vmovv x _ _ => issueOk x
  | .vmovg x _ _ _ => issueOk x
  | .vredsum x _ _ => issueOk x
  | .vredmax x _ _ => issueOk x
  | .vredmin x _ _ => issueOk x
  | .vtstp x _ _ => issueOk x
  | .vtrd x _ _ _ _ => issueOk x
  | .vtsc x _ _ _ => issueOk x
  | .vard x _ _ _ => issueOk x
  | .vtwr x _ _ _ => issueOk x
  | .vawr x _ _ _ => issueOk x
  | .vreq x _ _ _ _ mode _ _ _ => issueOk x && decide (mode ≠ 3)
  | .areq x _ _ _ _ n _ mode _ _ _ => issueOk x && decide (mode ≠ 3) && decide (1 ≤ n.toNat) && decide (n.toNat ≤ 64)
  | .vwid x _ _ _ _ n _ => issueOk x && decide (1 ≤ n.toNat) && decide (n.toNat ≤ 64)
  | .vld x _ _ _ => issueOk x
  | .vst x _ _ _ => issueOk x
  | .vldL x _ _ _ => issueOk x
  | .vstL x _ _ _ => issueOk x
  | .vfn x _ _ fn _ _ => issueOk x && !(fn == 6 || fn == 7)
  | .vrng x _ _ _ _ _ => issueOk x
  | .sig x _ _ cnt _ => issueOk x && decide (cnt ≠ 0)
  | .wait x _ => issueOk x
  | .tryw x _ _ => issueOk x
  | .fence x mask => issueOk x && decide (mask ≠ 0)
  | .dsub x _ _ se sem => issueOk x && (se || sem == 0)
  | .gsub x _ se sem => issueOk x && (se || sem == 0)
  | .engineCommandAccept core => coreOk core
  | .issueSwitch core => coreOk core
  | .yieldTimerExpiry core => coreOk core
  | .readResponseArrival _ => true
  | .writeResponseArrival _ => true
  | .tagFree core _ => coreOk core
  | .walkComplete fold tenant _ _ => decide (fold < 48) && fnOk tenant
  | .translationInvalidate _ _ => true
  | .tloadRowArrival _ => true
  | .tstoreStart core _ _ => coreOk core
  | .vectorEntryStart core _ => coreOk core
  | .vectorResultWrite core _ => coreOk core
  | .arrayPassStart core _ => coreOk core
  | .stationaryLoadStart core _ => coreOk core
  | .stationaryLoadEnd core => coreOk core
  | .passCommitStart core _ _ => coreOk core
  | .passRetire core _ => coreOk core
  | .arrayRampDown core => coreOk core
  | .signalArrival core _ _ => coreOk core
  | .sigRelRelease core _ => coreOk core
  | .fenceRelease core ctx => coreOk core && decide (ctx < 8)
  | .taskStart tenant handle ctx => fnOk tenant && decide (handle < 4096) && decide (ctx < 8)
  | .taskDoneCompare core ctx => coreOk core && decide (ctx < 8)
  | .faultCleanupComplete core ctx => coreOk core && decide (ctx < 8)
  | .pageResident tenant _ => fnOk tenant
  | .timeSliceBoundary core => coreOk core
  | .contextSaveComplete core ctx => coreOk core && decide (ctx < 8)
  | .flitReceive _ rx ry inp pkt _ => decide (rx < 16) && decide (ry < 24) && inp.at rx ry && pkt.carried
  | .arbitrationRound _ rx ry outp => decide (rx < 16) && decide (ry < 24) && outp.at rx ry
  | .arbPreempt _ rx ry outp => decide (rx < 16) && decide (ry < 24) && outp.at rx ry
  | .grantWatchdogBite _ rx ry outp => decide (rx < 16) && decide (ry < 24) && outp.at rx ry
  | .outputResetEnd _ rx ry outp => decide (rx < 16) && decide (ry < 24) && outp.at rx ry
  | .reductionBlockArrival _ rx ry inp pkt => decide (rx < 16) && decide (ry < 24) && inp.at rx ry && pkt.carried
  | .routerFailure _ rx ry => decide (rx < 16) && decide (ry < 24)
  | .planeDrained _ => true
  | .coreStatusProbe => true
  | .coreProbeTimeout core => coreOk core
  | .coreFailure core => coreOk core
  | .fenceDrainComplete core => coreOk core
  | .fallowSelfTestComplete core _ => coreOk core
  | .memoryReadRequest _ _ => true
  | .memoryWriteRequest _ _ => true
  | .farWrite _ _ => true
  | .pageFault tenant _ => fnOk tenant
  | .pageInCopyComplete tenant _ _ => fnOk tenant
  | .evictionStart tenant _ stack => fnOk tenant && decide (stack < 8)
  | .evictionAcksReceived tenant _ => fnOk tenant
  | .evictionWritebackDone tenant _ _ => fnOk tenant
  | .accClearTick => true
  | .nearStackUnusable stack _ => decide (stack < 8)
  | .prefetchFill _ => true
  | .dmaDescriptorFetch chan _ => dmaOk chan
  | .dmaBurstIssue engine => decide (engine < 32)
  | .dmaReadReturn chan _ _ => dmaOk chan
  | .dmaWriteResponse chan _ _ => dmaOk chan
  | .dmaFarCheckAnswer chan _ => dmaOk chan
  | .dmaDescriptorComplete chan => dmaOk chan
  | .dmaRecordWritten chan _ => dmaOk chan
  | .dmaLateWriteError chan _ _ => dmaOk chan
  | .dmaPauseDrained chan => dmaOk chan
  | .dmaAbortDrained chan => dmaOk chan
  | .gleanerCommandStart fold _ _ => decide (fold < 48)
  | .blockFetchPredict fold _ _ _ => decide (fold < 48)
  | .blockFetchResolve fold _ _ _ => decide (fold < 48)
  | .lookup fold _ _ _ _ => decide (fold < 48)
  | .scatter fold _ _ _ => decide (fold < 48)
  | .sample fold _ _ _ _ => decide (fold < 48)
  | .gleanerCompletion fold _ _ => decide (fold < 48)
  | .lookupRowRequest fold tenant _ _ _ chan => decide (fold < 48) && fnOk tenant && chanOk chan
  | .sampleExpansionRequest fold tenant _ _ _ _ _ _ _ _ _ _ _ _ _ _ chan => decide (fold < 48) && fnOk tenant && chanOk chan
  | .scatterBlockAdd fold tenant _ _ _ _ _ => decide (fold < 48) && fnOk tenant
  | .tableVersionFree tenant _ _ _ => fnOk tenant
  | .voteSumReceive tenant job _ _ => fnOk tenant && decide (job < 65536)
  | .stepClose tenant job => fnOk tenant && decide (job < 65536)
  | .ploverRecompute _ => true
  | .epochIntervalExpiry tenant job _ => fnOk tenant && decide (job < 65536)
  | .epochStart tenant job _ => fnOk tenant && decide (job < 65536)
  | .segmentReceive _ _ _ _ _ _ _ => true
  | .epochVerified tenant job _ => fnOk tenant && decide (job < 65536)
  | .moduleLossDetected modid => decide (modid < 1024)
  | .linkTrainComplete link _ _ => linkOk link
  | .linkAlignComplete link _ _ => linkOk link
  | .helloSendTick link => linkOk link
  | .hello link _ => linkOk link
  | .linkRefusedRecheck link => linkOk link
  | .keyxShare link _ => linkOk link
  | .keyxCert link _ _ => linkOk link
  | .keyxFinish link _ _ => linkOk link
  | .keyxTimeout link => linkOk link
  | .fecLockLoss link lane => linkOk link && decide (lane < 4)
  | .linkErrorWindowEnd link _ _ corr => linkOk link && decide (corr.length ≤ 4)
  | .retrainComplete link _ _ => linkOk link
  | .linkFailedRetry link => linkOk link
  | .idleFrame h => linkOk h.link
  | .dataFrame h _ => linkOk h.link
  | .xferWrite h _ _ _ _ => linkOk h.link
  | .xferRead h _ _ _ => linkOk h.link
  | .xferDone h _ _ => linkOk h.link
  | .redFrame h _ => linkOk h.link
  | .redpFrame h => linkOk h.link
  | .sigFrame h _ _ _ => linkOk h.link
  | .glnFrame h _ => linkOk h.link
  | .nak h _ => linkOk h.link
  | .fovReq h named => linkOk h.link && linkOk named
  | .fovAns h named _ => linkOk h.link && linkOk named
  | .nakResendTimer link => linkOk link
  | .failoverLimit link => linkOk link
  | .elect h _ _ => linkOk h.link
  | .map h _ _ _ => linkOk h.link
  | .join h _ _ _ => linkOk h.link
  | .routes h _ _ _ => linkOk h.link
  | .ready h src _ => linkOk h.link && decide (src < 1024)
  | .hold h => linkOk h.link
  | .drained h src => linkOk h.link && decide (src < 1024)
  | .commit h _ => linkOk h.link
  | .csetup h src srcChan _ _ _ _ => linkOk h.link && decide (src < 1024) && chanOk srcChan
  | .cinstall h chan _ rootMod rootChan _ _ =>
    linkOk h.link && (chanOk chan || chan == 4096 + 4096 * rootMod + rootChan) && decide (rootMod < 1024) && chanOk rootChan
  | .cend h chan _ => linkOk h.link && decide (chan < 4096 + 4096 * 1024)
  | .lost h chan => linkOk h.link && chanOk chan
  | .time h _ _ _ _ _ => linkOk h.link
  | .bellwetherSettle => true
  | .routeTableFree _ => true
  | .frameAgeDiscard _ chan => chanOk chan
  | .channelSetupWindowEnd chan => chanOk chan
  | .channelIdRelease chan => chanOk chan
  | .timeSyncTick root => decide (root < 1024)
  | .ppsEdge => true
  | .ppsLoss => true
  | .rekeyTrigger link => linkOk link
  | .governorSample _ _ => true
  | .droopEvent band => decide (band < 6)
  | .clockStretchEnd band => decide (band < 6)
  | .thermalReading temps => decide (temps.length = 60)
  | .cclkChange band units => decide (band < 6) && decide (20 ≤ units ∧ units ≤ 54)
  | .pllRelockComplete band => decide (band < 6)
  | .vinGood _ _ => true
  | .vinLow => true
  | .vinUndervolt => true
  | .vinOvervolt => true
  | .vinRestored => true
  | .aonWatchdogExpiry => true
  | .moduleReset => true
  | .farControllerReady => true
  | .memoryTrainingComplete _ _ _ _ => true
  | .bootComplete => true
  | .perstAssert => true
  | .perstDeassert => true
  | .hotReset => true
  | .pcieLinkDown => true
  | .functionLevelReset fn => fnOk fn
  | .vfEnable num => decide (1 ≤ num ∧ num ≤ 63)
  | .vfDisable => true
  | .configurationRequest fn _ => fnOk fn
  | .crsTimeout => true
  | .cmdPi fn _ => fnOk fn
  | .rspCi fn _ => fnOk fn
  | .evtCi fn _ => fnOk fn
  | .ringEnable fn => fnOk fn
  | .ringDisable fn => fnOk fn
  | .intMask fn _ => fnOk fn
  | .restartUango fn _ => fnOk fn
  | .switchSlot fn _ => fnOk fn
  | .registerWrite fn off _ => fnOk fn && decide (off < 65536 ∧ off % 8 = 0)
  | .bar2Read fn _ _ _ => fnOk fn
  | .bar2Write fn _ _ => fnOk fn
  | .responseRingSpace fn => fnOk fn
  | .helloCommand e => fnOk e.fn
  | .bye e => fnOk e.fn
  | .ping e => fnOk e.fn
  | .tenantConfig e => fnOk e.fn
  | .tenantQuery e => fnOk e.fn
  | .tenantEnd e => fnOk e.fn
  | .coreBind e => fnOk e.fn
  | .coreUnbind e => fnOk e.fn
  | .ctxOpen e => fnOk e.fn
  | .ctxResume e => fnOk e.fn
  | .ctxFlush e => fnOk e.fn
  | .ctxKill e => fnOk e.fn
  | .ctxClose e => fnOk e.fn
  | .ctxQuery e => fnOk e.fn
  | .ctxSignal e => fnOk e.fn
  | .jobCreate e => fnOk e.fn
  | .jobScale e => fnOk e.fn
  | .jobOpt e => fnOk e.fn
  | .jobMask e => fnOk e.fn
  | .jobStart e => fnOk e.fn
  | .jobStop e => fnOk e.fn
  | .jobQuery e => fnOk e.fn
  | .jobDestroy e => fnOk e.fn
  | .taskSubmit e => fnOk e.fn
  | .memMap e => fnOk e.fn
  | .memUnmap e => fnOk e.fn
  | .memPin e => fnOk e.fn
  | .memUnpin e => fnOk e.fn
  | .memWrite e => fnOk e.fn
  | .memRead e => fnOk e.fn
  | .apertureMap e => fnOk e.fn
  | .apertureUnmap e => fnOk e.fn
  | .memQuery e => fnOk e.fn
  | .distMap e => fnOk e.fn
  | .progLoad e => fnOk e.fn
  | .progUnload e => fnOk e.fn
  | .weightLoad e => fnOk e.fn
  | .tableCreate e => fnOk e.fn
  | .tableInstall e => fnOk e.fn
  | .tableCommit e => fnOk e.fn
  | .tableDestroy e => fnOk e.fn
  | .chanSetup e => fnOk e.fn
  | .chanJoin e => fnOk e.fn
  | .chanGroup e => fnOk e.fn
  | .chanTeardown e => fnOk e.fn
  | .chanQuery e => fnOk e.fn
  | .dmaAllot e => fnOk e.fn
  | .dmaRelease e => fnOk e.fn
  | .dmaPause e => fnOk e.fn
  | .dmaResume e => fnOk e.fn
  | .dmaAbort e => fnOk e.fn
  | .dmaReset e => fnOk e.fn
  | .dmaSubmit e => fnOk e.fn
  | .dmaStatus e => fnOk e.fn
  | .ckptConfig e => fnOk e.fn
  | .ckptSecure e => fnOk e.fn
  | .ckptList e => fnOk e.fn
  | .ckptRestore e => fnOk e.fn
  | .ckptDelete e => fnOk e.fn
  | .attestGet e => fnOk e.fn
  | .keyRotateMemory e => fnOk e.fn
  | .keyRotateLink e => fnOk e.fn
  | .keyRotationSector frame _ => decide (frame < 2097152)
  | .telemRead e => fnOk e.fn
  | .telemRate e => fnOk e.fn
  | .coreMap e => fnOk e.fn
  | .ploverSet e => fnOk e.fn
  | .timeSet e => fnOk e.fn
  | .fwStage e => fnOk e.fn
  | .fwActivate e => fnOk e.fn
  | .fwQuery e => fnOk e.fn
  | .linkDisable e => fnOk e.fn
  | .linkEnable e => fnOk e.fn
  | .linkRetrain e => fnOk e.fn
  | .modEvacuate e => fnOk e.fn
  | .vendorDiagnostic e _ => fnOk e.fn
  | .lockstepMismatch => true
  | .uangoRestartComplete _ => true
  | .fwSwitchTimeout => true
  | .drbgHealthFail => true
  | .entropyRetest _ => true
  | .scrubStart tenant => fnOk tenant
  | .scrubHoldEnd tenant => fnOk tenant
  | .telemetryWindowClose => true
  | .powerWindowClose _ _ _ => true
  | .fabricTimeStore => true
  | .getVersion _ => true
  | .getCapabilities _ _ => true
  | .negotiateAlgorithms _ _ _ _ _ => true
  | .getDigests _ => true
  | .getCertificate _ _ _ _ => true
  | .challenge _ _ _ => true
  | .getMeasurements _ _ _ => true
  | .chunkGet _ _ _ => true
  | .keyExchange _ _ => true
  | .finish _ _ _ => true
  | .endSession _ => true
  | .setEndpointId _ _ => true
  | .pldmSensorRead _ _ => true
  | .readVin _ => true
  | .readIin _ => true
  | .readPout _ => true
  | .readTemperature _ n => decide (1 ≤ n ∧ n ≤ 3)
  | .statusWord _ => true
  | .bypass => true
  | .idcode => true
  | .samplePreload => true
  | .extest => true
  | .clamp => true
  | .highz => true
  | .reservedEncoding x _ => issueOk x
  | .undefinedOpcode e _ => fnOk e.fn
  | .reservedFrameType h _ => linkOk h.link
  | .finalResponse fn _ => fnOk fn
  | .fwSwitched => true
  | .railsInTolerance group => decide (1 ≤ group ∧ group ≤ 4)
  | .uangoStarted _ _ _ => true
  | .farRelocation _ _ => true
  | .pcieLinkUp gen width => [3, 4, 5].contains gen && [4, 8, 16].contains width
  | .pldmEventRead _ => true

end Sys2Proof
end

