-- ==== Sys2Proof/Certificates/Slice0/Obligations.lean ====
section
/-! DEFINITION. The statements about the machine. Each docstring names the rules of spec/ it formalises; what a
statement takes from the model's own choices it says, with the log entry. -/

open Sys2Proof Sys2Proof.Machine

/-! ## The machine -/

/-- The block's step: the command at the front of the queue runs on the state whose queue is the rest of it; an empty
queue is 10 ns of fabric time (the model's choice, log 1). -/
def Obligations.StepRunsTheFrontCommand : Prop :=
  (∀ (c : Instr) (rest : List Instr) (s : State),
    step { s with pending := c :: rest } = exec c { s with pending := rest }) ∧
  (∀ s : State, s.pending = [] → step s = .next (tick s))

/-- The reset values that the spec states: R64 contexts, R87 TILE_CFG, R126 vector registers, R303 semaphores, R322
channel registers of the DMA engines, R401 the registers of every function, R26 the thresholds of Plover. -/
def Obligations.ResetValues : Prop :=
  (∀ c n : Nat, let x := stCtx State.reset c n
    x.st = .free ∧ (∀ r, readG x r = 0) ∧ (∀ p, p < 8 → readP x p = decide (p = 0)) ∧ x.pc = 0 ∧ x.srow = 0 ∧
    x.cause = none ∧ x.imprecise = false ∧ x.multi = false ∧ x.tenant = 0 ∧ x.taskSeq = 0 ∧
    x.res0 = 0 ∧ x.res1 = 0 ∧ x.faultPc = 0 ∧ x.faultAddr = 0) ∧
  (∀ c n : Nat, (tileOf (coreOf State.reset c) n).cfg = 0 ∧
    (semOf (coreOf State.reset c) n).count = 0 ∧ (semOf (coreOf State.reset c) n).ovf = false) ∧
  (∀ c v i : Nat, laneAt (vregOf (coreOf State.reset c) v) i = 0) ∧
  (∀ d : Nat, let x := dmaOf State.reset d
    x.ringVa = 0 ∧ x.cmplVa = 0 ∧ x.ringLog2 = 0 ∧ x.tenant = 0 ∧ x.ivec = 0 ∧ x.hostirq = false ∧ x.pi = 0 ∧ x.ci = 0 ∧
    x.st = .idle ∧ x.err = 0 ∧ x.done = 0 ∧ x.crc = 0) ∧
  (∀ f : Nat, let x := funcOf State.reset f
    x.fstate = .booting ∧ x.sMajor = 0 ∧ x.sMinor = 0 ∧ x.cmdBase = 0 ∧ x.rspBase = 0 ∧ x.evtBase = 0 ∧ x.evtLog2 = 0 ∧
    x.enable = false ∧ x.rerr = false ∧ x.cmdCi = 0 ∧ x.rspPi = 0) ∧
  State.reset.plover.watch = 96 ∧ State.reset.plover.secure = 144 ∧ State.reset.plover.evacuate = 208 ∧
  State.reset.pending = []

/-- The invariant holds right after reset. -/
def Obligations.ResetKeepsMemoryCanonical : Prop := State.reset.Inv

/-- Whatever command a step runs, and in whatever state, a memory in its canonical form stays so: addresses rise
strictly, and no entry holds the value that an unlisted byte reads as (log 3). -/
def Obligations.EveryStepKeepsMemoryCanonical : Prop :=
  ∀ s t : State, s.Inv → step s = .next t → t.Inv

/-- No command stops the machine but a vendor diagnostic one in an unlocked session, of whose effect the spec says
nothing (R423), and none touches the queue: commands run first in, first out. -/
def Obligations.CommandsGoOnInOrder : Prop := ∀ (c : Instr) (s : State),
  (∃ t, exec c s = .next t ∧ t.pending = s.pending) ∨
  (∃ e opcode, c = .vendorDiagnostic e opcode ∧ exec c s = .refused .vendorDiagnostic)


/-! ## Instructions of the scalar unit (07) -/

/-- R153: nop, yield and exit. nop goes on; yield makes the context READY at the next instruction; exit ends in DONE
once its work is done and waits in WAIT_MEM until then. -/
def Claims.SystemForms : Prop := ∀ (x : Issue) (s : State), Runs x [] [] s →
  (∃ t, exec (.nop x) s = .next t ∧ SetsReg x ((stCtx s x.core x.ctx).pc + 8) 0 0 s t) ∧
  (∃ t, exec (.yield x) s = .next t ∧ (stCtx t x.core x.ctx).st = .ready ∧
    (stCtx t x.core x.ctx).pc = (stCtx s x.core x.ctx).pc + 8 ∧ (coreOf t x.core).running = none ∧ t.mem = s.mem) ∧
  (∃ t, exec (.exit x) s = .next t ∧
    (stCtx t x.core x.ctx).st = (if fenceMet s x.core x.ctx 15 then .done else .waitMem) ∧
    (stCtx t x.core x.ctx).pc = (stCtx s x.core x.ctx).pc ∧ (coreOf t x.core).running = none ∧ t.mem = s.mem)

/-- R155, R156, R161: the register forms of the scalar arithmetic, with their whole frame. -/
def Claims.ScalarRegisterForms : Prop := ∀ (x : Issue) (d a b : Reg) (s : State),
  Runs x [d.toNat, a.toNat, b.toNat] [] s →
  let p := readG (stCtx s x.core x.ctx) a.toNat
  let q := readG (stCtx s x.core x.ctx) b.toNat
  let gives := fun (i : Instr) (v : Word64) =>
    ∃ t, exec i s = .next t ∧ SetsReg x ((stCtx s x.core x.ctx).pc + 8) d.toNat v s t
  gives (.add x d a b) (p + q) ∧ gives (.sub x d a b) (p - q) ∧
  gives (.and x d a b) (p &&& q) ∧ gives (.or x d a b) (p ||| q) ∧ gives (.xor x d a b) (p ^^^ q) ∧
  gives (.shl x d a b) (p <<< (q.toNat % 64)) ∧ gives (.shr x d a b) (p.sshiftRight (q.toNat % 64)) ∧
  gives (.shrl x d a b) (p >>> (q.toNat % 64)) ∧
  gives (.min x d a b) (if q.toInt < p.toInt then q else p) ∧ gives (.max x d a b) (if p.toInt < q.toInt then q else p) ∧
  gives (.minu x d a b) (if q.toNat < p.toNat then q else p) ∧ gives (.maxu x d a b) (if p.toNat < q.toNat then q else p) ∧
  gives (.mul x d a b) (BitVec.ofInt 64 (p.toInt * q.toInt)) ∧
  gives (.mulh x d a b) (BitVec.ofInt 64 (p.toInt * q.toInt / 2 ^ 64)) ∧
  gives (.mulhu x d a b) (BitVec.ofNat 64 (p.toNat * q.toNat / 2 ^ 64))

/-- R155, R156: the immediate and the one-source forms of the scalar arithmetic, and sel, with their whole frame. -/
def Claims.ScalarImmediateForms : Prop := ∀ (x : Issue) (d a : Reg) (imm : Word32) (s : State),
  Runs x [d.toNat, a.toNat] [] s →
  let p := readG (stCtx s x.core x.ctx) a.toNat
  let q := imm.signExtend 64
  let gives := fun (i : Instr) (v : Word64) =>
    ∃ t, exec i s = .next t ∧ SetsReg x ((stCtx s x.core x.ctx).pc + 8) d.toNat v s t
  gives (.addi x d a imm) (p + q) ∧ gives (.andi x d a imm) (p &&& q) ∧ gives (.ori x d a imm) (p ||| q) ∧
  gives (.xori x d a imm) (p ^^^ q) ∧ gives (.muli x d a imm) (BitVec.ofInt 64 (p.toInt * q.toInt)) ∧
  gives (.movk x d a imm) (BitVec.ofNat 64 (imm.toNat * 2 ^ 32 + p.toNat % 2 ^ 32)) ∧
  (∀ n : Nat, imm = BitVec.ofNat 32 n → n < 64 →
    gives (.shli x d a imm) (p <<< n) ∧ gives (.shri x d a imm) (p.sshiftRight n) ∧
    gives (.shrli x d a imm) (p >>> n)) ∧
  (∀ k : BitVec 6, gives (.sext x d a k) ((p <<< (63 - k.toNat)).sshiftRight (63 - k.toNat))) ∧
  gives (.clz x d a) (if p = 0 then 64 else BitVec.ofNat 64 (63 - Nat.log2 p.toNat)) ∧
  gives (.popc x d a) (BitVec.ofNat 64 ((List.range 64).countP fun i => p.getLsbD i))

/-- R156: sel takes ga where its predicate reads 1 and gb where it reads 0. -/
def Claims.SelectRegister : Prop := ∀ (x : Issue) (d a b : Reg) (p : PredNo) (s : State),
  Runs x [d.toNat, a.toNat, b.toNat] [p.toNat] s →
  ∃ t, exec (.sel x d p a b) s = .next t ∧
    SetsReg x ((stCtx s x.core x.ctx).pc + 8) d.toNat
      (readG (stCtx s x.core x.ctx) (if readP (stCtx s x.core x.ctx) p.toNat then a.toNat else b.toNat)) s t

/-- R148, R155: a divide takes the free divider, its destination is pending, and the divider's result is the truncated quotient or
the remainder, with the values of the corner cases. The issue changes nothing outside its core, and no register, tile,
bank, vector register or semaphore; after the result every other register and every predicate of the context and all of memory are
as before. -/
def Claims.Divides : Prop := ∀ (x : Issue) (d a b : Reg) (s : State),
  Runs x [d.toNat, a.toNat, b.toNat] [] s → (coreOf s x.core).divide = none → (coreOf s x.core).rsrq = [] →
  let p := readG (stCtx s x.core x.ctx) a.toNat
  let q := readG (stCtx s x.core x.ctx) b.toNat
  let gives := fun (i : Instr) (v : Word64) =>
    ∃ t u, exec i s = .next t ∧ exec (.dividerResult x.core) t = .next u ∧
      OnlyCore x.core s t ∧ (∀ m, m ≠ x.ctx → stCtx t x.core m = stCtx s x.core m) ∧
      (∀ n, tileOf (coreOf t x.core) n = tileOf (coreOf s x.core) n ∧ bankOf (coreOf t x.core) n = bankOf (coreOf s x.core) n ∧
        vregOf (coreOf t x.core) n = vregOf (coreOf s x.core) n ∧ semOf (coreOf t x.core) n = semOf (coreOf s x.core) n) ∧
      (∀ r, readG (stCtx t x.core x.ctx) r = readG (stCtx s x.core x.ctx) r) ∧
      (∀ r, r ≠ d.toNat → readG (stCtx u x.core x.ctx) r = readG (stCtx s x.core x.ctx) r) ∧
      (stCtx u x.core x.ctx).preds = (stCtx s x.core x.ctx).preds ∧
      (stCtx t x.core x.ctx).pc = (stCtx s x.core x.ctx).pc + 8 ∧ regPending (coreOf t x.core) x.ctx d.toNat = decide (d ≠ 0) ∧
      (coreOf u x.core).divide = none ∧ readG (stCtx u x.core x.ctx) d.toNat = (if d = 0 then 0 else v) ∧ u.mem = s.mem
  gives (.div x d a b) (if q = 0 then 0 else BitVec.ofInt 64 (p.toInt.tdiv q.toInt)) ∧
  gives (.rem x d a b) (if q = 0 then p else BitVec.ofInt 64 (p.toInt.tmod q.toInt)) ∧
  gives (.divu x d a b) (if q = 0 then 0 else p / q) ∧
  gives (.remu x d a b) (if q = 0 then p else p % q)

/-- R157, R158: compares, predicate logic, pget and pset, with their whole frame. -/
def Claims.PredicateInstructions : Prop :=
  (∀ (x : Issue) (pd : PredNo) (c : BitVec 4) (a b : Reg) (s : State),
    Runs x [a.toNat, b.toNat] [pd.toNat] s → c.toNat ≤ 9 →
    let p := readG (stCtx s x.core x.ctx) a.toNat
    let q := readG (stCtx s x.core x.ctx) b.toNat
    let holds := [decide (p = q), decide (p ≠ q), decide (p.toInt < q.toInt), decide (p.toInt ≤ q.toInt),
      decide (q.toInt < p.toInt), decide (q.toInt ≤ p.toInt), decide (p.toNat < q.toNat), decide (p.toNat ≤ q.toNat),
      decide (q.toNat < p.toNat), decide (q.toNat ≤ p.toNat)].getD c.toNat false
    ∃ t, exec (.cmp x pd c a b) s = .next t ∧ SetsPred x pd.toNat holds s t) ∧
  (∀ (x : Issue) (pd : PredNo) (c : BitVec 4) (a : Reg) (imm : Word32) (s : State),
    Runs x [a.toNat] [pd.toNat] s → c.toNat ≤ 9 →
    let p := readG (stCtx s x.core x.ctx) a.toNat
    let q : Word64 := imm.signExtend 64
    let holds := [decide (p = q), decide (p ≠ q), decide (p.toInt < q.toInt), decide (p.toInt ≤ q.toInt),
      decide (q.toInt < p.toInt), decide (q.toInt ≤ p.toInt), decide (p.toNat < q.toNat), decide (p.toNat ≤ q.toNat),
      decide (q.toNat < p.toNat), decide (q.toNat ≤ p.toNat)].getD c.toNat false
    ∃ t, exec (.cmpi x pd c a imm) s = .next t ∧ SetsPred x pd.toNat holds s t) ∧
  (∀ (x : Issue) (pd pa pb : PredNo) (s : State), Runs x [] [pd.toNat, pa.toNat, pb.toNat] s →
    let p := readP (stCtx s x.core x.ctx) pa.toNat
    let q := readP (stCtx s x.core x.ctx) pb.toNat
    let gives := fun (i : Instr) (v : Bool) => ∃ t, exec i s = .next t ∧ SetsPred x pd.toNat v s t
    gives (.pand x pd pa pb) (p && q) ∧ gives (.por x pd pa pb) (p || q) ∧ gives (.pxor x pd pa pb) (p ^^ q) ∧
    gives (.pandn x pd pa pb) (p && !q)) ∧
  (∀ (x : Issue) (d : Reg) (pa : PredNo) (s : State), Runs x [d.toNat] [pa.toNat] s →
    ∃ t, exec (.pget x d pa) s = .next t ∧
      SetsReg x ((stCtx s x.core x.ctx).pc + 8) d.toNat (if readP (stCtx s x.core x.ctx) pa.toNat then 1 else 0) s t) ∧
  (∀ (x : Issue) (pd : PredNo) (a : Reg) (s : State), Runs x [a.toNat] [pd.toNat] s →
    ∃ t, exec (.pset x pd a) s = .next t ∧
      SetsPred x pd.toNat (decide (readG (stCtx s x.core x.ctx) a.toNat ≠ 0)) s t)

/-- R159, R160: br, jal, jr, jalr and dbnz, with their whole frame; an indirect target that is not a multiple of 8
faults with ALIGN at the branch, and one that is not canonical with TRANSLATION. -/
def Claims.Branches : Prop := ∀ (x : Issue) (d a : Reg) (imm : Word32) (s : State),
  Runs x [d.toNat, a.toNat] [] s →
  let c := stCtx s x.core x.ctx
  let g := readG c a.toNat
  let goesTo := c.pc + 8 * imm.signExtend 64
  (∃ t, exec (.br x imm) s = .next t ∧ SetsReg x goesTo 0 0 s t) ∧
  (∃ t, exec (.jal x d imm) s = .next t ∧ SetsReg x goesTo d.toNat (c.pc + 8) s t) ∧
  (g.toNat % 8 = 0 → g.toNat < 2 ^ 48 →
    (∃ t, exec (.jr x a) s = .next t ∧ SetsReg x g 0 0 s t) ∧
    (∃ t, exec (.jalr x d a) s = .next t ∧ SetsReg x g d.toNat (c.pc + 8) s t)) ∧
  (g.toNat % 8 ≠ 0 →
    (∃ t, exec (.jr x a) s = .next t ∧ FaultsAt x .align g s t) ∧
    (∃ t, exec (.jalr x d a) s = .next t ∧ FaultsAt x .align g s t)) ∧
  (g.toNat % 8 = 0 → 2 ^ 48 ≤ g.toNat →
    (∃ t, exec (.jr x a) s = .next t ∧ FaultsAt x .translation g s t) ∧
    (∃ t, exec (.jalr x d a) s = .next t ∧ FaultsAt x .translation g s t)) ∧
  (∃ t, exec (.dbnz x a imm) s = .next t ∧
    SetsReg x (if a = 0 ∨ g = 1 then c.pc + 8 else goesTo) a.toNat (g - 1) s t)

/-- R143, R145: an instruction whose guard reads false completes with no effect, and one with a reserved field or a
negated p0 guard faults with ILLEGAL_INSTR at the instruction, shown of addi (the guard), and of shli, cmp and rsr (the decode). A word the decoder takes as reserved
faults so whatever it holds; a word that spells an instruction is not this command and changes nothing (log 11). -/
def Claims.GuardAndDecode : Prop :=
  (∀ (x : Issue) (d a : Reg) (imm : Word32) (s : State), issues s x = true → icHits (coreOf s x.core) (stCtx s x.core x.ctx).pc = true →
    field (stCtx s x.core x.ctx).pc 48 16 = 0 → x.pg ≠ 0 →
    predPending (coreOf s x.core) x.ctx x.pg.toNat = false → readP (stCtx s x.core x.ctx) x.pg.toNat = x.pn →
    ∃ t, exec (.addi x d a imm) s = .next t ∧ SetsReg x ((stCtx s x.core x.ctx).pc + 8) 0 0 s t) ∧
  (∀ (x : Issue) (d a : Reg) (imm : Word32) (s : State), issues s x = true → icHits (coreOf s x.core) (stCtx s x.core x.ctx).pc = true →
    field (stCtx s x.core x.ctx).pc 48 16 = 0 → (64 ≤ imm.toNat ∨ (x.pg = 0 ∧ x.pn = true)) →
    (∃ t, exec (.shli x d a imm) s = .next t ∧ FaultsAt x .illegalInstr 0 s t)) ∧
  (∀ (x : Issue) (pd : PredNo) (c : BitVec 4) (a b : Reg) (s : State), issues s x = true → icHits (coreOf s x.core) (stCtx s x.core x.ctx).pc = true →
    field (stCtx s x.core x.ctx).pc 48 16 = 0 → 10 ≤ c.toNat →
    (∃ t, exec (.cmp x pd c a b) s = .next t ∧ FaultsAt x .illegalInstr 0 s t)) ∧
  (∀ (x : Issue) (d : Reg) (s : State), issues s x = true → icHits (coreOf s x.core) (stCtx s x.core x.ctx).pc = true →
    field (stCtx s x.core x.ctx).pc 48 16 = 0 →
    (∃ t, exec (.rsr x d 0x05) s = .next t ∧ FaultsAt x .illegalInstr 0 s t)) ∧
  (∀ (x : Issue) (word : Word64) (s : State), wordLegal word = true → exec (.reservedEncoding x word) s = .next s) ∧
  (∀ (x : Issue) (word : Word64) (s : State), wordLegal word = false → issues s x = true → icHits (coreOf s x.core) (stCtx s x.core x.ctx).pc = true →
    field (stCtx s x.core x.ctx).pc 48 16 = 0 →
    ∃ t, exec (.reservedEncoding x word) s = .next t ∧ FaultsAt x .illegalInstr 0 s t)

/-- R154: rsr reads the context registers, CORE_ID, FTIME (the copy of the core's row band, within 20 ns of fabric time by R317), the context counters, the configuration and the row-valid word of
a tile, the status word of a bank, and the count and overflow bit of a semaphore, each of the last three inside the masks. -/
def Claims.ReadSystemRegister : Prop := ∀ (x : Issue) (d : Reg) (s : State), Runs x [d.toNat] [] s →
  let c := stCtx s x.core x.ctx
  let gives := fun (sys : BitVec 12) (v : Word64) =>
    ∃ t, exec (.rsr x d sys) s = .next t ∧ SetsReg x (c.pc + 8) d.toNat v s t
  gives 1 c.res0 ∧ gives 2 c.res1 ∧ gives 3 c.faultPc ∧ gives 4 c.faultAddr ∧
  gives 8 (BitVec.ofNat 64 (x.core % 512 + 2 ^ 16 * (s.fabric.modid % 1024))) ∧ gives 10 (BitVec.ofNat 64 (copyOf s (bandOf s x.core))) ∧
  s.ftime ≤ copyOf s (bandOf s x.core) + 20 ∧ copyOf s (bandOf s x.core) ≤ s.ftime + 20 ∧
  (∀ q : BitVec 6, c.res1.getLsbD q.toNat = true →
    gives (BitVec.ofNat 12 (0x80 + q.toNat))
      (BitVec.ofNat 64 ((semOf (coreOf s x.core) q.toNat).count % 2 ^ 16 +
        2 ^ 16 * b2n (semOf (coreOf s x.core) q.toNat).ovf))) ∧
  (∀ q : BitVec 6, c.res1.getLsbD q.toNat = false →
    ∃ t, exec (.rsr x d (BitVec.ofNat 12 (0x80 + q.toNat))) s = .next t ∧ FaultsAt x .permission 0 s t) ∧
  (∀ n : Nat, n ≤ 12 → gives (BitVec.ofNat 12 (0x100 + n)) (BitVec.ofNat 64 (look 0 c.counters (0x100 + n)))) ∧
  (∀ n : BitVec 4, c.res0.getLsbD n.toNat = false →
    ∃ t, exec (.rsr x d (BitVec.ofNat 12 (0x10 + n.toNat))) s = .next t ∧ FaultsAt x .permission 0 s t) ∧
  ((coreOf s x.core).moves = [] → vecOpen (coreOf s x.core) = [] → (coreOf s x.core).aq = [] →
    (∀ n : BitVec 4, c.res0.getLsbD n.toNat = true →
      gives (BitVec.ofNat 12 (0x10 + n.toNat)) ((tileOf (coreOf s x.core) n.toNat).cfg.setWidth 64) ∧
      gives (BitVec.ofNat 12 (0x30 + n.toNat)) (tileOf (coreOf s x.core) n.toNat).rowv) ∧
    (∀ n : BitVec 2, c.res0.getLsbD (16 + n.toNat) = true → let w := (bankOf (coreOf s x.core) n.toNat).status
      gives (BitVec.ofNat 12 (0x40 + n.toNat))
        (BitVec.ofNat 64 (w.aexp.toNat + 2 ^ 10 * b2n w.aexpSet + 2 ^ 11 * b2n w.ovfl + 2 ^ 12 * b2n w.psni))))

/-- R153, R154: nop, yield, exit and rsr. -/
def Obligations.SystemInstructions : Prop := Claims.SystemForms ∧ Claims.ReadSystemRegister

/-- R155, R156, R161: the scalar arithmetic, every form of it. -/
def Obligations.ScalarArithmetic : Prop := Claims.ScalarRegisterForms ∧ Claims.ScalarImmediateForms ∧ Claims.SelectRegister

/-- R148, R155, R157, R158: the divides, and the predicate instructions. -/
def Obligations.DividesAndPredicates : Prop := Claims.Divides ∧ Claims.PredicateInstructions

/-- R143, R145, R159, R160: the branches, and what the guard and the decode faults do. -/
def Obligations.BranchesGuardAndDecode : Prop := Claims.Branches ∧ Claims.GuardAndDecode

/-! ## Loads, stores and prefetch (03, 07, 12) -/

/-- R70, R74, R161: lld, lldu and lst. An aligned access inside the 640 KiB reads or writes the named bytes, little
endian, and no other byte of memory; a misaligned one faults with ALIGN and one past the end with BOUNDS. -/
def Claims.LocalStoreAccess : Prop := ∀ (x : Issue) (d a : Reg) (sz : BitVec 2) (imm : Word32) (s : State),
  Runs x [d.toNat, a.toNat] [] s →
  let c := stCtx s x.core x.ctx
  let off := readG c a.toNat + imm.signExtend 64
  let n := 2 ^ sz.toNat
  let pa := lsAddr x.core off.toNat
  let v := ofBytes (bytesAt s.mem pa n)
  (off.toNat % n = 0 → off.toNat + n ≤ 655360 →
    (∃ t, exec (.lst x d a sz imm) s = .next t ∧
      SetsReg x (c.pc + 8) 0 0 { s with mem := t.mem, badWords := t.badWords } t ∧
      (∀ i, i < n → byteAt t.mem (pa + i) = BitVec.ofNat 8 ((readG c d.toNat).toNat / 256 ^ i)) ∧
      (∀ j, j < pa ∨ pa + n ≤ j → byteAt t.mem j = byteAt s.mem j)) ∧
    (((wordsOf pa n).all fun w => (tabFind s.badWords w).isNone) →
      (∃ t, exec (.lld x d a sz imm .clean) s = .next t ∧
        SetsReg x (c.pc + 8) d.toNat (BitVec.ofInt 64 (if v < 2 ^ (8 * n - 1) then v else v - 2 ^ (8 * n))) s t) ∧
      (sz ≠ 3 → ∃ t, exec (.lldu x d a sz imm .clean) s = .next t ∧
        SetsReg x (c.pc + 8) d.toNat (BitVec.ofNat 64 v) s t))) ∧
  (off.toNat % n ≠ 0 →
    (∃ t, exec (.lst x d a sz imm) s = .next t ∧ FaultsAt x .align off s t) ∧
    (∃ t, exec (.lld x d a sz imm .clean) s = .next t ∧ FaultsAt x .align off s t) ∧
    (sz ≠ 3 → ∃ t, exec (.lldu x d a sz imm .clean) s = .next t ∧ FaultsAt x .align off s t)) ∧
  (off.toNat % n = 0 → 655360 < off.toNat + n →
    (∃ t, exec (.lst x d a sz imm) s = .next t ∧ FaultsAt x .bounds off s t) ∧
    (∃ t, exec (.lld x d a sz imm .clean) s = .next t ∧ FaultsAt x .bounds off s t) ∧
    (sz ≠ 3 → ∃ t, exec (.lldu x d a sz imm .clean) s = .next t ∧ FaultsAt x .bounds off s t))

/-- R70, R165: vld.l and vst.l, whose size is 256 bytes, check their offset in the same way. -/
def Claims.VectorLocalFaults : Prop := ∀ (x : Issue) (d a : Reg) (imm : Word32) (s : State),
  Runs x [a.toNat] [] s → ownsVreg (stCtx s x.core x.ctx) d.toNat = true →
  let off := readG (stCtx s x.core x.ctx) a.toNat + imm.signExtend 64
  let faults := fun (f : Cause) => (∃ t, exec (.vldL x d a imm) s = .next t ∧ FaultsAt x f off s t) ∧
    (∃ t, exec (.vstL x d a imm) s = .next t ∧ FaultsAt x f off s t)
  (off.toNat % 256 ≠ 0 → faults .align) ∧ (off.toNat % 256 = 0 → 655360 < off.toNat + 256 → faults .bounds)

/-- R72, R75, R161: a translated access that lands in the core's own window is performed at once; behind a vst of the context to
the same bytes that has not been performed, or for a store a vld, it holds the issue slot and changes nothing (log entry 150, the
model's inference). -/
def Claims.OwnWindowAccess : Prop := ∀ (x : Issue) (d a : Reg) (sz : BitVec 2) (imm : Word32) (s : State) (pa : Nat),
  Runs x [d.toNat, a.toNat] [] s →
  let c := stCtx s x.core x.ctx
  let addr := readG c a.toNat + imm.signExtend 64
  let n := 2 ^ sz.toNat
  let s1 := setCore s x.core (tlbTouch (coreOf s x.core) c.tenant.toNat addr.toNat)
  let v := ofBytes (bytesAt s.mem pa n)
  addr.toNat % n = 0 → addr.toNat < 2 ^ 48 → pastLs pa n = false → inOwnLs x.core pa = true →
  (xlate (coreOf s x.core) c.tenant.toNat addr.toNat 1 = .hit pa → ownAhead (coreOf s x.core) x.core x.ctx pa n true = true →
    exec (.st x d a sz imm) s = .next s) ∧
  (xlate (coreOf s x.core) c.tenant.toNat addr.toNat 0 = .hit pa → ownAhead (coreOf s x.core) x.core x.ctx pa n false = true →
    exec (.ld x d a sz imm .clean) s = .next s ∧ (sz ≠ 3 → exec (.ldu x d a sz imm .clean) s = .next s)) ∧
  (xlate (coreOf s x.core) c.tenant.toNat addr.toNat 1 = .hit pa → ownAhead (coreOf s x.core) x.core x.ctx pa n true = false →
    ∃ t, exec (.st x d a sz imm) s = .next t ∧
      SetsReg x (c.pc + 8) 0 0 { s1 with mem := t.mem, badWords := t.badWords } t ∧
      (∀ i, i < n → byteAt t.mem (pa + i) = BitVec.ofNat 8 ((readG c d.toNat).toNat / 256 ^ i)) ∧
      (∀ j, j < pa ∨ pa + n ≤ j → byteAt t.mem j = byteAt s.mem j)) ∧
  (xlate (coreOf s x.core) c.tenant.toNat addr.toNat 0 = .hit pa → ownAhead (coreOf s x.core) x.core x.ctx pa n false = false →
    (wordsOf pa n).all (fun w => (tabFind s.badWords w).isNone) →
    (∃ t, exec (.ld x d a sz imm .clean) s = .next t ∧
      SetsReg x (c.pc + 8) d.toNat (BitVec.ofInt 64 (if v < 2 ^ (8 * n - 1) then v else v - 2 ^ (8 * n))) s1 t) ∧
    (sz ≠ 3 → ∃ t, exec (.ldu x d a sz imm .clean) s = .next t ∧
      SetsReg x (c.pc + 8) d.toNat (BitVec.ofNat 64 v) s1 t))

/-- R67, R75, R161: a translated access that leaves the core takes a tag and becomes a request. A load waits in WAIT_MEM at
its PC; a store is posted and the context goes on. No byte of memory changes at issue. -/
def Claims.RemoteAccess : Prop := ∀ (x : Issue) (d a : Reg) (sz : BitVec 2) (imm : Word32) (s : State) (pa : Nat),
  Runs x [d.toNat, a.toNat] [] s →
  let k := coreOf s x.core
  let c := stCtx s x.core x.ctx
  let addr := readG c a.toNat + imm.signExtend 64
  let n := 2 ^ sz.toNat
  addr.toNat % n = 0 → addr.toNat < 2 ^ 48 → pastLs pa n = false → inOwnLs x.core pa = false → k.tagQueue = [] →
  (xlate k c.tenant.toNat addr.toNat 1 = .hit pa → k.writeTags < 64 →
    ∃ t r, exec (.st x d a sz imm) s = .next t ∧ t.reqs = s.reqs ++ [r] ∧ r.write = true ∧ r.segs = [(pa, n)] ∧
      r.wdata = toBytes n (readG c d.toNat).toNat ∧ r.st = .waiting ∧ r.core = x.core ∧ r.ctx = x.ctx ∧ t.mem = s.mem ∧
      (stCtx t x.core x.ctx).pc = c.pc + 8 ∧ (stCtx t x.core x.ctx).st = .running ∧
      ∀ r', readG (stCtx t x.core x.ctx) r' = readG c r') ∧
  (xlate k c.tenant.toNat addr.toNat 0 = .hit pa → k.readTags < 64 → k.pf = [] →
    let waits := fun (i : Instr) (sg : Bool) => ∃ t r, exec i s = .next t ∧ t.reqs = s.reqs ++ [r] ∧ r.write = false ∧
      r.segs = [(pa, n)] ∧ r.who = .scalarLoad d.toNat n sg ∧ r.st = .waiting ∧ r.core = x.core ∧ r.ctx = x.ctx ∧
      t.mem = s.mem ∧ (stCtx t x.core x.ctx).pc = c.pc ∧ (stCtx t x.core x.ctx).st = .waitMem ∧
      (stCtx t x.core x.ctx).wait = .requests ∧ ∀ r', readG (stCtx t x.core x.ctx) r' = readG c r'
    waits (.ld x d a sz imm .clean) true ∧ (sz ≠ 3 → waits (.ldu x d a sz imm .clean) false))

/-- R162, R273, R276: pf never faults and never deschedules, changes no register and no byte of memory, and counts one
issued or one dropped prefetch. -/
def Claims.PrefetchNeverStops : Prop := ∀ (x : Issue) (a : Reg) (sz : BitVec 2) (imm : Word32) (s : State),
  Runs x [a.toNat] [] s →
  ∃ t, exec (.pf x a sz imm) s = .next t ∧ t.mem = s.mem ∧
    (stCtx t x.core x.ctx).pc = (stCtx s x.core x.ctx).pc + 8 ∧ (stCtx t x.core x.ctx).st = .running ∧
    (∀ r, readG (stCtx t x.core x.ctx) r = readG (stCtx s x.core x.ctx) r) ∧
    ∃ sent : Bool, ∀ b : Bool, look 0 (coreOf t x.core).counters (if b then 0x158 else 0x159) =
      (let old := look 0 (coreOf s x.core).counters (if b then 0x158 else 0x159)
       if b = sent then min (old + 1) (2 ^ 64 - 1) else old)

/-- R67, R81, R519: the answer of a load writes the register, sign- or zero-extended, and the context becomes READY past the
load; an answer with an error faults the context at the load with the error's cause, on a core that is not fenced. A write
response frees its tag. Stated where the tile-move unit has nothing to send: it could take a freed tag at once. -/
def Claims.LoadAnswer : Prop :=
  (∀ (s : State) (r : MemReq) (d n : Nat) (sg : Bool) (bs : List Byte),
    s.reqs.find? (fun q => q.id == r.id && isCoreRead q && !delivered s q) = some r → r.who = .scalarLoad d n sg →
    r.tagged = true → r.dead = false → (coreOf s r.core).rsrq = [] → headMove (coreOf s r.core) = none →
    (r.st = .done bs →
      ∃ t, exec (.readResponseArrival r.id) s = .next t ∧ (∀ q ∈ t.reqs, q.id ≠ r.id) ∧
        (stCtx t r.core r.ctx).st = .ready ∧ (stCtx t r.core r.ctx).pc = (stCtx s r.core r.ctx).pc + 8 ∧
        readG (stCtx t r.core r.ctx) d = (if d = 0 then 0 else loadValue sg bs) ∧
        (∀ j, j ≠ d → readG (stCtx t r.core r.ctx) j = readG (stCtx s r.core r.ctx) j) ∧
        (coreOf t r.core).readTags = (coreOf s r.core).readTags - 1 ∧ t.mem = s.mem) ∧
    (∀ c, r.st = .failed c → (stCtx s r.core r.ctx).st = .waitMem → (coreOf s r.core).fenced = false →
      ∃ t, exec (.readResponseArrival r.id) s = .next t ∧ (stCtx t r.core r.ctx).st = .faulted ∧
        (stCtx t r.core r.ctx).cause = some c ∧ (stCtx t r.core r.ctx).imprecise = false ∧
        (stCtx t r.core r.ctx).faultPc = (stCtx s r.core r.ctx).pc ∧ (stCtx t r.core r.ctx).faultAddr = r.va ∧
        t.mem = s.mem)) ∧
  (∀ (s : State) (r : MemReq) (bs : List Byte),
    s.reqs.find? (fun q => q.id == r.id && q.write && (match q.who with | .host => false | _ => true)) = some r →
    r.tagged = true → r.st = .done bs → headMove (coreOf s r.core) = none →
    ∃ t, exec (.writeResponseArrival r.id) s = .next t ∧ t.reqs = s.reqs.filter (fun q => q.id != r.id) ∧
      (coreOf t r.core).writeTags = (coreOf s r.core).writeTags - 1 ∧ t.mem = s.mem)

/-- R72, R256, R270, R272, R277, R310: a port serves a request that it has accepted and that follows no store. A read of bytes in no error answers them and changes
nothing else; a write of a local-store window performs its bytes and no other byte of memory changes; one past the 640 KiB answers BOUNDS and
changes nothing (R72). -/
def Claims.PortServes : Prop :=
  (∀ (s : State) (r : MemReq) (pa n : Nat),
    s.reqs.find? (fun q => q.id == r.id && !q.write && q.st == .waiting) = some r → r.segs = [(pa, n)] →
    storeAhead s r = false → portTakes s r = true → inLs pa = false → (tierOf pa).isSome → stateError s pa n = none →
    (frameOf s pa).keyTag ≠ 0xFF →
    exec (.memoryReadRequest r.id .clean) s = .next (setReq s r.id (.done (bytesAt s.mem pa n)))) ∧
  (∀ (s : State) (r : MemReq) (pa : Nat),
    s.reqs.find? (fun q => q.id == r.id && q.write && q.st == .waiting && !isFar q) = some r →
    r.segs = [(pa, r.wdata.length)] → storeAhead s r = false → inLs pa = true →
    (coreOf s ((pa - Config.lsBase) / 0x100000)).fenced = false →
    (pastLs pa r.wdata.length = true → exec (.memoryWriteRequest r.id .clean) s = .next (setReq s r.id (.failed .bounds))) ∧
    (pastLs pa r.wdata.length = false → ∃ t, exec (.memoryWriteRequest r.id .clean) s = .next t ∧
      (∀ i (h : i < r.wdata.length), byteAt t.mem (pa + i) = r.wdata[i]) ∧
      (∀ j, j < pa ∨ pa + r.wdata.length ≤ j → byteAt t.mem j = byteAt s.mem j) ∧
      t = { s with mem := t.mem, badWords := t.badWords, reqs := t.reqs } ∧
      t.reqs = (setReq s r.id (.done [])).reqs))

/-- R279, R458: the Far controller programs the unit of a write that covers it whole; a frame with no key answers
INTEGRITY and changes no byte. -/
def Claims.FarWrites : Prop := ∀ (s : State) (r : MemReq),
  s.reqs.find? (fun q => q.id == r.id && q.write && q.st == .waiting && isFar q) = some r →
  storeAhead s r = false → portTakes s r = true → s.power.farWait = false →
  ((∃ u ∈ unitsOf r.segs, (frameOf s (Config.farBase + u * 16384)).keyTag = 0xFF) →
    ∃ t, exec (.farWrite r.id .clean) s = .next t ∧ t.mem = s.mem ∧
      ∀ q ∈ t.reqs, q.id = r.id → q.st = .failed .integrity) ∧
  (∀ u, unitsOf r.segs = [u] → (frameOf s (Config.farBase + u * 16384)).keyTag ≠ 0xFF → s.far.readOnly = false →
    r.segs = [(Config.farBase + u * 16384, 16384)] → r.wdata.length = 16384 → farGroup s [u] = [r] →
    ∃ t, exec (.farWrite r.id .clean) s = .next t ∧
      t.mem = setBytes s.mem (Config.farBase + u * 16384) r.wdata ∧
      t.far.media = satAdd s.far.media 16384 ∧ t.far.host = satAdd s.far.host 16384 ∧
      ∀ q ∈ t.reqs, q.id = r.id → q.st = .done [])

/-- The own local store, by its addresses and through the own window. -/
def Obligations.LocalAndOwnAccess : Prop := Claims.LocalStoreAccess ∧ Claims.VectorLocalFaults ∧ Claims.OwnWindowAccess

/-- Accesses that leave the core, the answer to a load, and the prefetch. -/
def Obligations.RemoteAccessAndPrefetch : Prop := Claims.RemoteAccess ∧ Claims.LoadAnswer ∧ Claims.PrefetchNeverStops

/-- What a memory port does with a request, and a Far write. -/
def Obligations.PortAndFarWrites : Prop := Claims.PortServes ∧ Claims.FarWrites

/-! ## Tiles and the matrix array (04, 05) -/

/-- R89, R90, R106: tcfg writes a valid configuration of an owned tile that no instruction in flight names, and clears its row
validity; trel clears the row validity and keeps the configuration. Every other tile, every bank and every register is
unchanged. An invalid value and an unconfigured tile fault with TILE_CONFIG, a tile outside the mask with PERMISSION. -/
def Claims.TileConfiguration : Prop := ∀ (x : Issue) (td : TileNo) (gs : Reg) (s : State),
  Runs x [gs.toNat] [] s →
  let k := coreOf s x.core
  let c := stCtx s x.core x.ctx
  let v := readG c gs.toNat
  let sets := fun (i : Instr) (cfg : BitVec 32) => ∃ t, exec i s = .next t ∧
    (tileOf (coreOf t x.core) td.toNat).cfg = cfg ∧ (tileOf (coreOf t x.core) td.toNat).rowv = 0 ∧
    (∀ j, j < 16 → j ≠ td.toNat → tileOf (coreOf t x.core) j = tileOf k j) ∧
    (coreOf t x.core).banks = k.banks ∧ (coreOf t x.core).vregs = k.vregs ∧
    (stCtx t x.core x.ctx).pc = c.pc + 8 ∧ (∀ r, readG (stCtx t x.core x.ctx) r = readG c r) ∧
    t = { s with cores := t.cores }
  (ownsTile c td.toNat = true → tileNamed k x.ctx td.toNat = false →
    (cfgValid v = true → sets (.tcfg x td gs) (v.setWidth 32)) ∧
    (cfgRows (tileOf k td.toNat).cfg ≠ 0 → sets (.trel x td) (tileOf k td.toNat).cfg)) ∧
  (ownsTile c td.toNat = true → cfgValid v = false →
    ∃ t, exec (.tcfg x td gs) s = .next t ∧ FaultsAt x .tileConfig 0 s t) ∧
  (ownsTile c td.toNat = true → cfgRows (tileOf k td.toNat).cfg = 0 →
    ∃ t, exec (.trel x td) s = .next t ∧ FaultsAt x .tileConfig 0 s t) ∧
  (ownsTile c td.toNat = false →
    (∃ t, exec (.tcfg x td gs) s = .next t ∧ FaultsAt x .permission 0 s t) ∧
    (∃ t, exec (.trel x td) s = .next t ∧ FaultsAt x .permission 0 s t))

/-- R99, R100, R102: a tload or tstore whose pages are resident enters the tile-move unit and the context goes on; no byte of
memory and no tile changes at issue. Where a page is not resident the context waits for it at the instruction, and will go on
from the first row not yet moved. A misaligned base faults with ALIGN. A tload is stated where the unit has nothing older to send,
whose moves could end in the same step. -/
def Claims.TileMovesIssue : Prop := ∀ (x : Issue) (tn : TileNo) (ga : Reg) (r0 : BitVec 6) (c0 : BitVec 4) (s : State),
  Runs x [ga.toNat] [] s →
  let k := coreOf s x.core
  let c := stCtx s x.core x.ctx
  let cfg := (tileOf k tn.toNat).cfg
  let base := readG c ga.toNat
  let lo := if c.resume then c.srow.toNat else 0
  let enters := fun (i : Instr) (load : Bool) => ∃ t, exec i s = .next t ∧
    (∃ m ∈ (coreOf t x.core).moves, m.id = s.nextId ∧ m.ctx = x.ctx ∧ m.tile = tn.toNat ∧ m.load = load ∧
      m.upto = cfgRows cfg ∧ m.order = c.order) ∧
    (coreOf t x.core).moves.length = k.moves.length + 1 ∧ (coreOf t x.core).tiles = k.tiles ∧ t.mem = s.mem ∧
    (stCtx t x.core x.ctx).pc = c.pc + 8 ∧ (∀ r, readG (stCtx t x.core x.ctx) r = readG c r)
  let pageWait := fun (i : Instr) (va : Nat) => ∃ t, exec i s = .next t ∧ (stCtx t x.core x.ctx).st = .waitPage ∧
    (stCtx t x.core x.ctx).wait = .page va ∧ (stCtx t x.core x.ctx).pc = c.pc ∧ (stCtx t x.core x.ctx).resume = true ∧
    t.mem = s.mem ∧ (coreOf t x.core).tiles = k.tiles ∧ ∀ r, readG (stCtx t x.core x.ctx) r = readG c r
  (ownsTile c tn.toNat = true → cfgRows cfg ≠ 0 → moveCheck cfg base r0.toNat c0.toNat = none → k.moves.length < 12 →
    (∀ s0, pagesAns x c.tenant.toNat 0 (touched cfg base.toNat r0.toNat c0.toNat lo) s = .ok s0 → headMove k = none →
      enters (.tload x tn ga r0 c0) true) ∧
    (∀ s0, pagesAns x c.tenant.toNat 1 (touched cfg base.toNat r0.toNat c0.toNat lo) s = .ok s0 →
      tileLoadBefore k x.ctx tn.toNat c.order = false → enters (.tstore x tn ga r0 c0) false) ∧
    (∀ va s0, pagesAns x c.tenant.toNat 0 (touched cfg base.toNat r0.toNat c0.toNat lo) s = .absent va s0 →
      pageWait (.tload x tn ga r0 c0) va) ∧
    (∀ va s0, pagesAns x c.tenant.toNat 1 (touched cfg base.toNat r0.toNat c0.toNat lo) s = .absent va s0 →
      tileLoadBefore k x.ctx tn.toNat c.order = false → pageWait (.tstore x tn ga r0 c0) va)) ∧
  (ownsTile c tn.toNat = true → cfgRows cfg ≠ 0 → base.toNat % 128 ≠ 0 →
    (∃ t, exec (.tload x tn ga r0 c0) s = .next t ∧ FaultsAt x .align base s t) ∧
    (∃ t, exec (.tstore x tn ga r0 c0) s = .next t ∧ FaultsAt x .align base s t))

/-- R93, R101, R105: an arriving response of a tload writes the data bytes of its rows into the tile and marks those rows
written, and no other tile changes; a tstore reads its rows, rows never written as zero, and, alone in the unit with free tags,
posts one write per part in order and leaves the unit. -/
def Obligations.TileMovesWork : Prop :=
  (∀ (s : State) (r : MemReq) (m : Move) (first count : Nat) (bs : List Byte),
    s.reqs.find? (fun q => q.id == r.id) = some r → r.st = .done bs → r.who = .tileRows m.id first count →
    r.tagged = false → (coreOf s r.core).moves.find? (fun o => o.id == m.id) = some m → m.tile < 16 →
    tileReadBefore (coreOf s r.core) r.ctx m.tile m.order = false →
    tileLoadBefore (coreOf s r.core) r.ctx m.tile m.order = false →
    tileVecWriteBefore (coreOf s r.core) r.ctx m.tile m.order = false →
    first + count ≤ 64 → cfgWords (tileOf (coreOf s r.core) m.tile).cfg ≤ 16 →
    bs.length = 4 * cfgWords (tileOf (coreOf s r.core) m.tile).cfg * count →
    ∃ t, exec (.tloadRowArrival r.id) s = .next t ∧ t.mem = s.mem ∧
      (let w := 4 * cfgWords (tileOf (coreOf s r.core) m.tile).cfg
       ∀ i, i < count → (tileRow (tileOf (coreOf t r.core) m.tile) (first + i)).take w = (bs.drop (w * i)).take w) ∧
      (∀ i, i < 64 → (tileOf (coreOf t r.core) m.tile).rowv.getLsbD i =
        ((tileOf (coreOf s r.core) m.tile).rowv.getLsbD i || decide (first ≤ i ∧ i < first + count))) ∧
      ∀ j, j < 16 → j ≠ m.tile → tileOf (coreOf t r.core) j = tileOf (coreOf s r.core) j) ∧
  (∀ (s : State) (c : Nat) (m : Move),
    (coreOf s c).moves = [m] → m.load = false → m.read = false → m.plan ≠ [] →
    (coreOf s c).tagQueue = [] → (coreOf s c).writeTags + m.plan.length ≤ 64 →
    tileLoadBefore (coreOf s c) m.ctx m.tile m.order = false → tileVecWriteBefore (coreOf s c) m.ctx m.tile m.order = false →
    ∃ t new, exec (.tstoreStart c m.id .clean) s = .next t ∧ t.reqs = s.reqs ++ new ∧ t.mem = s.mem ∧
      (coreOf t c).tiles = (coreOf s c).tiles ∧ (coreOf t c).moves = [] ∧
      (coreOf t c).writeTags = (coreOf s c).writeTags + m.plan.length ∧
      new.map (fun r => (r.write, r.ctx, r.segs)) = m.plan.map (fun p => (true, m.ctx, p.segs)) ∧
      new.map (·.wdata) = m.plan.map fun p =>
        (List.range p.count).flatMap fun j =>
          if p.scale then tileScales (tileOf (coreOf s c) m.tile) (p.first + j)
          else (tileRow (tileOf (coreOf s c) m.tile) (p.first + j)).take (4 * cfgWords (tileOf (coreOf s c) m.tile).cfg))

/-- R111, R112: a tmma that passes the checks of R111 enters the array queue and the context goes on; no tile, no bank and no
byte of memory changes at issue. A reserved shape faults with ILLEGAL_INSTR, and one whose rows would pass row 63 of the
bank with BOUNDS. -/
def Claims.TmmaIssue : Prop :=
  ∀ (x : Issue) (ts tw : TileNo) (ad : BankNo) (d0 : BitVec 6) (shape : BitVec 3) (t c ax : Bool) (gx : Reg) (s : State),
  Runs x (if c && !ax then [gx.toNat] else []) [] s →
  let k := coreOf s x.core
  let cx := stCtx s x.core x.ctx
  let sh := shape.toNat
  let tiles := tw.toNat :: streamTiles sh ts.toNat
  let rows := cfgRows (tileOf k ts.toNat).cfg
  (sh ≤ 5 → (t = true → sh = 0 ∨ sh = 5) → (ax = true → c = true) →
    (∀ i ∈ tiles, ownsTile cx i = true) → (∀ b ∈ destBanks sh ad.toNat, ownsBank cx b = true) →
    (∀ i ∈ streamTiles sh ts.toNat, streamMatches k sh rows i = true) → stationaryMatches k sh tw.toNat = true →
    (∀ i ∈ tiles, tileLoadBefore k x.ctx i cx.order = false) → (t = true → squareScaled (tileOf k tw.toNat) = true) →
    (d0.toNat + rows ≤ 64 → k.aq.length < 8 →
      ∃ u p, exec (.tmma x ts tw ad d0 shape t c ax gx) s = .next u ∧ (coreOf u x.core).aq = k.aq ++ [p] ∧
        p.ctx = x.ctx ∧ p.order = cx.order ∧ p.ts = ts.toNat ∧ p.tw = tw.toNat ∧ p.ad = ad.toNat ∧ p.d0 = d0.toNat ∧
        p.shape = sh ∧ p.t = t ∧ p.c = c ∧ p.ax = ax ∧ p.rows = rows ∧ p.stage = .queued ∧
        (c = true → ax = false → p.q = (readG cx gx.toNat).setWidth 10) ∧
        (coreOf u x.core).tiles = k.tiles ∧ (coreOf u x.core).banks = k.banks ∧ u.mem = s.mem ∧
        (stCtx u x.core x.ctx).pc = cx.pc + 8 ∧ ∀ r, readG (stCtx u x.core x.ctx) r = readG cx r) ∧
    (64 < d0.toNat + rows → ∃ u, exec (.tmma x ts tw ad d0 shape t c ax gx) s = .next u ∧ FaultsAt x .bounds 0 s u)) ∧
  (6 ≤ sh → ∃ u, exec (.tmma x ts tw ad d0 shape t c ax gx) s = .next u ∧ FaultsAt x .illegalInstr 0 s u)

/-- R113 to R116, R121: the life of a pass. A load fills the set the preceding pass does not use and gives it the pass's tag;
the pass starts on the set that holds its tag, with its sums computed; its commit changes no other bank; its retirement writes the
status words and removes it from the queue. R117: no load starts while a shape-3 pass reads its rows, and no shape-3 pass while a
load runs. R124: with no operand in a cell and the idle count reached, two more columns go off. -/
def Claims.PassLife : Prop :=
  (∀ (s : State) (c : Nat) (p : Pass), nextPass (coreOf s c) = some p → hitSet (coreOf s c) p = none →
    (setOf (coreOf s c) false).loading = false → (setOf (coreOf s c) true).loading = false →
    passOrdered (coreOf s c) p = true → readsShape3 (coreOf s c) = false →
    ∃ t b, exec (.stationaryLoadStart c .clean) s = .next t ∧ (setOf (coreOf t c) b).tag = some (passTag p) ∧
      (setOf (coreOf t c) b).loading = true ∧ setOf (coreOf t c) (!b) = setOf (coreOf s c) (!b) ∧
      (∀ used sh, (coreOf s c).lastMap = some (used, sh) → b = !used) ∧
      t = { s with cores := t.cores }) ∧
  (∀ (s : State) (c : Nat), ∃ t, exec (.stationaryLoadEnd c) s = .next t ∧
    (∀ b, (setOf (coreOf t c) b).loading = false ∧ (setOf (coreOf t c) b).tag = (setOf (coreOf s c) b).tag)) ∧
  (∀ (s : State) (c : Nat) (p : Pass) (b : Bool), nextPass (coreOf s c) = some p → hitSet (coreOf s c) p = some b →
    passOrdered (coreOf s c) p = true → shape3Held (coreOf s c) = false →
    ∃ t q, exec (.arrayPassStart c .clean) s = .next t ∧ q ∈ (coreOf t c).aq ∧ q.id = p.id ∧ q.stage = .started ∧
      q.sums = (computePass (coreOf s c) (setOf (coreOf s c) b) p).sums ∧ (coreOf t c).lastMap = some (b, p.shape) ∧
      (coreOf t c).banks = (coreOf s c).banks ∧ (coreOf t c).tiles = (coreOf s c).tiles) ∧
  (∀ (s : State) (c : Nat) (p : Pass),
    (coreOf s c).aq.find? (fun o => o.id == p.id && o.stage == .started) = some p →
    ((coreOf s c).aq.takeWhile fun o => o.id != p.id).all (fun o => (passBanks o).all fun b => !(passBanks p).contains b) →
    ∃ t, exec (.passCommitStart c p.id .clean) s = .next t ∧ (coreOf t c).tiles = (coreOf s c).tiles ∧ t.mem = s.mem ∧
      ∀ b, b < 4 → b ∉ passBanks p → (∀ e ∈ p.sums, e.1 / 4096 % 4 ≠ b) → bankOf (coreOf t c) b = bankOf (coreOf s c) b) ∧
  (∀ (s : State) (c : Nat) (p : Pass),
    (coreOf s c).aq.find? (fun o => o.id == p.id && o.stage == .committing) = some p →
    (∀ n, n < 8 → comingBack (stCtx s c n) = false) →
    ∃ t, exec (.passRetire c p.id) s = .next t ∧ (coreOf t c).aq = (coreOf s c).aq.filter (fun o => o.id != p.id) ∧
      t.mem = s.mem ∧ ∀ b ∈ passBanks p, (bankOf (coreOf t c) b).status = passStatus p b (bankOf (coreOf s c) b).status) ∧
  (∀ (s : State) (c : Nat), readsShape3 (coreOf s c) = true → exec (.stationaryLoadStart c .clean) s = .next s) ∧
  (∀ (s : State) (c : Nat), shape3Held (coreOf s c) = true → exec (.arrayPassStart c .clean) s = .next s) ∧
  (∀ (s : State) (c : Nat), (coreOf s c).colsOff < 64 → 225 + (coreOf s c).colsOff / 2 ≤ (coreOf s c).arrIdle →
    (coreOf s c).arrLeft = 0 →
    ∃ t, exec (.arrayRampDown c) s = .next t ∧ (coreOf t c).colsOff = (coreOf s c).colsOff + 2)

/-- R46, R47, R116: one pass with one sum commits that sum onto its element: the previous value, or 0 where the pass clears the
bank, plus the sum, clamped to ±2,147,483,647, and the pass remembers an overflow for the status word. -/
def Claims.CommitElement : Prop := ∀ (s : State) (c : Nat) (p : Pass) (b m n : Nat) (v : Int),
  (coreOf s c).aq = [p] → p.stage = .started → b < 4 → m < 64 → n < 64 → p.d0 + m < 64 → b ∈ passBanks p →
  p.sums = [(b * 4096 + m * 64 + n, v)] →
  let prev := if p.clears.contains b then 0 else bankElem (bankOf (coreOf s c) b) (p.d0 + m) n
  ∃ t, exec (.passCommitStart c p.id .clean) s = .next t ∧
    bankElem (bankOf (coreOf t c) b) (p.d0 + m) n = max (-2147483647) (min 2147483647 (prev + v)) ∧
    (∀ i j, i < 64 → j < 64 → (i, j) ≠ (p.d0 + m, n) → bankElem (bankOf (coreOf t c) b) i j =
      if p.clears.contains b then 0 else bankElem (bankOf (coreOf s c) b) i j) ∧
    ∃ q ∈ (coreOf t c).aq, q.id = p.id ∧ q.stage = .committing ∧
      (b ∈ q.ovfls ↔ (prev + v < -2147483647 ∨ 2147483647 < prev + v))

/-- R42 to R44: the contribution of one block pair to an element is the exact dot product of the elements, shifted by the
difference of the product exponent and Q, rounded once; an OVF block contributes nothing. -/
def Claims.BlockContribution : Prop := ∀ (fmt : Nat) (q : Int) (ea eb : Nat) (xs ys : List Int),
  xs.length = ys.length →
  (ea = 255 ∨ eb = 255 → contribution fmt q ea eb (dot xs ys) = 0) ∧
  (ea ≠ 255 → eb ≠ 255 →
    let n := ((ea : Int) - 127) + ((eb : Int) - 127) - 2 * fracBits fmt - q
    let d := ((xs.zip ys).map fun p => p.1 * p.2).sum
    (0 ≤ n → contribution fmt q ea eb (dot xs ys) = d * 2 ^ n.toNat) ∧
    (n < 0 →
      let c := contribution fmt q ea eb (dot xs ys)
      2 * (c * 2 ^ (-n).toNat - d).natAbs ≤ 2 ^ (-n).toNat ∧
      (2 * (c * 2 ^ (-n).toNat - d).natAbs = 2 ^ (-n).toNat → c % 2 = 0)))

/-- tcfg and trel, and the issue of tload and tstore. -/
def Obligations.TileSetupAndMoves : Prop := Claims.TileConfiguration ∧ Claims.TileMovesIssue

/-- The issue of tmma, and the life of its pass. -/
def Obligations.MatrixPasses : Prop := Claims.TmmaIssue ∧ Claims.PassLife

/-- R44: the aligned contribution of a block pair, and what a pass commits to an accumulator element. -/
def Obligations.ArrayArithmetic : Prop := Claims.CommitElement ∧ Claims.BlockContribution

/-! ## The vector unit (06) -/

/-- R127, R130, R164: a lane instruction whose registers lie in the mask enters the vector queue with its operands, and the
context goes on; no register, tile, bank or byte of memory changes at issue. -/
def Claims.LaneInstructionsIssue : Prop :=
  ∀ (x : Issue) (d a b m : Reg) (w : Bool) (k : BitVec 6) (s : State),
  Runs x [] [] s → (coreOf s x.core).vq.length < 16 →
  (∀ v ∈ [d.toNat, a.toNat, b.toNat, m.toNat], ownsVreg (stCtx s x.core x.ctx) v = true) →
  let c := stCtx s x.core x.ctx
  let pushes := fun (i : Instr) (e : VEntry) => ∃ t, exec i s = .next t ∧
    (coreOf t x.core).vq = (coreOf s x.core).vq ++ [{ e with id := s.nextId, ctx := x.ctx, order := c.order, pc := c.pc }] ∧
    (stCtx t x.core x.ctx).pc = c.pc + 8 ∧ (∀ r, readG (stCtx t x.core x.ctx) r = readG c r) ∧
    (coreOf t x.core).vregs = (coreOf s x.core).vregs ∧ t = { s with cores := t.cores, nextId := s.nextId + 1 }
  let two := fun (op : VOp) => { entry op with d := d.toNat, a := a.toNat, b := b.toNat }
  let one := fun (op : VOp) => { entry op with d := d.toNat, a := a.toNat }
  pushes (.vadd x d a b w) { two .add with w := w } ∧ pushes (.vsub x d a b w) { two .sub with w := w } ∧
  pushes (.vmul x d a b w) { two .mul with w := w } ∧ pushes (.vmulh x d a b) (two .mulh) ∧
  pushes (.vmulsh x d a b k) { two .mulsh with imm := k.toNat } ∧ pushes (.vmin x d a b) (two .min) ∧
  pushes (.vmax x d a b) (two .max) ∧ pushes (.vand x d a b) (two .and) ∧ pushes (.vor x d a b) (two .or) ∧
  pushes (.vxor x d a b) (two .xor) ∧ pushes (.vperm x d a b) (two .perm) ∧ pushes (.vabs x d a) (one .abs) ∧
  pushes (.vneg x d a) (one .neg) ∧ pushes (.vclz x d a) (one .clz) ∧ pushes (.vredsum x d a) (one .redsum) ∧
  pushes (.vredmax x d a) (one .redmax) ∧ pushes (.vredmin x d a) (one .redmin) ∧
  pushes (.vbcast x d a k) { one .bcast with imm := k.toNat } ∧
  pushes (.vsel x d m a b) { two .sel with c := m.toNat } ∧
  (∀ cond : BitVec 4, cond.toNat ∈ [0, 1, 2, 3, 6] → pushes (.vcmp x d a b cond) { two .cmp with imm := cond.toNat }) ∧
  (k.toNat < 32 → pushes (.vshl x d a (.imm k) w) { one .shl with imm := k.toNat, w := w }) ∧
  pushes (.vshl x d a (.lanes b) w) { two .shl with useLanes := true, w := w } ∧
  (∀ rnd : BitVec 2, rnd.toNat ≤ 1 →
    pushes (.vshr x d a (.imm k) rnd) { one .shr with imm := k.toNat, imm2 := rnd.toNat } ∧
    pushes (.vshr x d a (.lanes b) rnd) { two .shr with useLanes := true, imm2 := rnd.toNat }) ∧
  pushes (.vshrl x d a (.imm k)) { one .shrl with imm := k.toNat } ∧
  pushes (.vshrl x d a (.lanes b)) { two .shrl with useLanes := true } ∧
  (∀ (fn : BitVec 4) (fi : BitVec 6) (fo : BitVec 5), fn.toNat ≤ 5 → fi.toNat < 32 →
    pushes (.vfn x d a fn fi fo) { one .fn with imm := fn.toNat, imm2 := fi.toNat, imm3 := fo.toNat })

/-- R127, R130, R131, R149: the vector instructions with a general register, a predicate, a tile row or a bank row enter the
vector queue with the values of their general registers at issue (log entry 8: the model's choice), the row from ROW or from a
general register; vmovg and vtstp mark their destination pending. -/
def Claims.MixedVectorIssue : Prop :=
  ∀ (x : Issue) (d g g2 g3 : Reg) (p : PredNo) (td : TileNo) (ad : BankNo) (row : BitVec 6) (sel : RowSel) (h : Bool) (s : State),
  Runs x [g.toNat, g2.toNat, g3.toNat] [p.toNat] s → (coreOf s x.core).vq.length < 16 →
  let k := coreOf s x.core
  let c := stCtx s x.core x.ctx
  let cfg := (tileOf k td.toNat).cfg
  sel = .imm row ∨ sel = .reg g ∧ (readG c g.toNat).toNat = row.toNat →
  ownsVreg c d.toNat = true → ownsTile c td.toNat = true → ownsBank c ad.toNat = true →
  tileLoadBefore k x.ctx td.toNat c.order = false → cfgRows cfg ≠ 0 → row.toNat < cfgRows cfg → cfgFmt cfg ≤ 4 →
  let pushes := fun (i : Instr) (e : VEntry) => ∃ t, exec i s = .next t ∧
    (coreOf t x.core).vq = k.vq ++ [{ e with id := s.nextId, ctx := x.ctx, order := c.order, pc := c.pc }] ∧
    (stCtx t x.core x.ctx).pc = c.pc + 8 ∧ (∀ r, readG (stCtx t x.core x.ctx) r = readG c r) ∧
    (coreOf t x.core).vregs = k.vregs ∧ (coreOf t x.core).tiles = k.tiles ∧ (coreOf t x.core).banks = k.banks ∧
    t.mem = s.mem ∧
    (e.op = .movg → regPending (coreOf t x.core) x.ctx e.d = decide (e.d ≠ 0)) ∧
    (e.op = .tstp → predPending (coreOf t x.core) x.ctx e.d = decide (e.d ≠ 0))
  pushes (.vmovv x d g) { entry .movv with d := d.toNat, s0 := readG c g.toNat } ∧
  (∀ k6 : BitVec 6, pushes (.vmovg x g d k6) { entry .movg with d := g.toNat, a := d.toNat, imm := k6.toNat }) ∧
  pushes (.vtstp x p d) { entry .tstp with d := p.toNat, a := d.toNat } ∧
  (∀ h6 : BitVec 6, h6.toNat ≤ 1 → pushes (.vrng x d g g2 g3 h6)
    { entry .rng with d := d.toNat, imm := h6.toNat, s1 := readG c g.toNat, s2 := readG c g2.toNat, s3 := readG c g3.toNat }) ∧
  pushes (.vtrd x d td sel h) { entry .trd with d := d.toNat, c := td.toNat, row := row.toNat, imm := b2n h } ∧
  pushes (.vtsc x d td sel) { entry .tsc with d := d.toNat, c := td.toNat, row := row.toNat } ∧
  pushes (.vard x d ad sel) { entry .ard with d := d.toNat, c := ad.toNat, row := row.toNat } ∧
  pushes (.vawr x ad sel d) { entry .awr with a := d.toNat, c := ad.toNat, row := row.toNat } ∧
  (cfgFmt cfg = 0 ∨ cfgFmt cfg = 4 →
    pushes (.vtwr x td sel d) { entry .twr with a := d.toNat, c := td.toNat, row := row.toNat }) ∧
  (cfgFmt cfg = 1 ∨ cfgFmt cfg = 3 → ∀ mode : BitVec 2, mode ≠ 3 →
    pushes (.vreq x td sel d g mode g g2 g3)
      { entry .req with a := d.toNat, c := td.toNat, row := row.toNat, imm := mode.toNat, s0 := readG c g.toNat,
                        s1 := readG c g.toNat, s2 := readG c g2.toNat, s3 := readG c g3.toNat }) ∧
  (cfgFmt cfg = 2 → ownsVreg c ((d.toNat + 1) % 32) = true → ∀ mode : BitVec 2, mode ≠ 3 →
    pushes (.vreq x td sel d g mode g g2 g3)
      { entry .req with a := d.toNat, c := td.toNat, row := row.toNat, imm := mode.toNat, useLanes := true,
                        s0 := readG c g.toNat, s1 := readG c g.toNat, s2 := readG c g2.toNat, s3 := readG c g3.toNat })

/-- R133, R134, R150: areq and vwid that pass their checks at issue enter the vector queue; a count of 0 or above 64 faults with
ILLEGAL_INSTR, an unconfigured or RAW destination of areq with TILE_CONFIG. -/
def Claims.RequantizeAndWidenIssue : Prop :=
  ∀ (x : Issue) (td ts : TileNo) (r0t r0a : BitVec 6) (ad : BankNo) (n : BitVec 7) (sq : Bool) (mode : BitVec 2)
    (gk gc gs : Reg) (s : State),
  Runs x [gk.toNat, gc.toNat, gs.toNat] [] s → (coreOf s x.core).vq.length < 16 →
  let k := coreOf s x.core
  let c := stCtx s x.core x.ctx
  let cfg := (tileOf k td.toNat).cfg
  let src := (tileOf k ts.toNat).cfg
  let pushed := fun (i : Instr) (op : VOp) => ∃ t e, exec i s = .next t ∧ (coreOf t x.core).vq = k.vq ++ [e] ∧ e.op = op ∧
    e.ctx = x.ctx ∧ e.order = c.order ∧ e.c = td.toNat ∧ e.row = r0t.toNat ∧ e.n = n.toNat ∧ t.mem = s.mem ∧
    (coreOf t x.core).tiles = k.tiles ∧ (coreOf t x.core).banks = k.banks ∧ (stCtx t x.core x.ctx).pc = c.pc + 8
  ownsTile c td.toNat = true → ownsTile c ts.toNat = true → ownsBank c ad.toNat = true → ownsBank c (ad.toNat + 1) = true →
  (1 ≤ n.toNat → n.toNat ≤ 64 →
    (mode ≠ 3 → cfgRows cfg ≠ 0 → cfgFmt cfg ≠ 0 → pushed (.areq x td r0t ad r0a n sq mode gk gc gs) .areq) ∧
    (∀ r, widenRatio (cfgFmt src) (cfgFmt cfg) = some r → cfgRows cfg ≠ 0 → cfgRows src ≠ 0 → cfgWords cfg = 16 →
      cfgWords src = 16 → r0t.toNat + r * n.toNat ≤ cfgRows cfg → r0a.toNat + n.toNat ≤ cfgRows src →
      tileLoadBefore k x.ctx ts.toNat c.order = false → pushed (.vwid x td r0t ts r0a n gk) .wid) ∧
    (mode ≠ 3 → cfgRows cfg = 0 ∨ cfgFmt cfg = 0 →
      ∃ t, exec (.areq x td r0t ad r0a n sq mode gk gc gs) s = .next t ∧ FaultsAt x .tileConfig 0 s t)) ∧
  (n.toNat = 0 ∨ 64 < n.toNat →
    (∃ t, exec (.areq x td r0t ad r0a n sq mode gk gc gs) s = .next t ∧ FaultsAt x .illegalInstr 0 s t) ∧
    (∃ t, exec (.vwid x td r0t ts r0a n gk) s = .next t ∧ FaultsAt x .illegalInstr 0 s t))

/-- R70, R130, R165: the vector loads and stores. vld.l and vst.l enter the queue with their offset; vld and vst that reach
another unit take a tag and a request; vld waits in WAIT_MEM for its data. -/
def Claims.VectorMemoryIssue : Prop := ∀ (x : Issue) (d a : Reg) (imm : Word32) (s : State),
  Runs x [a.toNat] [] s → (coreOf s x.core).vq.length < 16 →
  let k := coreOf s x.core
  let c := stCtx s x.core x.ctx
  let off := readG c a.toNat + imm.signExtend 64
  ownsVreg c d.toNat = true → off.toNat % 256 = 0 →
  (off.toNat + 256 ≤ 655360 →
    (∃ t e, exec (.vldL x d a imm) s = .next t ∧ (coreOf t x.core).vq = k.vq ++ [e] ∧ e.op = .ldl ∧ e.d = d.toNat ∧
      e.s0 = off ∧ t.mem = s.mem ∧ (stCtx t x.core x.ctx).pc = c.pc + 8) ∧
    (∃ t e, exec (.vstL x d a imm) s = .next t ∧ (coreOf t x.core).vq = k.vq ++ [e] ∧ e.op = .stl ∧ e.a = d.toNat ∧
      e.s0 = off ∧ t.mem = s.mem ∧ (stCtx t x.core x.ctx).pc = c.pc + 8)) ∧
  (655360 < off.toNat + 256 →
    (∃ t, exec (.vldL x d a imm) s = .next t ∧ FaultsAt x .bounds off s t) ∧
    (∃ t, exec (.vstL x d a imm) s = .next t ∧ FaultsAt x .bounds off s t)) ∧
  (∀ pa, off.toNat < 2 ^ 48 → pastLs pa 256 = false → inOwnLs x.core pa = false → k.tagQueue = [] → k.pf = [] →
    (xlate k c.tenant.toNat off.toNat 0 = .hit pa → k.readTags < 64 →
      ∃ t e r, exec (.vld x d a imm) s = .next t ∧ (coreOf t x.core).vq = k.vq ++ [e] ∧ e.op = .ld ∧ e.d = d.toNat ∧
        t.reqs = s.reqs ++ [r] ∧ r.segs = [(pa, 256)] ∧ r.write = false ∧ t.mem = s.mem ∧
        (stCtx t x.core x.ctx).st = .waitMem ∧ (stCtx t x.core x.ctx).pc = c.pc) ∧
    (xlate k c.tenant.toNat off.toNat 1 = .hit pa → k.writeTags < 64 →
      ∃ t e r, exec (.vst x d a imm) s = .next t ∧ (coreOf t x.core).vq = k.vq ++ [e] ∧ e.op = .st ∧ e.a = d.toNat ∧
        t.reqs = s.reqs ++ [r] ∧ r.segs = [(pa, 256)] ∧ r.write = true ∧ t.mem = s.mem ∧
        (stCtx t x.core x.ctx).st = .running ∧ (stCtx t x.core x.ctx).pc = c.pc + 8))

/-- R127: the unit starts the oldest ready entry: one whose computation ends well leaves the queue and waits with its result;
one that fails faults its context, on a core that is not fenced. Here of the operations other than the four vector loads and
stores, and where no restored work still has to enter the queues. -/
def Claims.VectorEntryStarts : Prop := ∀ (s : State) (c : Nat) (e : VEntry),
  (coreOf s c).vq.find? (entryReady s c (coreOf s c) ·) = some e → e.op ∉ [VOp.ldl, .stl, .ld, .st] →
  (∀ n, n < 8 → comingBack (stCtx s c n) = false) →
  (∀ r ov, vecCompute (coreOf s c) e = .ok (r, ov) →
    ∃ t, exec (.vectorEntryStart c .clean) s = .next t ∧ (coreOf t c).vq = (coreOf s c).vq.filter (fun o => o.id != e.id) ∧
      (coreOf t c).vrun = (coreOf s c).vrun ++ [{ entry := e, result := r, overflow := ov }] ∧
      (coreOf t c).vregs = (coreOf s c).vregs ∧ (coreOf t c).tiles = (coreOf s c).tiles ∧ t.mem = s.mem) ∧
  (∀ f, vecCompute (coreOf s c) e = .error f → (stCtx s c e.ctx).st = .running → (stCtx s c e.ctx).order = e.order + 1 →
    (stCtx s c e.ctx).wait = .none → (coreOf s c).fenced = false →
    ∃ t, exec (.vectorEntryStart c .clean) s = .next t ∧ (stCtx t c e.ctx).st = .faulted ∧
      (stCtx t c e.ctx).cause = some f ∧ (stCtx t c e.ctx).imprecise = false ∧ (stCtx t c e.ctx).faultPc = e.pc ∧
      t.mem = s.mem)

/-- R127, R129, R131: a started entry writes exactly its result: a vector register, a general register, a predicate, the 256
bytes of a local-store write; it leaves the list of started entries. -/
def Claims.VectorResultWrites : Prop := ∀ (s : State) (c : Nat) (v : VStarted),
  (coreOf s c).vrun.find? (fun o => o.entry.id == v.entry.id) = some v → v.overflow = false → (coreOf s c).rsrq = [] →
  ∃ t, exec (.vectorResultWrite c v.entry.id) s = .next t ∧
    (coreOf t c).vrun = (coreOf s c).vrun.filter (fun o => o.entry.id != v.entry.id) ∧
    (∀ d lanes psn, v.result = .vreg d lanes psn → lanes.length = 64 → t.mem = s.mem ∧
      lanesOf (vregOf (coreOf t c) d) = lanes ∧ (vregOf (coreOf t c) d).psn = psn ∧
      ∀ j, j < 32 → j ≠ d % 32 → vregOf (coreOf t c) j = vregOf (coreOf s c) j) ∧
    (∀ d w, v.result = .greg d w → t.mem = s.mem ∧ (coreOf t c).vregs = (coreOf s c).vregs ∧
      ∀ r, readG (stCtx t c v.entry.ctx) r = if r = d ∧ d ≠ 0 then w else readG (stCtx s c v.entry.ctx) r) ∧
    (∀ p b, v.result = .pred p b → t.mem = s.mem ∧ (coreOf t c).vregs = (coreOf s c).vregs ∧
      ∀ q, q < 8 → readP (stCtx t c v.entry.ctx) q = if q = p ∧ p ≠ 0 then b else readP (stCtx s c v.entry.ctx) q) ∧
    (∀ off bs, v.result = .localStore off bs → (coreOf t c).vregs = (coreOf s c).vregs ∧
      (∀ i (h : i < bs.length), byteAt t.mem (lsAddr c off + i) = bs[i]) ∧
      ∀ j, j < lsAddr c off ∨ lsAddr c off + bs.length ≤ j → byteAt t.mem j = byteAt s.mem j)

/-- R128 to R130: lane i of a checked vadd, vsub, vmul, vmin or vmax is the exact result of the two lanes, clamped to
±2,147,483,647, and of an exact one (W = 1) the low 32 bits; poison bit q is the OR of the sources' bits q and of an overflow
in quarter q. -/
def Claims.LaneArithmetic : Prop := ∀ (k : Core) (e : VEntry) (i : Nat), i < 64 →
  let x := (laneAt (vregOf k e.a) i).toInt
  let y := (laneAt (vregOf k e.b) i).toInt
  let gives := fun (op : VOp) (v : Int) => e.op = op → ∃ lanes psn ov, vecCompute k e = .ok (.vreg e.d lanes psn, ov) ∧
    lanes.length = 64 ∧
    lanes[i]? = some (if e.w && (op == .add || op == .sub || op == .mul) then BitVec.ofInt 32 v
                      else BitVec.ofInt 32 (max (-2147483647) (min 2147483647 v))) ∧
    ((vregOf k e.a).psn.getLsbD (i / 16) || (vregOf k e.b).psn.getLsbD (i / 16) = true → psn.getLsbD (i / 16) = true) ∧
    (psn.getLsbD (i / 16) = true → (vregOf k e.a).psn.getLsbD (i / 16) || (vregOf k e.b).psn.getLsbD (i / 16) || ov)
  gives .add (x + y) ∧ gives .sub (x - y) ∧ gives .mul (x * y) ∧ gives .min (min x y) ∧ gives .max (max x y)

/-- R50, R51: the scale byte of a block is the smallest e of 0 to 254 for which the block's largest magnitude fits qmax × 2^n, and
OVF, with elements of 0, if none does, and 0 for a block of zeros; under that scale every element of the block lies within
±qmax in nearest-even and in truncation. -/
def Claims.ScaleChoice : Prop := ∀ (fmt : Nat) (q : Int) (xs : List Int), fmt ∈ [1, 2, 3] →
  let n := fun (e : Nat) => (e : Int) - 127 - fracBits fmt - q
  let fits := fun (e : Nat) => ∀ x ∈ xs,
    if 0 ≤ n e then x.natAbs ≤ qmax fmt * 2 ^ (n e).toNat else x.natAbs * 2 ^ (-n e).toNat ≤ qmax fmt
  let e := blockScale fmt q xs
  (e < 255 → fits e ∧ ∀ e', e' < e → ¬fits e') ∧ (e = 255 ↔ ∀ e', e' < 255 → ¬fits e') ∧ e ≤ 255 ∧
  ((∀ x ∈ xs, x = 0) → e = 0) ∧
  (∀ (mode : Nat) (us : List Nat), e = 255 → ∀ v ∈ blockElems fmt mode e q xs us, v = 0) ∧
  (e < 255 → ∀ x ∈ xs, ∀ mode ∈ [0, 2],
    (roundElem mode 0 x (n e)).natAbs ≤ qmax fmt)

/-- The issue of the lane instructions and of the mixed ones. -/
def Obligations.VectorIssue : Prop := Claims.LaneInstructionsIssue ∧ Claims.MixedVectorIssue

/-- The issue of the requantize, widen and vector memory instructions. -/
def Obligations.RequantizeAndMemoryIssue : Prop := Claims.RequantizeAndWidenIssue ∧ Claims.VectorMemoryIssue

/-- The vector queue: how an entry starts, and what its result writes. -/
def Obligations.VectorExecution : Prop := Claims.VectorEntryStarts ∧ Claims.VectorResultWrites

/-- The arithmetic of a lane, and the choice of a block exponent. -/
def Obligations.VectorArithmetic : Prop := Claims.LaneArithmetic ∧ Claims.ScaleChoice

/-! ## Signals, switching and the life of a task (03, 07, 14, 17) -/

/-- R146, R166, R167, R303, R306: sig to a usable core sends its count, a sig.rel with earlier stores open is held, and a count of
0 faults with ILLEGAL_INSTR; wait and tryw consume one count of an owned semaphore; wait on an
empty one deschedules; a saturated one faults with SEM_OVERFLOW, one outside the mask with PERMISSION. -/
def Claims.SemaphoreInstructions : Prop := ∀ (x : Issue) (ga : Reg) (q : SemNo) (cnt : Byte) (pd : PredNo) (s : State),
  Runs x [ga.toNat] [pd.toNat] s →
  let k := coreOf s x.core
  let c := stCtx s x.core x.ctx
  let v := semOf k q.toNat
  let w := readG c ga.toNat
  (w.toNat < 352 → coreUsable s c.tenant.toNat w.toNat = true → k.held = [] → cnt ≠ 0 →
    (∀ rel : Bool, (rel = true → storesBefore s x.core x.ctx c.order = false) →
      ∃ t, exec (.sig x ga q cnt rel) s = .next t ∧
        t.sigs = s.sigs ++ [{ core := w.toNat, sem := q.toNat, cnt := cnt.toNat, src := some (x.core, x.ctx) }] ∧
        SetsReg x (c.pc + 8) 0 0 { s with sigs := t.sigs } t) ∧
    (storesBefore s x.core x.ctx c.order = true →
      ∃ t h, exec (.sig x ga q cnt true) s = .next t ∧ t.sigs = s.sigs ∧ (coreOf t x.core).held = [h] ∧ h.ctx = x.ctx ∧
        h.order = c.order ∧ h.target = w ∧ h.sem = q.toNat ∧ h.cnt = cnt.toNat ∧ h.rel = true ∧ t.mem = s.mem ∧
        (stCtx t x.core x.ctx).pc = c.pc + 8 ∧ ∀ r, readG (stCtx t x.core x.ctx) r = readG c r)) ∧
  (cnt = 0 → ∀ rel : Bool, ∃ t, exec (.sig x ga q cnt rel) s = .next t ∧ FaultsAt x .illegalInstr 0 s t) ∧
  (ownsSem c q.toNat = true → v.ovf = false → v.count ≠ 0 →
    (∃ t, exec (.wait x q) s = .next t ∧ semOf (coreOf t x.core) q.toNat = { v with count := v.count - 1 } ∧
      (∀ j, j < 64 → j ≠ q.toNat → semOf (coreOf t x.core) j = semOf k j) ∧
      (stCtx t x.core x.ctx).pc = c.pc + 8 ∧ t.mem = s.mem) ∧
    (∃ t, exec (.tryw x pd q) s = .next t ∧ semOf (coreOf t x.core) q.toNat = { v with count := v.count - 1 } ∧
      readP (stCtx t x.core x.ctx) pd.toNat = true ∧ (stCtx t x.core x.ctx).pc = c.pc + 8 ∧ t.mem = s.mem)) ∧
  (ownsSem c q.toNat = true → v.ovf = false → v.count = 0 →
    (∃ t, exec (.wait x q) s = .next t ∧ (stCtx t x.core x.ctx).st = .waitSem ∧ (stCtx t x.core x.ctx).pc = c.pc ∧
      (coreOf t x.core).running = none ∧ t.mem = s.mem) ∧
    (∃ t, exec (.tryw x pd q) s = .next t ∧ SetsPred x pd.toNat false s t)) ∧
  (ownsSem c q.toNat = true → v.ovf = true →
    (∃ t, exec (.wait x q) s = .next t ∧ FaultsAt x .semOverflow 0 s t) ∧
    (∃ t, exec (.tryw x pd q) s = .next t ∧ FaultsAt x .semOverflow 0 s t)) ∧
  (ownsSem c q.toNat = false →
    (∃ t, exec (.wait x q) s = .next t ∧ FaultsAt x .permission 0 s t) ∧
    (∃ t, exec (.tryw x pd q) s = .next t ∧ FaultsAt x .permission 0 s t))

/-- R167, R303, R304, R308: signals in flight that may arrive together add their counts once, saturating at 65,535 with the sticky
overflow bit, and a context that waits for the semaphore goes on with one count consumed; signals whose order R308 forbids change
nothing; a held sig.rel whose stores have answered leaves the core. -/
def Claims.SignalsArrive : Prop :=
  (∀ (s : State) (c : Nat) (q : SemNo) (picks : List Nat), picks.all (sigMay s.sigs c q.toNat picks) = false →
    exec (.signalArrival c q picks) s = .next s) ∧
  (∀ (s : State) (c : Nat) (q : SemNo) (picks : List Nat), (coreOf s c).fenced = false → picks ≠ [] →
    picks.all (sigMay s.sigs c q.toNat picks) = true → vc0Held s = false →
    let n := sigCounts s.sigs picks
    let v := semOf (coreOf s c) q.toNat
    ((∀ m, isWaiting (stCtx s c m).st = false) →
      ∃ t, exec (.signalArrival c q picks) s = .next t ∧ t.sigs = sigsLeft s.sigs picks ∧ t.mem = s.mem ∧
        semOf (coreOf t c) q.toNat = { count := min 65535 (v.count + n), ovf := v.ovf || decide (65535 < v.count + n) } ∧
        ∀ j, j < 64 → j ≠ q.toNat → semOf (coreOf t c) j = semOf (coreOf s c) j) ∧
    (∀ m, m < 8 → (stCtx s c m).st = .waitSem → (stCtx s c m).wait = .sem q.toNat →
      comingBack (stCtx s c m) = false → v.count + n ≠ 0 →
      (∀ j, j ≠ m → isWaiting (stCtx s c j).st = false) → v.ovf = false → v.count + n ≤ 65535 →
      ∃ t, exec (.signalArrival c q picks) s = .next t ∧ t.sigs = sigsLeft s.sigs picks ∧ t.mem = s.mem ∧
        (stCtx t c m).st = .ready ∧ (stCtx t c m).pc = (stCtx s c m).pc + 8 ∧
        semOf (coreOf t c) q.toNat = { count := v.count + n - 1, ovf := false })) ∧
  (∀ (s : State) (c : Nat) (h : HeldSig), (coreOf s c).held = [h] → h.rel = true →
    storesBefore s c h.ctx h.order = false → tCh h.target = false →
    ∃ t, exec (.sigRelRelease c h.id) s = .next t ∧ (coreOf t c).held = [] ∧
      t.sigs = s.sigs ++ [{ core := tCore h.target, sem := h.sem, cnt := h.cnt, src := some (c, h.ctx) }] ∧ t.mem = s.mem)

/-- R168: fence goes on if the classes of its mask are done, else it waits in WAIT_MEM until its release; mask 0 faults with
ILLEGAL_INSTR. -/
def Obligations.Fences : Prop := ∀ (x : Issue) (mask : BitVec 4) (s : State), Runs x [] [] s →
  (mask ≠ 0 → fenceMet s x.core x.ctx mask.toNat = true →
    ∃ t, exec (.fence x mask) s = .next t ∧ SetsReg x ((stCtx s x.core x.ctx).pc + 8) 0 0 s t) ∧
  (mask ≠ 0 → fenceMet s x.core x.ctx mask.toNat = false →
    ∃ t, exec (.fence x mask) s = .next t ∧ (stCtx t x.core x.ctx).st = .waitMem ∧
      (stCtx t x.core x.ctx).wait = .fence mask.toNat ∧ (stCtx t x.core x.ctx).pc = (stCtx s x.core x.ctx).pc ∧ t.mem = s.mem) ∧
  (mask = 0 → ∃ t, exec (.fence x mask) s = .next t ∧ FaultsAt x .illegalInstr 0 s t) ∧
  (∀ u : State, (stCtx u x.core x.ctx).st = .waitMem → (stCtx u x.core x.ctx).wait = .fence mask.toNat →
    fenceMet u x.core x.ctx mask.toNat = true →
    ∃ t, exec (.fenceRelease x.core x.ctx) u = .next t ∧ (stCtx t x.core x.ctx).st = .ready ∧
      (stCtx t x.core x.ctx).pc = (stCtx u x.core x.ctx).pc + 8 ∧ t.mem = u.mem)

/-- R169, R213, R335: dsub and gsub enter the engine queue of 8, and fault with ILLEGAL_INSTR where they name a semaphore without
asking for a signal; a gsub that the engine accepts at its head joins the Fold's Gleaner. -/
def Obligations.EngineCommands : Prop :=
  (∀ (x : Issue) (gc gn : Reg) (se : Bool) (q : SemNo) (s : State), Runs x [gc.toNat, gn.toNat] [] s →
    (coreOf s x.core).eq.length < 8 →
    let c := stCtx s x.core x.ctx
    let ch := (readG c gc.toNat).toNat
    let va := readG c gc.toNat
    (se = false → q ≠ 0 →
      (∃ t, exec (.dsub x gc gn se q) s = .next t ∧ FaultsAt x .illegalInstr 0 s t) ∧
      (∃ t, exec (.gsub x gc se q) s = .next t ∧ FaultsAt x .illegalInstr 0 s t)) ∧
    ((se = false → q = 0) →
    (ch ≤ 255 → holdsDma s c.tenant.toNat ch = true →
      ∃ t e, exec (.dsub x gc gn se q) s = .next t ∧ (coreOf t x.core).eq = (coreOf s x.core).eq ++ [e] ∧ e.chan = ch ∧
        e.gleaner = false ∧ e.se = se ∧ e.sem = q.toNat ∧ e.pi = (readG c gn.toNat).setWidth 16 ∧
        (stCtx t x.core x.ctx).pc = c.pc + 8 ∧ t.mem = s.mem) ∧
    (255 < ch → ∃ t, exec (.dsub x gc gn se q) s = .next t ∧ FaultsAt x .bounds 0 s t) ∧
    (ch ≤ 255 → holdsDma s c.tenant.toNat ch = false →
      ∃ t, exec (.dsub x gc gn se q) s = .next t ∧ FaultsAt x .permission 0 s t) ∧
    (va.toNat % 64 = 0 →
      ∃ t e, exec (.gsub x gc se q) s = .next t ∧ (coreOf t x.core).eq = (coreOf s x.core).eq ++ [e] ∧ e.va = va ∧
        e.gleaner = true ∧ e.se = se ∧ e.sem = q.toNat ∧ (stCtx t x.core x.ctx).pc = c.pc + 8 ∧ t.mem = s.mem) ∧
    (va.toNat % 64 ≠ 0 → ∃ t, exec (.gsub x gc se q) s = .next t ∧ FaultsAt x .align va s t))) ∧
  (∀ (s : State) (c : Nat) (e : EngCmd) (rest : List EngCmd), (coreOf s c).eq = e :: rest → e.gleaner = true →
    (coreOf s c).fenced = false → (look ({} : Fold) s.folds (foldOf s c)).cmds.length < 32 →
    ∃ t g, exec (.engineCommandAccept c) s = .next t ∧ (coreOf t c).eq = rest ∧
      (look ({} : Fold) t.folds (foldOf s c)).cmds = (look ({} : Fold) s.folds (foldOf s c)).cmds ++ [g] ∧ g.va = e.va ∧
      g.core = c ∧ g.tenant = e.tenant ∧ g.started = false ∧ t.mem = s.mem)

/-- R66, R68, R519: the issue slot passes to the first READY context in order after the one that ran last; the yield timer takes
it back at 4,096; a free tag goes to the oldest context that waits for it. -/
def Obligations.Switching : Prop :=
  (∀ (s : State) (c n : Nat), (coreOf s c).running = none → (coreOf s c).fenced = false → nextReady (coreOf s c) = some n →
    ∃ t, exec (.issueSwitch c) s = .next t ∧ (coreOf t c).running = some n ∧ (coreOf t c).lastRun = n ∧
      (stCtx t c n).st = .running ∧ (stCtx t c n).yieldTimer = 0 ∧ (stCtx t c n).pc = (stCtx s c n).pc ∧
      (∀ m, m ≠ n → stCtx t c m = stCtx s c m) ∧ t = { s with cores := t.cores }) ∧
  (∀ (s : State) (c n : Nat), (coreOf s c).running = some n → 4096 ≤ (stCtx s c n).yieldTimer →
    ∃ t, exec (.yieldTimerExpiry c) s = .next t ∧ (coreOf t c).running = none ∧ (stCtx t c n).st = .ready ∧
      (stCtx t c n).pc = (stCtx s c n).pc ∧ t = { s with cores := t.cores }) ∧
  (∀ (s : State) (c n : Nat) (rest : List (Nat × Bool)), (coreOf s c).tagQueue = (n, false) :: rest → n < 8 →
    (coreOf s c).readTags < 64 →
    ∃ t, exec (.tagFree c false) s = .next t ∧ (coreOf t c).tagQueue = rest ∧ (stCtx t c n).st = .ready ∧
      (coreOf t c).readTags = (coreOf s c).readTags + 1 ∧ t = { s with cores := t.cores })

/-- R75 to R78: a walk that finds a resident leaf makes the context READY at the same instruction, with the page in its translation
cache; one that finds a page that is not resident puts it in WAIT_PAGE, and the page's arrival makes it READY. Stated of a
module with one core in use, with no tile move under way, and of a tenant whose root the walker holds. -/
def Claims.WalksAndPages : Prop := ∀ (s : State) (c n : Nat) (k : Core) (x : Ctx) (l : Leaf) (va acc : Nat),
  s.cores = [(c, k)] → k.ctxs = [(n, x)] → n < 8 → va < 2 ^ 48 → acc ≤ 1 →
  leafOf s x.tenant.toNat va = some (l, false) → pteV l.pte = true → pteMalformed l.pte false = false →
  l.pte.getLsbD (acc + 1) = true → pteBroken l.pte = 0 →
  (x.st = .waitMem → x.wait = .walk va acc →
    (tabFind (look ({} : Fold) s.folds (foldOf s c)).roots x.tenant.toNat).isSome →
    (look ({} : Fold) s.folds (foldOf s c)).walks = [{ tenant := x.tenant.toNat, page := va / 2097152 }] →
    ∃ t, exec (.walkComplete (foldOf s c) x.tenant.toNat (BitVec.ofNat 64 va) none) s = .next t ∧
      (look ({} : Fold) t.folds (foldOf s c)).walks = [] ∧ (stCtx t c n).pc = x.pc ∧ t.mem = s.mem ∧
      (pteRes l.pte = true → (stCtx t c n).st = .ready ∧
        xlate (coreOf t c) x.tenant.toNat va acc = .hit (pteAddr l.pte + va % 2097152)) ∧
      (pteRes l.pte = false → (stCtx t c n).st = .waitPage ∧ (stCtx t c n).wait = .page va)) ∧
  (x.st = .waitPage → x.wait = .page va → pteRes l.pte = true → k.moves = [] → s.hostWait = [] →
    ∃ t, exec (.pageResident x.tenant.toNat (BitVec.ofNat 64 va)) s = .next t ∧ (stCtx t c n).st = .ready ∧
      (stCtx t c n).pc = x.pc ∧ t.mem = s.mem)

/-- R77, R275: an agent that takes an invalidation drops every entry of the range; once no request translated with them is open
the agent has acknowledged. Stated of one open invalidation with no page-in under way. -/
def Claims.InvalidationAcknowledged : Prop := ∀ (s : State) (v : Inval) (c : Nat), s.invals = [v] → v.cmd = 0 →
  c < 352 → v.left = [c] → v.frames = [] → s.jobsPg = [] → openIn s c v = false →
  ∃ t, exec (.translationInvalidate v.id c) s = .next t ∧ t.invals = [] ∧ t.mem = s.mem ∧
    ∀ e ∈ (coreOf t c).tlb, ¬(e.tenant = v.tenant ∧ e.vpn * pageBytes e.big < v.va + v.len ∧
      v.va < e.vpn * pageBytes e.big + pageBytes e.big)

/-- R64, R94, R318, R396: a queued task starts on a free context with the state of R64: READY at its entry, the masks and the
arguments of its descriptor, every other register 0, and the tiles of its mask configured. -/
def Claims.TaskStarts : Prop := ∀ (s : State) (t h n : Nat) (x : Handle) (d : TaskDesc) (rest : List TaskDesc),
  handleOf s t h = some x → x.st = .open_ → x.killing = false → x.onCtx = none → x.queue = d :: rest →
  savedOf (coreOf s x.core) t h = none → (coreOf s x.core).fenced = false → (coreOf s x.core).tenant = some t →
  (coreOf s x.core).scrubbed = true → n < 8 → (stCtx s x.core n).st = .free →
  maskFree (coreOf s x.core) t h d.res0 d.res1 = true → (coreOf s x.core).rsrq = [] → uangoAway s = false →
  ∃ u, exec (.taskStart t h n) s = .next u ∧ (stCtx u x.core n).st = .ready ∧ (stCtx u x.core n).pc = d.entry ∧
    (stCtx u x.core n).res0 = d.res0 ∧ (stCtx u x.core n).res1 = d.res1 ∧ (stCtx u x.core n).preds = 0 ∧
    (stCtx u x.core n).taskSeq = (stCtx s x.core n).taskSeq + 1 ∧
    (∀ r, readG (stCtx u x.core n) (r + 1) = d.args.getD r 0) ∧
    (∀ i, i < 16 → d.res0.getLsbD i = true → (tileOf (coreOf u x.core) i).cfg = look 0 d.tileCfg i ∧
      (tileOf (coreOf u x.core) i).rowv = 0) ∧
    (∃ y, handleOf u t h = some y ∧ y.queue = rest ∧ y.onCtx = some n) ∧ u.mem = s.mem

/-- R83, R84, R319: a task that reached DONE leaves its context FREE; one that faulted is cleaned up once its work is quiet: its
banks are zero and its context is FREE. Stated of a task whose record needs no restoring, of a tenant that is not ending, of a context of no task, and of a core that holds no signal. -/
def Claims.TasksEnd : Prop :=
  (∀ (s : State) (c n : Nat) (r : TaskRun), (stCtx s c n).st = .done → (stCtx s c n).task = some r → (coreOf s c).fenced = false →
    uangoAway s = false → (coreOf s c).held = [] → r.record = {} → n < 8 → (tenantOf s r.tenant).scrub = none →
    (∀ h, handleOf s r.tenant r.handle = some h → h.killing = false) →
    ∃ t, exec (.taskDoneCompare c n) s = .next t ∧ (stCtx t c n).st = .free ∧ (stCtx t c n).task = none ∧
      (∀ i, i < 16 → ownsTile (stCtx s c n) i = true → (tileOf (coreOf t c) i).rowv = 0)) ∧
  (∀ (s : State) (c n : Nat), (stCtx s c n).st = .faulted → (stCtx s c n).task = none → quietCtx s c n = true →
    (coreOf s c).fenced = false → uangoAway s = false → (coreOf s c).held = [] → n < 8 →
    ∃ t, exec (.faultCleanupComplete c n) s = .next t ∧ (stCtx t c n).st = .free ∧ t.mem = s.mem ∧
      (∀ b, b < 4 → ownsBank (stCtx s c n) b = true → bankOf (coreOf t c) b = {}) ∧
      ∀ i, i < 16 → ownsTile (stCtx s c n) i = true → (tileOf (coreOf t c) i).rowv = 0)

/-- R65, R395, R396: a quantum boundary chooses at most one more context for a save per waiting task, and changes nothing where none
waits; of the contexts that started before the window one in WAIT_SEM goes first, then one in WAIT_PAGE, then the one that has issued
longest. A save whose work has ended frees the context and keeps its PC, registers, predicates, banks and vector registers; the task
that it was made for starts on the context, and where that task is gone the context stays FREE. -/
def Obligations.TimeSlicing : Prop :=
  (∀ (s : State) (c : Nat), (coreOf s c).fenced = false →
    ∃ t, exec (.timeSliceBoundary c) s = .next t ∧ t = { s with cores := t.cores } ∧
      ((coreOf s c).waiting = [] → t = s) ∧ (coreOf t c).tiles = (coreOf s c).tiles ∧
      ∃ more, (coreOf t c).saving = (coreOf s c).saving ++ more ∧ more.length ≤ (coreOf s c).waiting.length) ∧
  (∀ (s : State) (c tn h at_ n : Nat) (x : Handle) (m : Word64 × Word64) (y : Ctx),
    let k := coreOf s c
    let q := max 1 (quantumOf s tn (nextJob k tn h x))
    k.fenced = false → uangoAway s = false → k.waiting = [(tn, h, at_)] → handleOf s tn h = some x →
    nextMasks k tn h x = some m → (∀ i, i < 8 → (ctxOf k i).st ≠ .free) → s.ftime % q = 0 → k.saving = [] →
    (n, y) ∈ saveFits s k q →
    ∃ t i z, exec (.timeSliceBoundary c) s = .next t ∧ (coreOf t c).saving = [(i, h)] ∧ (i, z) ∈ saveFits s k q ∧
      (saveRank z < saveRank y ∨ saveRank z = saveRank y ∧ (saveRank y = 2 → issuedFor y ≤ issuedFor z)) ∧ t.mem = s.mem) ∧
  (∀ (s : State) (c n h : Nat) (r : TaskRun), (stCtx s c n).task = some r →
    (coreOf s c).saving.find? (fun e => e.1 == n) = some (n, h) →
    saveReady s c n = true → (coreOf s c).fenced = false → uangoAway s = false → (coreOf s c).held = [] → n < 8 →
    (coreOf s c).rsrq = [] →
    (handleOf s r.tenant h = none →
      ∃ t v, exec (.contextSaveComplete c n) s = .next t ∧ (stCtx t c n).st = .free ∧
      (coreOf t c).saved = (coreOf s c).saved ++ [v] ∧ v.task = r ∧ v.ctx.pc = (stCtx s c n).pc ∧
      v.ctx.regs = (stCtx s c n).regs ∧ v.ctx.preds = (stCtx s c n).preds ∧
      v.banks = (ownedBanks (stCtx s c n)).map (fun b => (b, bankOf (coreOf s c) b)) ∧
      v.vregs = (ownedVregs (stCtx s c n)).map (fun i => (i, vregOf (coreOf s c) i)) ∧
      t.mem = s.mem ∧
      ((∀ m, m ≠ n → isWaiting (stCtx s c m).st = false) → (coreOf t c).sems = (coreOf s c).sems)) ∧
    (∀ (x : Handle) (d : TaskDesc), handleOf s r.tenant h = some x → x.core = c → h ≠ r.handle → x.st = .open_ →
      x.killing = false → x.onCtx = none → x.queue.head? = some d → savedOf (coreOf s c) r.tenant h = none →
      (coreOf s c).tenant = some r.tenant → (coreOf s c).scrubbed = true →
      maskFree (saveCtx (coreOf s c) n r) r.tenant h d.res0 d.res1 = true →
      (∀ m, m ≠ n → isWaiting (stCtx s c m).st = false ∧ (stCtx s c m).backP = [] ∧ (stCtx s c m).backV = []) →
      ∃ t, exec (.contextSaveComplete c n) s = .next t ∧ (stCtx t c n).st = .ready ∧ (stCtx t c n).pc = d.entry ∧
        (stCtx t c n).res0 = d.res0 ∧ (stCtx t c n).res1 = d.res1 ∧ t.mem = s.mem ∧
        ∃ v ∈ (coreOf t c).saved, v.task = r ∧ v.ctx.pc = (stCtx s c n).pc ∧ v.ctx.regs = (stCtx s c n).regs))

/-- The semaphore instructions, and the arrival of a signal. -/
def Obligations.SemaphoresAndSignals : Prop := Claims.SemaphoreInstructions ∧ Claims.SignalsArrive

/-- Page walks, near pages and the invalidation. -/
def Obligations.TranslationEvents : Prop := Claims.WalksAndPages ∧ Claims.InvalidationAcknowledged

/-- How a task starts on its cores, and how it ends. -/
def Obligations.TasksStartAndEnd : Prop := Claims.TaskStarts ∧ Claims.TasksEnd

/-! ## The on-die network (13) -/

/-- R286, R287, R288, R296, R301: a packet for a core leaves a router where nothing else stands by X first on plane 0 and by Y first
on plane 1, once the next input buffer, or the FIFO of its unit, has room, and waits in its input buffer until then; one for a
memory port waits at that output's arbiter. A packet from a unit crosses its FIFO first. A flit that had to be replayed or
corrected is counted and goes on; a data flit whose replay fails goes on marked in error; a header whose replay fails ends every
request in the link's replay buffer and marks the router as failed. -/
def Claims.FlitsMove : Prop := ∀ (s : State) (p : Bool) (rx ry : Nat) (inp : Port) (k : Packet), rx < 16 → ry < 24 →
  inp.at rx ry = true → k.carried = true → k.err = false →
  let r := rtr rx ry
  let x := routerOf s p r
  let i := portNo inp
  let alone := atInputs x = [] ∧ x.slots = [] ∧ x.fifo = [] ∧ x.down = [] ∧ (planeOf s p).tableFor = []
  let enters := (nbrAt r i).isSome = true ∨
    pickPlane s p r i k = p ∧ entryPlane s p k = p ∧ mayEnter s p r (i, k) = true
  let moved := fun (t : State) => (∀ q, q ≠ r → nbrAt r i ≠ some q → routerOf t p q = routerOf s p q) ∧
    (∀ q, nbrAt r i = some q → routerOf t p q = { routerOf s p q with out := (routerOf s p q).out.erase (backPort i, k) }) ∧
    planeOf t (!p) = planeOf s (!p) ∧ (routerOf t p r).fifo = [] ∧ t.mem = s.mem
  (∀ dx dy : Nat, dx < 16 → dy < 24 → k.dest = .core dx dy → alone → enters → portClosed s r = false →
    let ew := if rx < dx then some (portNo .east) else if dx < rx then some (portNo .west) else none
    let ns := if ry < dy then some (portNo .north) else if dy < ry then some (portNo .south) else none
    let o := ((if p then ns else ew).orElse fun _ => if p then ew else ns).getD (portNo .locl)
    (takes s p r i o k = true →
      (∃ t, exec (.flitReceive p rx ry inp k .good) s = .next t ∧ t = { s with planes := t.planes } ∧ moved t ∧
        (routerOf t p r).out = x.out ++ [(o, k)] ∧ (routerOf t p r).inbuf = [] ∧
        look 0 (routerOf t p r).counters k.vc.toNat = satAdd (look 0 x.counters k.vc.toNat) (1 + k.dataFlits)) ∧
      (∃ t, exec (.flitReceive p rx ry inp k .headerCorrected) s = .next t ∧ moved t ∧ (routerOf t p r).out = x.out ++ [(o, k)] ∧
        look 0 (routerOf t p r).counters nocHdr = satAdd (look 0 x.counters nocHdr) 1) ∧
      (∃ t, exec (.flitReceive p rx ry inp k .replayed) s = .next t ∧ moved t ∧ (routerOf t p r).out = x.out ++ [(o, k)] ∧
        look 0 (routerOf t p r).counters nocReplays = satAdd (look 0 x.counters nocReplays) 1) ∧
      ∃ t, exec (.flitReceive p rx ry inp k .dataLasting) s = .next t ∧ (routerOf t p r).out.length = x.out.length + 1 ∧
        look 0 (routerOf t p r).counters nocReplays = satAdd (look 0 x.counters nocReplays) 1 ∧
        look 0 (routerOf t p r).counters nocLasting = satAdd (look 0 x.counters nocLasting) 1 ∧
        ∃ e, (o, e) ∈ (routerOf t p r).out ∧ e.err = true ∧ e.id = k.id ∧ e.dest = k.dest) ∧
    (takes s p r i o k = false →
      ∃ t, exec (.flitReceive p rx ry inp k .good) s = .next t ∧ t = { s with planes := t.planes } ∧ moved t ∧
        (routerOf t p r).out = x.out ∧ (routerOf t p r).inbuf = [(i, k)])) ∧
  (∀ n : Nat, n < 4 → k.dest = .near n → rx = 0 → 6 * n ≤ ry → ry ≤ 6 * n + 5 → alone → enters →
    takes s p r i (portNo .near) k = true →
    ∃ t, exec (.flitReceive p rx ry inp k .good) s = .next t ∧ t = { s with planes := t.planes } ∧ moved t ∧
      (arbOf t p r (portNo .near)).waiting = (arbOf s p r (portNo .near)).waiting ++ [(i, k)] ∧
      (routerOf t p r).out = x.out) ∧
  (∀ n : Nat, nbrAt r i = some n → x.failed = false → atInputs x = [] → x.fifo = [] →
    (∀ q, ∀ e ∈ (routerOf s p q).out, treeNo e.2.dest = none) →
    ∃ t, exec (.flitReceive p rx ry inp k .headerLasting) s = .next t ∧ (routerOf t p r).failed = true ∧ t.mem = s.mem ∧
      (planeOf t p).newFailed = (planeOf s p).newFailed ++ [r] ∧
      ∀ e ∈ (routerOf s p n).out, e.1 = backPort i → ∀ id, e.2.req = some id → ∀ q ∈ t.reqs, q.id = id → q.st ≠ .waiting) ∧
  (x.failed = false → atInputs x = [] → x.fifo = [] → (∀ q, ∀ e ∈ (routerOf s p q).out, treeNo e.2.dest = none) →
    ∃ t, exec (.routerFailure p rx ry) s = .next t ∧ (routerOf t p r).failed = true ∧ t.mem = s.mem ∧
      (planeOf t p).newFailed = (planeOf s p).newFailed ++ [r] ∧
      ((planeOf s p).rerouting = false → (planeOf s (!p)).rerouting = false → (planeOf t p).rerouting = true) ∧
      ((planeOf s p).rerouting = false → (planeOf s (!p)).rerouting = true → (planeOf t p).waiting = true) ∧
      ∀ c, coreAt s r = some c → c < 352 → s.grid.retired.contains c = false → (coreOf t c).fenced = true)

/-- R296 to R298: at a router where nothing else stands, a round grants the requesting input of the highest priority, which the others
rise toward, to at most 15, and a packet of one flit passes in its grant cycle; while an output is held a waiting input above the
grant priority takes it, else the next flit of the holder's packet passes, and with the last the output is free; none can take it above 15; after 65,536 NCLK cycles of one grant, and not before, the watchdog ends every
waiting request of the output with WATCHDOG, and 256 NCLK cycles later, and not before, the output's reset ends. -/
def Claims.ArbitratedOutputs : Prop := ∀ (s : State) (p : Bool) (rx ry : Nat) (outp : Port), outp = .near ∨ outp = .corner ∨ outp = .die →
  let r := rtr rx ry
  let x := routerOf s p r
  let a := arbOf s p r (portNo outp)
  let b := fun (t : State) => arbOf t p r (portNo outp)
  let quiet := x.inbuf = [] ∧ x.slots = [] ∧ x.fifo = []
  (∀ (w : Nat) (k : Packet), quiet → a.resetting = false → a.holder = none → headOf a w = some k → (∀ e ∈ a.waiting, e.1 < 10) →
    (∀ e ∈ a.waiting, e.1 ≠ w → look 0 a.prio e.1 < look 0 a.prio w) →
    k.err = false → treeNo k.dest = none → fifoRoom x.out (portNo outp) k = true →
    ∃ t, exec (.arbitrationRound p rx ry outp) s = .next t ∧ t = { s with planes := t.planes } ∧
      look 0 (routerOf t p r).counters arbRounds = satAdd (look 0 x.counters arbRounds) 1 ∧
      (∀ e ∈ a.waiting, e.1 ≠ w → look 0 (b t).prio e.1 = min 15 (look 0 a.prio e.1 + 1)) ∧
      (k.dataFlits ≠ 0 → (b t).holder = some (w, look 0 a.prio w) ∧ (b t).since = s.ftime ∧ (b t).waiting = a.waiting ∧
        (routerOf t p r).out = x.out) ∧
      (k.dataFlits = 0 → (b t).holder = none ∧ look 0 (b t).prio w = 0 ∧
        (routerOf t p r).out = x.out ++ [(portNo outp, k)] ∧ (b t).waiting = a.waiting.erase (w, k))) ∧
  (∀ (h g : Nat) (k : Packet), quiet → a.resetting = false → overdue s a = false → contender a = none → a.holder = some (h, g) →
    headOf a h = some k → k.err = false → treeNo k.dest = none → fifoRoom x.out (portNo outp) k = true →
    ∃ t, exec (.arbitrationRound p rx ry outp) s = .next t ∧ t = { s with planes := t.planes } ∧
      (a.passed + 1 < flits k → b t = { a with passed := a.passed + 1 } ∧ (routerOf t p r).out = x.out) ∧
      (flits k ≤ a.passed + 1 → (b t).holder = none ∧ look 0 (b t).prio h = 0 ∧ (b t).waiting = a.waiting.erase (h, k) ∧
        (routerOf t p r).out = x.out ++ [(portNo outp, k)])) ∧
  (∀ (h g w : Nat) (k : Packet), quiet → a.resetting = false → overdue s a = false →
    a.holder = some (h, g) → headOf a w = some k → w ≠ h → g < look 0 a.prio w →
    (∀ e ∈ a.waiting, e.1 < 10) → (∀ e ∈ a.waiting, e.1 ≠ w → e.1 ≠ h → look 0 a.prio e.1 < look 0 a.prio w) → k.dataFlits ≠ 0 →
    ∃ t, exec (.arbPreempt p rx ry outp) s = .next t ∧ t = { s with planes := t.planes } ∧
      (b t).holder = some (w, look 0 a.prio w) ∧ (b t).waiting = a.waiting ∧
      look 0 (routerOf t p r).counters arbPreempts = satAdd (look 0 x.counters arbPreempts) 1 ∧
      look 0 (routerOf t p r).counters arbDiscard = satAdd (look 0 x.counters arbDiscard) a.passed) ∧
  (∀ h : Nat, a.holder = some (h, 15) → (∀ i, look 0 a.prio i ≤ 15) → exec (.arbPreempt p rx ry outp) s = .next s) ∧
  (overdue s a = false → exec (.grantWatchdogBite p rx ry outp) s = .next s) ∧
  (∀ (i : Nat) (k : Packet) (id dx dy : Nat), overdue s a = true → x.inbuf = [] → a.waiting = [(i, k)] → a.accepted = [] →
    k.req = some id → k.dest = .core dx dy → (∀ q ∈ s.reqs, q.id = id → q.write = false) →
    ∃ t, exec (.grantWatchdogBite p rx ry outp) s = .next t ∧ (b t).resetting = true ∧
      (b t).waiting = [] ∧ (b t).holder = none ∧
      t.reqs = s.reqs.map (fun q => if q.id = id ∧ q.st = .waiting then { q with st := .failed .watchdog } else q) ∧
      look 0 (routerOf t p r).counters arbBites = satAdd (look 0 x.counters arbBites) 1 ∧ t.mem = s.mem) ∧
  (a.resetting = true → 2 * 256 ≤ 3 * (s.ftime - a.since) → quiet →
    ∃ t, exec (.outputResetEnd p rx ry outp) s = .next t ∧ b t = { a with resetting := false } ∧
      t = { s with planes := t.planes }) ∧
  (3 * (s.ftime - a.since) < 2 * 256 → exec (.outputResetEnd p rx ry outp) s = .next s)

/-- R57, R293, R294: at a router where nothing else stands, a block that finds no slot of its sequence number opens one; one that meets
its slot is added to it in int32, and the sum leaves by the tree's output, if that takes it, once every input of the tree has
contributed; a second block of one input waits. R300: once a plane holds no flit, its tables are those of the routers that
remain, and until then nothing changes. -/
def Obligations.MeshReduction : Prop :=
  (∀ (s : State) (p : Bool) (rx ry : Nat) (inp : Port) (k : Packet) (g : Nat) (e : TreeEntry),
    let r := rtr rx ry
    let x := routerOf s p r
    let i := portNo inp
    rx < 16 → ry < 24 → inp.at rx ry = true → k.carried = true →
    k.dest = .tree g → tabFind x.trees g = some e → atInputs x = [] → x.fifo = [] → k.err = false →
    (nbrAt r i).isSome = true ∨ mayEnter s p r (i, k) = true →
    (∀ j, e.inMask = [i, j] → j ≠ i → x.slots = [] → 0 < e.reserve →
      ∃ t q, exec (.reductionBlockArrival p rx ry inp k) s = .next t ∧ (routerOf t p r).slots = [q] ∧ q.tree = g ∧ q.seq = k.seq ∧
        q.arrived = [i] ∧ q.poison = k.poison ∧ (routerOf t p r).out = x.out ∧ (routerOf t p r).inbuf = [] ∧
        t = { s with planes := t.planes } ∧
        look 0 (routerOf t p r).counters redBlocks = satAdd (look 0 x.counters redBlocks) 1) ∧
    (∀ (j : Nat) (q : RedSlot), e.inMask = [i, j] → x.slots = [q] → q.tree = g → q.seq = k.seq → q.arrived = [j] → j ≠ i →
      e.out < 4 → x.down = [] → (∀ y : Packet, y.vc = treeVc s p g → y.dataFlits = 1 → takes s p r adderNo e.out y = true) →
      ∃ t o, exec (.reductionBlockArrival p rx ry inp k) s = .next t ∧ (routerOf t p r).slots = [] ∧
        (routerOf t p r).out = x.out ++ [(e.out, o)] ∧ o.dest = .tree g ∧ o.seq = k.seq ∧ o.poison = (q.poison || k.poison) ∧
        (o.poison = false → ∀ n, n < 32 → o.elems.getD n 0 = signed 32 (lowBits 32 (q.sum.getD n 0 + k.elems.getD n 0))) ∧
        (o.poison = true → o.elems = List.replicate 32 0) ∧ t = { s with planes := t.planes }) ∧
    (∀ q : RedSlot, x.slots = [q] → q.tree = g → q.seq = k.seq → q.arrived.contains i = true →
      e.inMask.all q.arrived.contains = false →
      ∃ t, exec (.reductionBlockArrival p rx ry inp k) s = .next t ∧ (routerOf t p r).inbuf = [(i, k)] ∧
        (routerOf t p r).slots = [q] ∧ t = { s with planes := t.planes })) ∧
  (∀ (s : State) (p : Bool), (planeOf s p).rerouting = true → holdsFlit (planeOf s p) (fun _ => true) = false → s.chans = [] →
    (List.range 8).any (portLost s) = false →
    ∃ t, exec (.planeDrained p) s = .next t ∧ (planeOf t p).rerouting = false ∧ (planeOf t p).newFailed = [] ∧
      (planeOf t p).tableFor = ((planeOf s p).routers.filter (fun r => r.2.failed)).map (·.1) ∧
      ((planeOf s (!p)).waiting = true → (planeOf t (!p)).rerouting = true) ∧
      t.grid.distVersion = s.grid.distVersion + 2) ∧
  (∀ (s : State) (p : Bool), holdsFlit (planeOf s p) (fun _ => true) = true → exec (.planeDrained p) s = .next s)

/-- The routers: routing by column and row, and the arbitration of an output. -/
def Obligations.MeshRouting : Prop := Claims.FlitsMove ∧ Claims.ArbitratedOutputs

/-! ## Failed cores (19) and pages (12) -/

/-- R431, R433, R21, R22: Uango probes the bound cores; one that does not answer, or shows its fourth lasting error within an hour, is
fenced; once its engine commands have completed a Fallow core of its Fold is chosen; one that passes its self-test takes the number,
and with none left the number is retired. R282, R32: an unusable Near stack takes the module out of service, for errors and for
retired frames only beyond their limits. -/
def Obligations.CoreFailures : Prop :=
  (∀ s : State, ∃ t, exec .coreStatusProbe s = .next t ∧ t = { s with cores := t.cores } ∧
    ∀ c k, (c, k) ∈ s.cores → (c, { k with probed := k.tenant.isSome && !k.fenced }) ∈ t.cores) ∧
  (∀ (s : State) (c : Nat), c < 352 → (coreOf s c).fenced = false → s.grid.retired.contains c = false →
    ((coreOf s c).probed = true →
      ∃ t, exec (.coreProbeTimeout c) s = .next t ∧ (coreOf t c).fenced = true ∧ (coreOf t c).running = none ∧
        ((coreOf t c).fill = some .draining ∨ (coreOf t c).fill = some .queued) ∧ t.mem = s.mem) ∧
    (∀ (d1 d2 d3 d4 : Nat) (l : List Nat), (coreOf s c).lasting = d1 :: d2 :: d3 :: d4 :: l → d1 < d4 + 3600000000000 →
      ∃ t, exec (.coreFailure c) s = .next t ∧ (coreOf t c).fenced = true ∧ (coreOf t c).running = none ∧ t.mem = s.mem) ∧
    ((coreOf s c).lasting.length < 4 → exec (.coreFailure c) s = .next s)) ∧
  (∀ (s : State) (c x y : Nat), (coreOf s c).fill = some .draining → (coreOf s c).engOpen = [] → s.grid.fallow = [(x, y)] →
    usable s (x, y) = true → foldAt x y = foldOf s c →
    ∃ t, exec (.fenceDrainComplete c) s = .next t ∧ (coreOf t c).fill = some (.testing x y) ∧
      t.sigs = s.sigs.filter (fun g => g.core != c) ∧ t.mem = s.mem) ∧
  (∀ (s : State) (c x y : Nat), (coreOf s c).fill = some (.testing x y) →
    (∃ t, exec (.fallowSelfTestComplete c true) s = .next t ∧ placeOf t c = (x, y) ∧ t.grid.fallow = s.grid.fallow.erase (x, y) ∧
      t.grid.bad = s.grid.bad ++ [placeOf s c] ∧ t.grid.mapVersion = s.grid.mapVersion + 2 ∧ (coreOf t c).fenced = false) ∧
    (s.grid.fallow = [(x, y)] →
      ∃ t, exec (.fallowSelfTestComplete c false) s = .next t ∧ t.grid.retired = s.grid.retired ++ [c] ∧ t.grid.fallow = [] ∧
        (coreOf t c).tenant = none ∧ (coreOf t c).fenced = true)) ∧
  (∀ (s : State) (k : Nat), k < 8 → s.drover.outOfService = false →
    (∀ why : StackEnd, (why = .errors → stackErrors s k = true) → (why = .retired → stackRetired s k = true) →
      ∃ t, exec (.nearStackUnusable k why) s = .next t ∧ t.drover.outOfService = true ∧ (∀ c n, stCtx t c n = {}) ∧ t.mem = s.mem) ∧
    (stackErrors s k = false → exec (.nearStackUnusable k .errors) s = .next s) ∧
    (stackRetired s k = false → exec (.nearStackUnusable k .retired) s = .next s))

/-- R266, R268, R269: a touch of a page that is not resident starts its page-in, or abandons its eviction; a page-in that ends makes
the leaf resident with ACC and DIRTY clear, its bytes those of the backing copy or zero; one whose backing copy fails makes the page
BROKEN. Stated with no other page in motion. -/
def Obligations.PageIns : Prop := ∀ (s : State) (tn : Nat) (va : Word64) (l : Leaf),
  let page := va.toNat / 2097152
  leafOf s tn va.toNat = some (l, false) → pteV l.pte = true → pteRes l.pte = false → pteBroken l.pte = 0 → ptePaged l.pte = true →
  uangoAway s = false →
  (s.jobsPg = [] →
    ∃ t j, exec (.pageFault tn va) s = .next t ∧ t.jobsPg = [j] ∧ j.tenant = tn ∧ j.va = page * 2097152 ∧
      (j.work = .queued ∨ ∃ f, j.work = .copying f)) ∧
  (∀ (j : PageJob) (f : Nat), s.jobsPg = [j] → j.tenant = tn → j.va = page * 2097152 → f < 2097152 →
    (j.work = .evicting f ∨ j.work = .writing f → Memory.wf s.mem = true →
      ∃ t m, exec (.pageFault tn va) s = .next t ∧ t.jobsPg = [] ∧ leafOf t tn va.toNat = some (m, false) ∧ pteRes m.pte = true ∧
        pteAddr m.pte = f * 2097152 ∧ pteAcc m.pte = true ∧ pteDirty m.pte = true ∧
        (j.work = .evicting f → t.mem = s.mem) ∧
        ∀ a, (∀ b, l.backing = some b → a < b * 2097152 ∨ (b + 1) * 2097152 ≤ a) → byteAt t.mem a = byteAt s.mem a) ∧
    (j.work = .copying f → (look ({} : Frame) s.frames f).rot = false → (∀ b ∈ s.hostWait, b.tenant ≠ tn) →
      (l.backing = none ∨ l.backWritten = false →
        ∀ err, ∃ t m, exec (.pageInCopyComplete tn va err) s = .next t ∧ t.jobsPg = [] ∧ leafOf t tn va.toNat = some (m, false) ∧
          pteRes m.pte = true ∧ pteAddr m.pte = f * 2097152 ∧ pteAcc m.pte = false ∧ pteDirty m.pte = false ∧
          (∀ a, byteAt t.mem a = if f * 2097152 ≤ a ∧ a < (f + 1) * 2097152 then 0 else byteAt s.mem a)) ∧
      (∀ b, l.backing = some b → l.backWritten = true → b ≠ f → Memory.wf s.mem = true →
        (backingError s b = none →
          ∃ t m, exec (.pageInCopyComplete tn va none) s = .next t ∧ t.jobsPg = [] ∧ leafOf t tn va.toNat = some (m, false) ∧
            pteRes m.pte = true ∧ pteAddr m.pte = f * 2097152 ∧ pteAcc m.pte = false ∧ pteDirty m.pte = false ∧
            (∀ i, i < 2097152 → byteAt t.mem (f * 2097152 + i) = byteAt s.mem (b * 2097152 + i))) ∧
        ∃ t m, exec (.pageInCopyComplete tn va (some .memError)) s = .next t ∧ t.jobsPg = [] ∧
          leafOf t tn va.toNat = some (m, false) ∧ pteRes m.pte = false ∧ pteBroken m.pte = 1 ∧ t.mem = s.mem)))

/-- R266 to R268, R278: where a page-in waits and no frame is free a page goes: the victim is the oldest page-in whose ACC is clear, if there is one; its RES is cleared and its invalidation goes
out; once acknowledged a dirty page is written back to its backing copy and a clean one leaves at once; every 10 ms ACC is cleared
on the paged pages of a tenant that evicted. R273, R280: a prefetch fill makes the bytes that the line awaits of it valid; a relocation counts as
media writes. -/
def Obligations.EvictionsAndFills : Prop :=
  (∀ (s : State) (tn st va : Nat) (mid : Bool) (l : Leaf), victim s tn (b2n mid) st = some (va, l) →
    ∀ e ∈ (tenantOf s tn).small, ptePaged e.2.pte = true → pteRes e.2.pte = true → ptePin e.2.pte = false →
      samePool (b2n mid) st (e.1 * 2097152) e.2 1 = true → pteAcc e.2.pte = false → pteAcc l.pte = false ∧ l.inAge ≤ e.2.inAge) ∧
  (∀ (s : State) (tn stack va : Nat) (mid : Bool) (l l0 : Leaf) (bg : Bool) (j : PageJob),
    let st := if mid then 0 else stack % 8
    s.jobsPg = [j] → j.tenant = tn → j.work = .queued → leafOf s tn j.va = some (l0, bg) → samePool (b2n mid) st j.va l0 1 = true →
    frameFor s tn j.va l0 = none → victim s tn (b2n mid) st = some (va, l) → (look ({} : Frame) s.frames (frameNo (pteAddr l.pte))).rot = false →
    ∃ t v e, exec (.evictionStart tn mid stack) s = .next t ∧ leafOf t tn va = some ({ l with pte := setField l.pte 5 1 0 }, false) ∧
      t.invals = s.invals ++ [v] ∧ v.va = va ∧ v.tenant = tn ∧ v.len = 2097152 ∧ t.jobsPg = [j, e] ∧ e.va = va ∧ e.tenant = tn ∧
      e.work = .evicting (frameNo (pteAddr l.pte)) ∧ t.mem = s.mem) ∧
  (∀ (s : State) (tn : Nat) (va : Word64) (l : Leaf) (j : PageJob) (f : Nat), leafOf s tn va.toNat = some (l, false) →
    s.jobsPg = [j] → j.tenant = tn → j.va = va.toNat / 2097152 * 2097152 →
    (j.work = .evicting f → (∀ v ∈ s.invals, v.id ≠ j.invId) →
      ∃ t, exec (.evictionAcksReceived tn va) s = .next t ∧ t.mem = s.mem ∧
        (pteDirty l.pte = true → t.jobsPg = [{ j with work := .writing f, invId := 0 }]) ∧
        (pteDirty l.pte = false → t.jobsPg = [] ∧
          ((look ({} : Frame) s.frames f).recorded = true → f < 524288 → (look ({} : Frame) t.frames f).retired = true))) ∧
    (∀ b, j.work = .writing f → l.backing = some b → s.power.farWait = false → s.far.readOnly = false → b ≠ f →
      stateError s (f * 2097152) 2097152 = none → Memory.wf s.mem = true →
      ∃ t m, exec (.evictionWritebackDone tn va none) s = .next t ∧ t.jobsPg = [] ∧ leafOf t tn va.toNat = some (m, false) ∧
        m.backWritten = true ∧ pteDirty m.pte = false ∧ t.far.media = satAdd s.far.media 2097152 ∧
        ∀ i, i < 2097152 → byteAt t.mem (b * 2097152 + i) = byteAt s.mem (f * 2097152 + i))) ∧
  (∀ (s : State) (tn : Nat) (x : Tenant), s.tenants = [(tn, x)] → x.evicted = true →
    ∃ t, exec .accClearTick s = .next t ∧ t.mem = s.mem ∧ (tenantOf t tn).evicted = false ∧
      ∀ va m, leafOf t tn va = some (m, false) → ptePaged m.pte = true → pteAcc m.pte = false) ∧
  (∀ (s : State) (r : MemReq) (l : PfLine) (mk : Half) (b : List Byte) (pa n : Nat), s.reqs = [r] → isPrefetch r.who = true → r.segs = [(pa, n)] →
    (coreOf s r.core).pf = [l] → awaited l r.id = some mk →
    (r.st = .done b →
      ∃ t m, exec (.prefetchFill r.id) s = .next t ∧ t.reqs = [] ∧ (coreOf t r.core).pf = [m] ∧ t.mem = s.mem ∧
        m.valid = (l.valid ||| mk) ∧ m.awaitMask = (l.awaitMask &&& ~~~mk) ∧
        m.data = fillData mk (pa % 1024) b l.data ∧ m.await = l.await.filter (fun e => e.1 != r.id)) ∧
    (∀ c, r.st = .failed c →
      ∃ t m, exec (.prefetchFill r.id) s = .next t ∧ t.reqs = [] ∧ (coreOf t r.core).pf = [m] ∧ m.valid = l.valid)) ∧
  (∀ (s : State) (n : Nat) (sp : Bool),
    ∃ t, exec (.farRelocation n sp) s = .next t ∧ t.far.media = satAdd s.far.media n ∧ t.far.spare = s.far.spare - b2n sp ∧
      t.far.readOnly = (s.far.readOnly || decide (s.far.spare - b2n sp < 100)) ∧ t.mem = s.mem)

/-! ## The DMA engines (15) -/

/-- R320, R324, R326, R328: a running channel with no work reads its next descriptor: OWN = 0 starves it, one that fails a static check
gets that cause and moves nothing, one that passes is carried out; a failed ring read stops the channel. The next channel with
work issues one burst, cut at the destination's multiples of 1,024 bytes and at page boundaries. -/
def Obligations.DescriptorsStart : Prop :=
  (∀ (s : State) (c pa : Nat),
    let d := dmaOf s c
    let va := d.ringVa.toNat + d.ci.toNat % 2 ^ d.ringLog2.toNat * 64
    d.held = true → d.st = .run → d.aborting = false → d.work = [] → d.ci ≠ d.pi → d.waitFrom = none →
    spot s d.tenant.toNat va 0 = .ok pa →
    (∀ (u : State) (b : List Byte), vaRead s d.tenant.toNat va 64 .clean = (u, .ok b) →
      let w := BitVec.ofNat 512 (ofBytes b)
      (dOwn w = false →
        ∃ t, exec (.dmaDescriptorFetch c none) s = .next t ∧ dmaOf t c = { d with st := .starved, counters := bump d.counters 6 1 }) ∧
      (dOwn w = true → (dLen w = 0 ∨ field w 203 308 ≠ 0 ∨ dRmode w = 3) →
        ∃ t x, exec (.dmaDescriptorFetch c none) s = .next t ∧ dmaOf t c = { d with work := [x] } ∧ x.index = d.ci ∧
          x.status = some (BitVec.ofNat 8 (causeCode .bounds)) ∧ x.residue = dLen w ∧ x.bursts = [] ∧ t.mem = u.mem) ∧
      (dOwn w = true → staticCheck w w = none → rangeCheck u d.tenant.toNat w = none → stripCheck u d.tenant.toNat w = .ok →
        dRmode w = 0 →
        ∃ t x, exec (.dmaDescriptorFetch c none) s = .next t ∧ dmaOf t c = { d with work := [x] } ∧ x.index = d.ci ∧ x.word = w ∧
          x.status = none ∧ x.issued = 0 ∧ x.bursts = [] ∧ t.mem = u.mem)) ∧
    (d.err = 0 → d.counts = [] →
      ∃ t, exec (.dmaDescriptorFetch c (some .memError)) s = .next t ∧ (dmaOf t c).st = .stopped ∧
        (dmaOf t c).err = BitVec.ofNat 8 (causeCode .memError) ∧ (dmaOf t c).work = [] ∧ t.mem = s.mem)) ∧
  (∀ (s : State) (e c : Nat) (x : DmaCur) (pa : Nat), c / 8 = e → issuing s c = some x → isTile x.word = false → dRmode x.word = 0 →
    (∀ k, k < 8 → 8 * e + k ≠ c → issuing s (8 * e + k) = none) →
    let d := dmaOf s c
    let sv := dSrc x.word + x.issued
    let dv := dDst x.word + x.issued
    vaFar s d.tenant.toNat sv = false → vaFar s d.tenant.toNat dv = false → d.waitFrom = none →
    burstSpot s d.tenant.toNat x.word sv (burstPlan s d.tenant.toNat x).1 (burstPlan s d.tenant.toNat x).2.2 = .ok pa →
    ∃ t b y, exec (.dmaBurstIssue e) s = .next t ∧ (dmaOf t c).work.getLast? = some y ∧ y.bursts = x.bursts ++ [b] ∧
      b.off = x.issued ∧ b.st = .reading ∧ y.issued = x.issued + b.len ∧ look 7 t.dmaLast e = c % 8 ∧
      b.len = min (dLen x.word - x.issued) (min (1024 - dv % 1024) (min (2097152 - sv % 2097152) (2097152 - dv % 2097152))) ∧
      t.mem = s.mem)

/-- R331, R336: the data of a burst's read is what it will write, and counts as bytes read; its write makes it performed and counts
as bytes written; an error of either fails the burst with its cause at its address, but of a completed descriptor's write is a late
error. R330: the far module's answer lets the first burst go, or ends the
descriptor. -/
def Obligations.BurstsMove : Prop := ∀ (s : State) (c n : Nat) (x : DmaCur) (b : Burst),
  let d := dmaOf s c
  let va := dSrc x.word + b.off
  let dv := dDst x.word + b.off
  (findBurst d n = some (x, b) → isTile x.word = false → dRmode x.word = 0 → d.waitFrom = none →
    (∀ pa out, b.st = .reading → spot s d.tenant.toNat va 0 = .ok pa → canPost s c x.word b = true →
      (∀ u bs, vaRead s d.tenant.toNat va b.len out = (u, .ok bs) →
        ∃ t y, exec (.dmaReadReturn c n out) s = .next t ∧ findBurst (dmaOf t c) n = some (y, { b with bytes := bs, st := .writing, wport := writePort s d.tenant.toNat x.word b }) ∧
          look 0 (dmaOf t c).counters 0 = satAdd (look 0 d.counters 0) b.len ∧ t.mem = u.mem) ∧
      (∀ u e, vaRead s d.tenant.toNat va b.len out = (u, .err e) →
        ∃ t y, exec (.dmaReadReturn c n out) s = .next t ∧ findBurst (dmaOf t c) n = some (y, { b with st := .failed e, addr := va }) ∧ t.mem = u.mem)) ∧
    (∀ pa out, b.st = .writing → spot s d.tenant.toNat dv 1 = .ok pa → snapshotHeld s d.tenant.toNat dv = false →
      (∀ u, vaWrite s d.tenant.toNat dv b.bytes out = (u, none) →
        ∃ t y, exec (.dmaWriteResponse c n out) s = .next t ∧ findBurst (dmaOf t c) n = some (y, { b with st := .performed }) ∧
          look 0 (dmaOf t c).counters 1 = satAdd (look 0 d.counters 1) b.bytes.length ∧ t.mem = u.mem) ∧
      (∀ u e, vaWrite s d.tenant.toNat dv b.bytes out = (u, some e) →
        (x.status = none → ∃ t y, exec (.dmaWriteResponse c n out) s = .next t ∧
          findBurst (dmaOf t c) n = some (y, { b with st := .failed e, addr := dv }) ∧ t.mem = u.mem) ∧
        (x.status ≠ none → ∃ t y, exec (.dmaWriteResponse c n out) s = .next t ∧
          findBurst (dmaOf t c) n = some (y, { b with st := .performed }) ∧
          look 0 (dmaOf t c).counters 8 = satAdd (look 0 d.counters 8) 1 ∧ t.mem = u.mem)))) ∧
  (d.work = [x] → x.checked = false → x.status = none →
    (∃ t y, exec (.dmaFarCheckAnswer c none) s = .next t ∧ dmaOf t c = { d with work := [y] } ∧ y = { x with checked := true }) ∧
    ∀ e, ∃ t y, exec (.dmaFarCheckAnswer c (some e)) s = .next t ∧ dmaOf t c = { d with work := [y] } ∧
      y.status = some (BitVec.ofNat 8 (causeCode e)) ∧ y.residue = dLen x.word ∧ y.checked = true)

/-- R331, R333, R336 to R338: a descriptor whose bursts have all been performed completes with no residue; one whose burst failed ends
with that cause and what lies beyond its longest performed prefix as residue; its record clears its OWN, counts it and passes CI; an
abort ends it with ABORTED; a drained pause is PAUSED; a late write error is counted. Posted writes of a descriptor that goes run on. -/
def Obligations.DescriptorsEnd : Prop := ∀ (s : State) (c : Nat) (x : DmaCur),
  let d := dmaOf s c
  (d.work = [x] → x.status = none →
    (d.st ≠ .paused → (∀ b ∈ x.bursts, b.st = .performed) → x.checked = true → x.issued = dLen x.word →
      ∃ t y, exec (.dmaDescriptorComplete c) s = .next t ∧ dmaOf t c = { d with work := [y], ci := x.index + 1 } ∧ y.status = some 0 ∧
        y.residue = 0 ∧ y.stamp = copyOf s 6 ∧ t = { s with dma := t.dma }) ∧
    (∀ e, d.st ≠ .paused → failCause x = some e → (∀ b ∈ x.bursts, burstEnded b = true) →
      (∃ t y, exec (.dmaDescriptorComplete c) s = .next t ∧ (dmaOf t c).work = [y] ∧ t = { s with dma := t.dma } ∧
        y.status = some (BitVec.ofNat 8 (causeCode e)) ∧ y.residue = dLen x.word - doneBytes x)) ∧
    (d.st ≠ .stopped → (∀ b ∈ x.bursts, b.st = .performed) → d.aborting = true →
      ∃ t y, exec (.dmaAbortDrained c) s = .next t ∧ (dmaOf t c).work = [y] ∧ y.status = some 0x50 ∧
        y.residue = dLen x.word - doneBytes x ∧ t = { s with dma := t.dma })) ∧
  (∀ (pa : Nat) (u : State), d.work = [x] → x.status = some 0 → dSe x.word = false → dIrq x.word = false → d.counts = [] →
    d.st = .run → x.index + 1 = d.pi →
    spot s d.tenant.toNat (d.cmplVa.toNat + x.index.toNat % 2 ^ d.ringLog2.toNat * 32) 1 = .ok pa →
    spot s d.tenant.toNat (d.ringVa.toNat + x.index.toNat % 2 ^ d.ringLog2.toNat * 64 + 63) 1 ≠ .wait →
    vaWrite s d.tenant.toNat (d.cmplVa.toNat + x.index.toNat % 2 ^ d.ringLog2.toNat * 32) (toBytes 32 (recordWord d x)) .clean = (u, none) →
    ∃ t, exec (.dmaRecordWritten c none) s = .next t ∧ (dmaOf t c).work = [] ∧ (dmaOf t c).ci = x.index + 1 ∧
      (dmaOf t c).st = .idle ∧ look 0 (dmaOf t c).counters 2 = satAdd (look 0 d.counters 2) 1 ∧ (dmaOf t c).crc = descCrc d x ∧
      (dmaOf t c).late = d.late ++ posted d ∧
      (∀ pb, spot u d.tenant.toNat (d.ringVa.toNat + x.index.toNat % 2 ^ d.ringLog2.toNat * 64 + 63) 1 = .ok pb →
        t.mem = (vaWrite u d.tenant.toNat (d.ringVa.toNat + x.index.toNat % 2 ^ d.ringLog2.toNat * 64 + 63)
          [BitVec.ofNat 8 (field x.word 504 7)] .clean).1.mem)) ∧
  (∀ pa, d.work = [x] → x.status = some 0 → d.err = 0 → d.st ≠ .paused →
    spot s d.tenant.toNat (d.cmplVa.toNat + x.index.toNat % 2 ^ d.ringLog2.toNat * 32) 1 = .ok pa →
    spot s d.tenant.toNat (d.ringVa.toNat + x.index.toNat % 2 ^ d.ringLog2.toNat * 64 + 63) 1 ≠ .wait →
    ∃ t, exec (.dmaRecordWritten c (some .memError)) s = .next t ∧ (dmaOf t c).st = .stopped ∧
      (dmaOf t c).err = BitVec.ofNat 8 (causeCode .memError) ∧ (dmaOf t c).ci = x.index ∧ (dmaOf t c).work = [] ∧
      (dmaOf t c).late = d.late ++ posted d ∧ t.mem = s.mem) ∧
  (d.work = [] → d.st ≠ .stopped → d.aborting = true → d.resetAfter = false → d.releaseAfter = false → d.err = 0 →
    ∃ t, exec (.dmaAbortDrained c) s = .next t ∧ (dmaOf t c).st = .stopped ∧ (dmaOf t c).err = 0x50 ∧ (dmaOf t c).aborting = false ∧
      look 0 (dmaOf t c).counters 4 = satAdd (look 0 d.counters 4) 1 ∧ t.mem = s.mem) ∧
  (d.st = .pausing → d.aborting = false → d.late = [] → (∀ y ∈ d.work, y.status = none ∧ ∀ b ∈ y.bursts, b.st = .performed) →
    ∃ t, exec (.dmaPauseDrained c) s = .next t ∧ (dmaOf t c).st = .paused ∧ (dmaOf t c).work = d.work ∧
      look 0 (dmaOf t c).counters 5 = satAdd (look 0 d.counters 5) 1 ∧ t.mem = s.mem) ∧
  (∀ (i : Half) (w : BitVec 512) (b : Burst) (e : Cause), d.late = [(i, w, b)] → dRmode w = 1 →
    ∃ t, exec (.dmaLateWriteError c b.idx e) s = .next t ∧ (dmaOf t c).late = [] ∧
      look 0 (dmaOf t c).counters 8 = satAdd (look 0 d.counters 8) 1 ∧ t.mem = s.mem)

/-! ## The Gleaners (09 to 11) -/

/-- R174, R185: the blocks that a block fetch picks of its rows are the stored ones whose column its map marks, each with its stored
tile's number in row-major order. R241: Floyd's method draws distinct positions of the row. -/
def Obligations.BlocksAndDraws : Prop :=
  (∀ (bc : Nat) (rows : List (Nat × Nat × Nat)) (p : Nat → Bool) (i j k : Nat),
    (i, j, k) ∈ pickBlocks bc rows p ↔
      ∃ bits a, (i, bits, a) ∈ rows ∧ j < bc ∧ bits.testBit j = true ∧ p j = true ∧ k = a + popCount j (bits % 2 ^ j)) ∧
  (∀ (dr : Nat → Nat) (d f : Nat), f ≤ d → (∀ i, dr i < 2 ^ 32) →
    (floyd dr d f).length = f ∧ (floyd dr d f).Nodup ∧ ∀ x ∈ floyd dr d f, x < d)

/-- R212 to R214: a Gleaner starts its oldest command, which it reads whole: one with a reserved code ends with BOUNDS and no
address, one that fails a check ends with that check's cause and address, one of whose reads the hardware ended ends with the cause
and address of that read, one that passes runs. R230: the owner adds a block of its shard
into the gradient region in int32, or marks it as poison. R226: a version is freed once a later one is current and nothing pins it, which the other modules of the table
must have reported (log entry 164).
R221, R246: the owner answers a request on the channel it came by. -/
def Obligations.GleanerRequests : Prop :=
  (∀ (s : State) (f : Nat) (g : GCmd), (glnOf s f).cmds = [g] → g.started = false → g.status = none →
    (∀ hd, gRead s g.tenant g.va.toNat 64 = .ok hd → bodyUnits (gCode (BitVec.ofNat 512 (ofBytes hd))) = none →
      ∀ soft, ∃ t, exec (.gleanerCommandStart f none soft) s = .next (noteSoft g.tenant soft t) ∧ (glnOf t f).cmds =
        [{ g with started := true, bytes := hd, status := some (some .bounds), faultAddr := 0, counts := [], adds := [], blocks := [] }] ∧
        t.mem = s.mem) ∧
    (∀ bytes c va, readCmd s g = .ok (bytes, some (c, va)) →
      ∀ soft, ∃ t, exec (.gleanerCommandStart f none soft) s = .next (noteSoft g.tenant soft t) ∧ (glnOf t f).cmds =
        [{ g with started := true, bytes := bytes, status := some (some c), faultAddr := BitVec.ofNat 64 va, counts := [], adds := [],
                  blocks := [] }] ∧ t.mem = s.mem) ∧
    (∀ bytes, readCmd s g = .ok (bytes, none) →
      ∀ soft, ∃ t h, exec (.gleanerCommandStart f none soft) s = .next (noteSoft g.tenant soft t) ∧ (glnOf t f).cmds = [h] ∧ h.started = true ∧ h.bytes = bytes ∧ h.status = none ∧
        t.mem = s.mem) ∧
    (∀ bytes r e, readCmd s g = .ok (bytes, r) → inRange g.va.toNat 64 e.2.toNat = false →
      ∀ soft, ∃ t, exec (.gleanerCommandStart f (some e) soft) s = .next (noteSoft g.tenant soft t) ∧ (glnOf t f).cmds =
        [{ g with started := true, bytes := bytes, status := some (some e.1), faultAddr := e.2, counts := [], adds := [],
                  blocks := [] }] ∧ t.mem = s.mem)) ∧
  (∀ (s : State) (f tn n row blk : Nat) (elems : List Int) (x : Table) (p : Bool), tableOf s tn n = some x → x.train = true →
    (shardOf x row).2.2.1 = s.fabric.modid → (shardOf x row).2.2.2.1 = f → row < x.nrows → 32 * blk < tableDim x → blk < 128 →
    ∃ t y, exec (.scatterBlockAdd f tn n row blk elems p) s = .next t ∧ tableOf t tn n = some y ∧ t.mem = s.mem ∧
      (p = false → y.poison = x.poison ∧ ∀ i, i < 32 → look 0 y.grad (row * 4096 + blk * 32 + i) =
        signed 32 (lowBits 32 (look 0 x.grad (row * 4096 + blk * 32 + i) + elems.getD i 0))) ∧
      (p = true → look false y.poison (row * 128 + blk) = true) ∧
      (look [] y.touched (shardOf x row).1).contains (row - (shardOf x row).2.1) = true) ∧
  (∀ (s : State) (tn n v : Nat) (x : Table), tableOf s tn n = some x → v < 65536 → x.current = v + 1 →
    (pinned s tn n (some v) = false →
      ∃ t y, exec (.tableVersionFree tn n v true) s = .next t ∧ tableOf t tn n = some y ∧ versionOf y v = none ∧
        (∀ w, w ≠ v → versionOf y w = versionOf x w) ∧ t.mem = s.mem) ∧
    (pinned s tn n (some v) = true → ∀ others, exec (.tableVersionFree tn n v others) s = .next s) ∧
    (otherModules s ≠ [] → exec (.tableVersionFree tn n v false) s = .next s)) ∧
  (∀ (s : State) (f tn n v row c : Nat) (x : Table) (ps : List (List Byte × List Byte)), chanHeld s tn c = true →
    (chanOf s c).cfg.gln = true → tableOf s tn n = some x → (shardOf x row).2.2.1 = s.fabric.modid → (shardOf x row).2.2.2.1 = f →
    ownRow s tn x v row = .ok ps →
    ∃ t, exec (.lookupRowRequest f tn n v row c) s = .next t ∧ (chanOf t c).txSeq = (chanOf s c).txSeq + 1 ∧ t.mem = s.mem) ∧
  (∀ (s : State) (f tn st hop fan node fst nl nn c : Nat) (key step rv cv wv : Word64) (wt idw : Bool), f < 48 → chanHeld s tn c = true →
    (chanOf s c).cfg.gln = true → node < fst →
    ∃ t, exec (.sampleExpansionRequest f tn key step st hop wt fan node fst nl nn idw rv cv wv c) s = .next t ∧
      (chanOf t c).txSeq = (chanOf s c).txSeq + 1 ∧ t.mem = s.mem) ∧
  (∀ (s : State) (f tn st hop fan node fst nl nn c : Nat) (key step rv cv wv : Word64) (wt idw : Bool) (y : Expanded), f < 48 →
    chanHeld s tn c = true → (chanOf s c).cfg.gln = true → fst ≤ node → node < fst + nl →
    expand s tn ⟨nn, idw, wt, [⟨fst, s.fabric.modid, f, rv.toNat, cv.toNat, wv.toNat⟩]⟩ ⟨fst, s.fabric.modid, f, rv.toNat, cv.toNat, wv.toNat⟩
      (node - fst) fan wt (nodeDraw key step st node hop) = .ok y →
    ∃ t, exec (.sampleExpansionRequest f tn key step st hop wt fan node fst nl nn idw rv cv wv c) s = .next t ∧
      (chanOf t c).txSeq = (chanOf s c).txSeq + 1 ∧ t.mem = s.mem)

/-- R185, R186, R222, R229, R243: a command whose data can be read and whose regions are resident writes what it computed, its header
last, and ends with success; the corrected and transient errors of its reads are counted beside that (R277). R216: one that meets a failing access ends with its cause. R215, R169: a command that has ended writes its
record, leaves its Fold, and sends its signal. -/
def Obligations.GleanerCommands : Prop := ∀ (s : State) (f id : Nat) (g : GCmd),
  (∀ (m : Spm) (l : List (Nat × Nat × Nat)) (outs : List (Nat × List Byte)) (u v : State), runningCmd s f id 1 = some g →
    bfMode (gBody g) = 0 → predicted s g.tenant (gBody g) = .ok (m, l) →
    upToStop ((slotted 0 l).map (copyPieces s g.tenant (gBody g) m false)) = (outs, none) →
    outsReady s g.tenant ((bfList (gBody g), toBytes 16 l.length) :: outs) = true → writeTurn g.tenant outs s = (u, none) →
    vaWrite u g.tenant (bfList (gBody g)) (toBytes 16 l.length) .clean = (v, none) →
    ∀ soft, ∃ t, exec (.blockFetchPredict f id none soft) s = .next (noteSoft g.tenant soft t) ∧ t.mem = v.mem ∧
      findCmd t f id = some { g with status := some none, counts := [0, 0, 0, 0, 0], adds := [(0, l.length), (5, 1)] }) ∧
  (∀ (c : Cause) (va : Nat), runningCmd s f id 1 = some g → bfMode (gBody g) = 0 → predicted s g.tenant (gBody g) = .error (.bad c va) →
    ∀ soft, ∃ t h, exec (.blockFetchPredict f id none soft) s = .next (noteSoft g.tenant soft t) ∧ t.mem = s.mem ∧ findCmd t f id = some h ∧ h.status = some (some c) ∧
      h.faultAddr = BitVec.ofNat 64 va ∧ h.adds = []) ∧
  (∀ (m : Spm) (n : Nat) (miss extra : List (Nat × Nat × Nat)) (outs drops : List (Nat × List Byte)) (u v : State),
    runningCmd s f id 1 = some g → bfMode (gBody g) = 1 → resolved s g.tenant (gBody g) = .ok (m, n, miss, extra) →
    dropPieces s g.tenant (gBody g) n extra = .ok drops →
    upToStop ((slotted n miss).map (copyPieces s g.tenant (gBody g) m true)) = (outs, none) →
    let head := toBytes 16 (n + 2 ^ 32 * miss.length + 2 ^ 64 * extra.length)
    outsReady s g.tenant ((bfList (gBody g), head) :: outs ++ drops) = true → writeTurn g.tenant (outs ++ drops) s = (u, none) →
    vaWrite u g.tenant (bfList (gBody g)) head .clean = (v, none) →
    ∀ soft, ∃ t h, exec (.blockFetchResolve f id none soft) s = .next (noteSoft g.tenant soft t) ∧ t.mem = v.mem ∧ findCmd t f id = some h ∧ h.status = some none ∧
      h.adds = [(1, n - extra.length), (2, miss.length), (3, extra.length), (4, if miss.isEmpty then 0 else 1), (5, 1)]) ∧
  (∀ (x : Table) (p : LkPlan) (remote outs : List (Nat × List Byte)) (u v : State), runningCmd s f id 2 = some g →
    tableOf s g.tenant (lkTable (gBody g)) = some x →
    lkPlan s g.tenant (gBody g) ((versionOf x g.version.toNat).map (·.nrows) |>.getD x.nrows) = .ok p →
    let got := p.slots.map (fun w => lkFetch s g.tenant x g.version.toNat remote w.1)
    runNeeds g.asked (lkFar s x p) (lkNeeds got) (runRows x (gBody g) p) = none → lkPath (gBody g) = 0 →
    lkOuts x (gBody g) ((List.range (lkRows (gBody g))).map fun k => (k, lkRow s g.tenant x (gBody g) p got k)) = (outs, none) →
    outsReady s g.tenant (outs.getLastD (lkOut (gBody g), []) :: outs) = true →
    let own := (runRows x (gBody g) p).flatten.filter (fun r => (shardOf x r).2.2.1 == s.fabric.modid)
    writeTurn g.tenant outs (serveRows s g.tenant (lkTable (gBody g)) own) = (u, none) →
    vaWrite u g.tenant (outs.getLastD (lkOut (gBody g), [])).1 (outs.getLastD (lkOut (gBody g), [])).2 .clean = (v, none) →
    ∀ soft, ∃ t h, exec (.lookup f id remote none soft) s = .next (noteSoft g.tenant soft t) ∧ t.mem = v.mem ∧ findCmd t f id = some h ∧ h.status = some none ∧
      h.counts.take 4 = [p.valid.length, p.idx.length - p.valid.length - (p.idx.filter (· == padIndex)).length,
        (p.idx.filter (· == padIndex)).length, p.slots.length]) ∧
  (∀ (x : Table) (p : LkPlan) (remote : List (Nat × List Byte)) (needs : List (Nat × Nat × Nat)), runningCmd s f id 2 = some g →
    tableOf s g.tenant (lkTable (gBody g)) = some x →
    lkPlan s g.tenant (gBody g) ((versionOf x g.version.toNat).map (·.nrows) |>.getD x.nrows) = .ok p →
    runNeeds g.asked (lkFar s x p) (lkNeeds (p.slots.map fun w => lkFetch s g.tenant x g.version.toNat remote w.1))
      (runRows x (gBody g) p) = some needs →
    ∀ soft, ∃ t h, exec (.lookup f id remote none soft) s = .next (noteSoft g.tenant soft t) ∧ findCmd t f id = some h ∧ h.status = none ∧ t.mem = s.mem ∧
      ∀ e ∈ needs, (e.1, e.2.2) ∈ h.asked) ∧
  (∀ (x : Table) (slots : List (Except GStop (Nat × List (List Int × Bool)))) (l : List (Nat × List (List Int × Bool))) (merged : Nat),
    runningCmd s f id 3 = some g → tableOf s g.tenant (scTable (gBody g)) = some x →
    scPlan s g.tenant x (gBody g) g.aexp = .ok (slots, merged) → okSlots slots = (l, none) →
    ∀ soft, ∃ t h, exec (.scatter f id none soft) s = .next (noteSoft g.tenant soft t) ∧ findCmd t f id = some h ∧ h.status = some none ∧
      h.counts.getD 0 0 = l.foldl (fun n e => n + e.2.length) 0 ∧ h.counts.getD 2 0 = merged ∧ t.mem = s.mem) ∧
  (∀ (gr : Graph) (r : List (List Nat × List Expanded) × List Nat) (remote : List FarAnswer) (u v : State), runningCmd s f id 4 = some g →
    readGraph s g.tenant (smGraph (gBody g)) = .ok gr → sampleOf s g.tenant (gBody g) gr remote = .ok r →
    let outs := layOut (smOut (gBody g) + 64) (sampleSections (gBody g) r)
    outsReady s g.tenant ((smOut (gBody g), sampleHead (gBody g) r) :: outs) = true → writeTurn g.tenant outs s = (u, none) →
    vaWrite u g.tenant (smOut (gBody g)) (sampleHead (gBody g) r) .clean = (v, none) →
    ∀ soft, ∃ t h, exec (.sample f id remote none soft) s = .next (noteSoft g.tenant soft t) ∧ t.mem = v.mem ∧ findCmd t f id = some h ∧ h.status = some none ∧
      h.counts.take 2 = [(nodeList r).length, r.1.foldl (fun n k => n + edgeCount k) 0]) ∧
  (∀ (pa : Nat) (u : State), findCmd s f id = some g → g.status.isSome = true → g.blocks = [] → complSpot s g = .ok pa →
    vaWrite s g.tenant (gCompl (gHead g)) (complRecord g) .clean = (u, none) →
    ∀ acked, ∃ t, exec (.gleanerCompletion f id acked) s = .next t ∧ t.mem = u.mem ∧ findCmd t f id = none ∧
      t.sigs = s.sigs ++ (if g.se then [{ core := g.core, sem := g.sem, cnt := 1 }] else []) ∧ ∀ e ∈ (coreOf t g.core).engOpen, e.2.2 ≠ gsubRef id)

/-! ## Training (08) and epochs (19) -/

/-- R200, R203, R204: the vote sum sets the poison mask group by group and moves each scale record: a poisoned group backs off, a group
of an applied step counts toward its growth, a skipped step leaves the others; a poisoned block of the sum sets the 32 bits of its
groups (log entry 99). The close of a step counts it, and counts it as applied
where its mask is 0. R447: a job with a rank on a module that is lost stops. -/
def Obligations.StepsOfAJob : Prop := ∀ (s : State) (tn n : Nat) (j : Job), jobOf s tn n = some j →
  (∀ (sum : List Int) (poison : BitVec 2), j.st = .running → j.decided = false →
    ∃ t y, exec (.voteSumReceive tn n sum poison) s = .next t ∧ jobOf t tn n = some y ∧ y.decided = true ∧ y.step = j.step ∧
      (∀ g, g < 64 → y.poisonMask.getLsbD g = (poison.getLsbD (g / 32) || sum.getD g 0 != 0)) ∧
      ∀ g r, tabFind j.scales g = some r → ∃ q, tabFind y.scales g = some q ∧
        (y.poisonMask.getLsbD g = true → q.aCur = min r.aMax (r.aCur + r.backoff) ∧ q.clean = 0 ∧ q.skips = min 4294967295 (r.skips + 1)) ∧
        (y.poisonMask.getLsbD g = false → y.poisonMask ≠ 0 → q = r) ∧
        (y.poisonMask = 0 → r.growInterval ≤ r.clean + 1 → q.aCur = max r.aMin (r.aCur - 1) ∧ q.clean = 0) ∧
        (y.poisonMask = 0 → r.clean + 1 < r.growInterval → q.aCur = r.aCur ∧ q.clean = r.clean + 1)) ∧
  (j.st = .running → j.decided = true → j.holdFrom = none → j.evacuate = false →
    ∃ t y, exec (.stepClose tn n) s = .next t ∧ jobOf t tn n = some y ∧ y.step = j.step + 1 ∧ y.decided = false ∧ y.poisonMask = 0 ∧
      y.applied = (if j.poisonMask = 0 then j.applied + 1 else j.applied) ∧ y.scales = j.scales ∧
      y.st = (if j.stopAtBoundary then .stopped else .running)) ∧
  (∀ f, j.holdFrom = some f → exec (.stepClose tn n) s = .next s) ∧
  (∀ m, s.tenants = [(tn, { tenantOf s tn with jobs := [(n, j)] })] → m ≠ s.fabric.modid → j.ranks.contains m = true →
    ∃ t y, exec (.moduleLossDetected m) s = .next t ∧ jobOf t tn n = some y ∧ y.st = .stopped ∧ y.step = j.step ∧ t.mem = s.mem)

/-- R25 to R27, R436, R438: the risk index is the weighted sum of the nine sub-scores over 64, at most 255; the level is the
highest whose threshold the index has reached, or a level held until the index falls more than 16 below its threshold. It covers the oldest
window of fabric time that has ended and is not yet recomputed (R12); with none waiting, the counts as they stand close and start again
from 0. While Uango restarts the index and the level are frozen; its windows end all the same. -/
def Obligations.RiskAndLevels : Prop := ∀ s : State,
  let counted := { s.plover with dieReplay := 0, stackCe := [], linkReplay := [], droops := 0 }
  (s.drover.restarting = true → ∀ u,
    (s.plover.ended = [] → exec (.ploverRecompute u) s = .next { s with plover := counted }) ∧
    ∀ x rest, s.plover.ended = x :: rest → exec (.ploverRecompute u) s = .next { s with plover := { s.plover with ended := rest } }) ∧
  (s.drover.restarting = false →
    let a := fun i => (s.plover.ended.headD (scores s)).getD i 0
    let risk := min 255 ((24 * a 0 + 32 * a 1 + 64 * a 2 + 24 * a 3 + 40 * a 4 + 48 * a 5 + 64 * a 6 + 24 * a 7 + 48 * a 8) / 64)
    ∃ t, exec (.ploverRecompute 0) s = .next t ∧ t.plover.risk.toNat = risk ∧ t.mem = s.mem ∧
      (s.plover.ended = [] → t.plover.dieReplay = 0 ∧ t.plover.droops = 0 ∧ t.plover.stackCe = [] ∧ t.plover.linkReplay = []) ∧
      (∀ x rest, s.plover.ended = x :: rest → t.plover.ended = rest ∧ t.plover.dieReplay = s.plover.dieReplay ∧
        t.plover.droops = s.plover.droops ∧ t.plover.stackCe = s.plover.stackCe) ∧
      (∀ l, l < 4 → threshold s.plover l ≤ risk → l ≤ t.plover.level.toNat) ∧
      (threshold s.plover t.plover.level.toNat ≤ risk ∨
        t.plover.level.toNat ≤ s.plover.level.toNat ∧ threshold s.plover t.plover.level.toNat ≤ risk + 16) ∧
      (threshold s.plover s.plover.level.toNat ≤ risk + 16 → s.plover.level.toNat ≤ t.plover.level.toNat))

/-- R26, R439, R440, R444, R445: the interval, halved at watch and above, asks for an epoch; at its boundary every segment of the rank is in its manifest; once
verified the newest KEEP epochs stay; the scales it holds are those of the boundary that opened the step; a buddy keeps a segment whose digest it computes afresh, and asks once more for one whose digest
differs. -/
def Obligations.Epochs :  Prop :=
  (∀ (s : State) (tn n : Nat) (j : Job), jobOf s tn n = some j →
    (∀ w d, intervalOf s w j = some d → j.st = .running → j.asked = none → j.epochTime + d ≤ s.ftime →
      ∃ t y, exec (.epochIntervalExpiry tn n w) s = .next t ∧ jobOf t tn n = some y ∧ y.asked = some ((ckptOr s tn j).next, false) ∧
        t.mem = s.mem) ∧
    (∀ w d, intervalOf s w j = some d → s.ftime < j.epochTime + d → exec (.epochIntervalExpiry tn n w) s = .next s) ∧
    (∀ k b ms, j.ckpt = some (k, b, ms) →
      (0 < s.plover.level.toNat → intervalOf s false j = some (ms * 500000)) ∧
      (s.plover.level.toNat = 0 → intervalOf s false j = some (ms * 1000000))) ∧
    (∀ k, j.asked = some (k, false) → j.decided = false → j.started = true →
      ∃ t y c e, exec (.epochStart tn n j.step) s = .next t ∧ jobOf t tn n = some y ∧ y.asked = some (k, true) ∧
        ckptOf t tn j.uid = some c ∧ c.open_ = some e ∧ e.epoch = k ∧ e.step = j.step ∧
        e.entries.length = (segsOf s tn j).length ∧ e.scales = j.opened.getD j.scales ∧ t.mem = s.mem) ∧
    (∀ k c e, j.asked = some (k, true) → ckptOf s tn j.uid = some c → c.open_ = some e → s.far.readOnly = false →
      ∃ t y d, exec (.epochVerified tn n 0) s = .next t ∧ jobOf t tn n = some y ∧ y.asked = none ∧ ckptOf t tn j.uid = some d ∧
        d.open_ = none ∧ d.epochs = (c.epochs ++ [e]).drop (c.epochs.length + 1 - keepOf j) ∧
        y.st = (if j.evacuate then .stopped else j.st) ∧ t.mem = s.mem)) ∧
  (∀ (s : State) (uid epoch : Word64) (rank region seg tn : Nat) (bytes : List Byte) (dg : BitVec 384), uidTenant s uid = some tn →
    (segDigest uid epoch.toNat rank region seg bytes.length bytes ≠ dg →
      (tenantOf s tn).askAgain.contains (uid, epoch.toNat, rank, region, seg) = false →
      ∃ t, exec (.segmentReceive uid epoch rank region seg bytes dg) s = .next t ∧
        (tenantOf t tn).askAgain = (tenantOf s tn).askAgain ++ [(uid, epoch.toNat, rank, region, seg)] ∧
        (tenantOf t tn).mirrored = (tenantOf s tn).mirrored) ∧
    (segDigest uid epoch.toNat rank region seg bytes.length bytes = dg → (tenantOf s tn).mirrored = [] → s.far.readOnly = false →
      tierUsed s tn 2 + (bytes.length + 256 + 2097151) / 2097152 ≤ (tenantOf s tn).farUnits →
      ∃ t m, exec (.segmentReceive uid epoch rank region seg bytes dg) s = .next t ∧ (tenantOf t tn).mirrored = [m] ∧
        sameSeg m uid epoch.toNat rank region seg = true ∧ m.ref.digest = dg ∧ m.ref.len = bytes.length ∧
        ∀ i, i < bytes.length → byteAt m.data i = bytes.getD i 0))

/-! ## Links and their frames (16, 20) -/

/-- R353, R354, R356 to R358, R462 to R464: each state of a link ends as its rule says: training with three good lanes or more leads to
ALIGN, alignment to HELLO, a HELLO that has been seen to KEYX, a finished key agreement to UP; a third failure in a row, a bad key
message or its timeout to FAILED, lost lock or too many errors to RETRAIN. -/
def Obligations.LinkStates : Prop := ∀ (s : State) (l : Nat),
  let x := linkOf s l
  let st := fun (t : State) => (linkOf t l).st
  (x.st = .train →
    (∀ m, 3 ≤ popCount 4 (goodLanes m).toNat →
      ∃ t, exec (.linkTrainComplete l true m) s = .next t ∧ st t = .align ∧ (linkOf t l).lanes = goodLanes m ∧ t.mem = s.mem) ∧
    (∀ m, popCount 4 (goodLanes m).toNat < 3 → ∃ t, exec (.linkTrainComplete l true m) s = .next t ∧ st t = .failed) ∧
    (∀ m, x.trainFails < 2 → ∃ t, exec (.linkTrainComplete l false m) s = .next t ∧ st t = .train ∧
      (linkOf t l).trainFails = x.trainFails + 1) ∧
    (∀ m, ∃ t, exec (.linkTrainComplete l true m) s = .next t ∧ look 0 (linkOf t l).counters lnkLaneDrop =
      satAdd (look 0 x.counters lnkLaneDrop) (popCount 4 (~~~goodLanes m &&& ~~~x.dropped).toNat)) ∧
    (∀ m, 2 ≤ x.trainFails → ∃ t, exec (.linkTrainComplete l false m) s = .next t ∧ st t = .failed ∧
      (linkOf t l).retryAt = s.ftime + x.retryGap * 1000000000)) ∧
  (x.st = .align → ∀ lanes, 3 ≤ popCount 4 (x.lanes &&& lanes).toNat →
    (∃ t, exec (.linkAlignComplete l lanes true) s = .next t ∧ st t = .hello ∧ (linkOf t l).lanes = (x.lanes &&& lanes) ∧
      t.mem = s.mem) ∧
    (2 ≤ x.trainFails → ∃ t, exec (.linkAlignComplete l lanes false) s = .next t ∧ st t = .failed)) ∧
  (x.st = .hello →
    (x.sawPeer = false → ∃ t f, exec (.helloSendTick l) s = .next t ∧ (linkOf t l).out = x.out ++ [f] ∧ f.kind = 7 ∧
      f.body = helloBytes (helloRec s l) ∧ f.cipher = bodyBytes f ++ List.replicate 8 0 ∧ (linkOf t l).helloSent = x.helloSent + 1 ∧
      (linkOf t l).st = .hello ∧ t = { s with links := t.links }) ∧
    (x.sawPeer = true → exec (.helloSendTick l) s = .next s) ∧
    (∀ r, refusal s l r = none → r.peerSeen = true → x.retrained = false → s.drover.drbgOk = true → s.drover.identity = true →
      ∃ t, exec (.hello l r) s = .next t ∧ st t = .keyx ∧ (linkOf t l).peer = some r ∧ t.mem = s.mem) ∧
    (∀ r, refusal s l r = none → r.peerSeen = false →
      ∃ t, exec (.hello l r) s = .next t ∧ st t = .hello ∧ (linkOf t l).peer = some r ∧ (linkOf t l).refused = none) ∧
    (∀ r, r.serial = Config.serialNo → x.refused = none →
      ∃ t, exec (.hello l r) s = .next t ∧ st t = .hello ∧ (linkOf t l).refused = some 0) ∧
    (∀ r c, x.peer = some r → x.refused = some c →
      (refusal s l r = none → ∃ t, exec (.linkRefusedRecheck l) s = .next t ∧ linkOf t l = { x with refused := none }) ∧
      (∀ d, refusal s l r = some d → ∃ t, exec (.linkRefusedRecheck l) s = .next t ∧ (linkOf t l).refused = some d))) ∧
  (x.st = .keyx →
    (x.keyStage = 0 → ∃ t, exec (.keyxShare l true) s = .next t ∧ linkOf t l = { x with keyStage := 1 }) ∧
    (x.keyStage = 0 → ∃ t, exec (.keyxShare l false) s = .next t ∧ st t = .failed) ∧
    (∀ n r, x.keyStage = 1 → x.peer = some r → r.serial = n →
      (∃ t, exec (.keyxCert l true n) s = .next t ∧ linkOf t l = { x with keyStage := 2 }) ∧
      (∃ t, exec (.keyxCert l false n) s = .next t ∧ st t = .failed)) ∧
    (∀ p, x.keyStage = 2 →
      (∃ t, exec (.keyxFinish l true p) s = .next t ∧ st t = .up ∧ (linkOf t l).keyed = true ∧ (linkOf t l).rxE = 0 ∧
        (linkOf t l).upAt = s.ftime ∧ t.mem = s.mem ∧
        (s.fabric.acting = false → s.fabric.bwSerial = none → s.fabric.bwLink = none → s.fabric.out = [] → x.failover = false →
          (dieOf s (decide (16 ≤ l))).queue = [] → (dieOf s (decide (16 ≤ l))).mcWait = [] →
          (linkOf t l).txSeq = 0 ∧ (linkOf t l).creds = [16, 64, 64, 64])) ∧
      (∃ t, exec (.keyxFinish l false p) s = .next t ∧ st t = .failed)) ∧
    (x.keyFrom + 5000000 ≤ s.ftime → ∃ t, exec (.keyxTimeout l) s = .next t ∧ st t = .failed ∧ t.mem = s.mem) ∧
    (s.ftime < x.keyFrom + 5000000 → exec (.keyxTimeout l) s = .next s)) ∧
  (x.st = .up →
    (∀ lane, x.lanes.getLsbD lane = true → x.retrainTimes = [] →
      ∃ t, exec (.fecLockLoss l lane) s = .next t ∧ st t = .retrain ∧ (linkOf t l).retrainTimes = [s.ftime] ∧
        look 0 (linkOf t l).counters lnkRetrain = satAdd (look 0 x.counters lnkRetrain) 1 ∧ t.mem = s.mem) ∧
    (∀ n hi cs, 16 < n ∨ hi = true → x.retrainTimes = [] →
      ∃ t, exec (.linkErrorWindowEnd l n hi cs) s = .next t ∧ st t = .retrain) ∧
    (∀ n cs, n ≤ 16 → ∃ t, exec (.linkErrorWindowEnd l n false cs) s = .next t ∧ st t = .up ∧
      look 0 (linkOf t l).counters lnkUncorr = satAdd (look 0 x.counters lnkUncorr) n ∧
      (∀ i, i < 4 → (linkOf t l).fecCorr.getD i 0 = satAdd (x.fecCorr.getD i 0) (cs.getD i 0)) ∧ t = { s with links := t.links }) ∧
    (x.keyed = true → x.rekeying = false → 2 ^ 40 ≤ x.frames ∨ x.keyAt + 3600000000000 ≤ s.ftime ∨ 1024 ≤ x.upCount →
      ∃ t, exec (.rekeyTrigger l) s = .next t ∧ linkOf t l = { x with rekeying := true, keyStage := 0, keyFrom := s.ftime })) ∧
  (x.st = .retrain →
    (∀ m, 3 ≤ popCount 4 (goodLanes m).toNat →
      ∃ t, exec (.retrainComplete l true m) s = .next t ∧ st t = .align ∧ (linkOf t l).retrained = true ∧ t.mem = s.mem) ∧
    (∀ m, ∃ t, exec (.retrainComplete l false m) s = .next t ∧ st t = .train ∧ t.mem = s.mem)) ∧
  (x.st = .failed → x.retryAt ≤ s.ftime →
    ∃ t, exec (.linkFailedRetry l) s = .next t ∧
      linkOf t l = { x with st := .train, trainFails := 0, retryGap := min 3600 (2 * x.retryGap) } ∧ t = { s with links := t.links })

/-- R346, R349 to R352, R355, R365: a frame whose parity fails is not accepted and the number expected is asked for; an
acknowledgement frees the frames it covers; a NAK sends them again, a second one for the same frame retrains the link; a failover
stops the link at the peer's request, moves its frames to a sibling, and after 10 ms without one ends them and their channels; a
reserved type or a VC its type does not permit is counted. -/
def Obligations.LinkControl : Prop := ∀ (s : State) (h : FrameHdr),
  let l := h.link
  let x := linkOf s l
  (FrameTaken h s →
    (∀ f, x.txBuf = [f] → h.ack = f.fseq → x.resent = none → (∀ c ∈ s.chans, c.2.open_ = []) →
      ∃ t, exec (.idleFrame h) s = .next t ∧ (linkOf t l).txBuf = [] ∧ t.mem = s.mem) ∧
    (∀ f, x.txBuf = [f] → (h.ack - f.fseq).toNat ≥ 2048 →
      (x.resent = none → ∃ t g, exec (.nak h f.fseq) s = .next t ∧ (linkOf t l).out = x.out ++ [g] ∧
        g = { f with ack := x.rxE - 1, cred := g.cred } ∧ (linkOf t l).resent = some f.fseq ∧ t.mem = s.mem) ∧
      (x.resent = some f.fseq → x.retrainTimes = [] →
        ∃ t, exec (.nak h f.fseq) s = .next t ∧ (linkOf t l).st = .retrain ∧
          look 0 (linkOf t l).counters lnkLasting = satAdd (look 0 x.counters lnkLasting) 1)) ∧
    (∀ k, ownLinkOf s l k = some l → x.txBuf = [] →
      ∃ t g, exec (.fovReq h k) s = .next t ∧ (linkOf t l).stopped = true ∧ (linkOf t l).out = x.out ++ [g] ∧ g.kind = 8 ∧
        g.body = (lctl 3 x.rxE k).body ∧ t.mem = s.mem) ∧
    (∀ (k : Nat) (e : BitVec 12) (f : TxFrame), k ≠ l → x.failover = false → x.txBuf = [] → (linkOf s k).st = .failed →
      (linkOf s k).failover = true → (linkOf s k).txBuf = [f] → (f.fseq - e).toNat < 2048 → sequenced f.kind = true →
      siblings s k = [l] → k / 16 = l / 16 → 0 < vcCredit x f.vc.toNat →
      ∃ t g, exec (.fovAns h k e) s = .next t ∧ (linkOf t k).failover = false ∧ (linkOf t k).txBuf = [] ∧
        look 0 (linkOf t k).counters lnkFailover = satAdd (look 0 (linkOf s k).counters lnkFailover) 1 ∧
        (linkOf t l).txBuf = [g] ∧ g.fseq = x.txSeq ∧ g.kind = f.kind ∧ g.vc = f.vc ∧ g.dest = f.dest ∧ g.chan = f.chan ∧ g.cseq = f.cseq ∧
        g.body = f.body ∧ t.mem = s.mem)) ∧
  (x.st = .up → h.parityOk = false → x.nakOpen = false →
    ∃ t g, exec (.idleFrame h) s = .next t ∧ (linkOf t l).out = x.out ++ [g] ∧ g.kind = 8 ∧ g.body = (lctl 1 x.rxE l).body ∧
      (linkOf t l).rxE = x.rxE ∧ (linkOf t l).nakAt = s.ftime ∧
      look 0 (linkOf t l).counters lnkParErr = satAdd (look 0 x.counters lnkParErr) 1 ∧ t = { s with links := t.links }) ∧
  (x.st = .up → x.nakOpen = true →
    (x.nakAt + 2000 ≤ s.ftime → ∃ t g, exec (.nakResendTimer l) s = .next t ∧ (linkOf t l).out = x.out ++ [g] ∧ g.kind = 8 ∧
      g.body = (lctl 1 x.rxE l).body ∧ t = { s with links := t.links }) ∧
    (s.ftime < x.nakAt + 2000 → exec (.nakResendTimer l) s = .next s)) ∧
  (∀ (f : TxFrame) (u c : Nat), x.st ≠ .up → x.failover = true → x.txBuf = [f] → x.leftUpAt = some u →
    u + 10000000 ≤ s.ftime → siblings s l = [] → chanOfFrame s f = some c →
    (chanOf s c).valid = true → (chanOf s c).ended = false → s.fabric.holding = false →
    ∃ t, exec (.failoverLimit l) s = .next t ∧ (linkOf t l).txBuf = [] ∧ (linkOf t l).failover = false ∧ (chanOf t c).ended = true ∧
      t.mem = s.mem) ∧
  (∀ (b : Bool) (ls : List Nat) (f : TxFrame) (c : Nat), (dieOf s b).queue = [(ls, f)] → f.since + 10000000 ≤ s.ftime →
    chanOfFrame s f = some c → (chanOf s c).valid = true → (chanOf s c).ended = false → s.fabric.holding = false →
    ∃ t, exec (.frameAgeDiscard b f.chan.toNat) s = .next t ∧ (ls, f) ∉ (dieOf t b).queue ∧ (chanOf t c).ended = true ∧
      look 0 (dieOf t b).counters dieAgeDiscard = satAdd (look 0 (dieOf s b).counters dieAgeDiscard) 1 ∧ t.mem = s.mem) ∧
  (∀ (b : Bool) (c : Nat), (∀ e ∈ (dieOf s b).queue, s.ftime < e.2.since + 10000000) →
    (∀ e ∈ (dieOf s b).mcWait, s.ftime < e.2.since + 10000000) → (∀ p ∈ (dieOf s b).parked, s.ftime < p.since + 10000000) →
    exec (.frameAgeDiscard b c) s = .next s) ∧
  (∀ ty : BitVec 4, x.st = .up → h.parityOk = true → 10 < ty.toNat ∨ (ty = 5 ∧ h.vc ≠ 0) →
    ∃ t, exec (.reservedFrameType h ty) s = .next t ∧ t = { s with dies := t.dies } ∧
      look 0 (dieOf t (decide (16 ≤ l))).counters dieBadFrame = satAdd (look 0 (dieOf s (decide (16 ≤ l))).counters dieBadFrame) 1)

/-- R307, R316, R346, R369, R371: an accepted frame of a channel of this module is delivered: a signal adds its count or is discarded
and counted, a WRITE record opens a transfer whose data is written as it arrives, a READ record sends the bytes back, a DONE
completes the transfer it answers, a Gleaner record stands in the channel's inbox; a reduction block is added to its tree. -/
def Obligations.ChannelFrames : Prop := ∀ (s : State) (h : FrameHdr), FrameAccepted h s →
  let l := h.link
  let c := h.chan.toNat
  let x := chanOf s c
  let tn := x.cfg.tenant.toNat
  let taken := fun (t : State) => (linkOf t l).rxE = (linkOf s l).rxE + 1
  (ForChan h s →
    (∀ (k : Nat) (q : SemNo) (n : Byte), k < 352 → h.vc = 0 →
      (coreUsable s tn k = true → (coreOf s k).fenced = false → (∀ m, isWaiting (stCtx s k m).st = false) →
        ∃ t, exec (.sigFrame h k q n) s = .next t ∧ taken t ∧ (chanOf t c).rxH = h.cseq ∧ t.mem = s.mem ∧
          semOf (coreOf t k) q.toNat = { count := min 65535 ((semOf (coreOf s k) q.toNat).count + n.toNat),
                                         ovf := (semOf (coreOf s k) q.toNat).ovf || decide (65535 < (semOf (coreOf s k) q.toNat).count + n.toNat) }) ∧
      (coreUsable s tn k = false →
        ∃ t, exec (.sigFrame h k q n) s = .next t ∧ taken t ∧ t.cores = s.cores ∧
          look 0 (chanOf t c).counters chSigDiscard = satAdd (look 0 x.counters chSigDiscard) 1)) ∧
    (∀ body, h.vc = 1 → ∃ t, exec (.glnFrame h body) s = .next t ∧ taken t ∧ (chanOf t c).inbox = x.inbox ++ [body] ∧ t.mem = s.mem) ∧
    (∀ (bar : Bool) (len : Nat) (va : Word64) (first : Word32), h.vc = 1 → x.early = [] → x.open_ = [] →
      (farCheck s x.cfg 1 len va.toNat = none → kindOf (xferWord x.cfg len va.toNat) = 0 →
        ∃ t tr, exec (.xferWrite h bar len va first) s = .next t ∧ taken t ∧ (chanOf t c).open_ = [tr] ∧ tr.first = first ∧ tr.len = len ∧
          tr.va = va ∧ t.mem = s.mem) ∧
      (∀ e, farCheck s x.cfg 1 len va.toNat = some e → x.cfg.peer.toNat ≠ s.fabric.modid →
        ∃ t, exec (.xferWrite h bar len va first) s = .next t ∧ taken t ∧ (chanOf t c).open_ = [] ∧ (chanOf t c).txSeq = x.txSeq + 1 ∧
          t.mem = s.mem)) ∧
    (∀ (payload : List Byte) (tr : Transfer) (pa : Nat), h.vc = 1 → x.open_ = [tr] → tr.read = false → tr.first = h.cseq → tr.parts = [] →
      tr.done = [] → tr.dma = none → tr.word = none → tr.len = payload.length → 0 < payload.length → payload.length ≤ 236 →
      kindOf (xferWord x.cfg tr.len tr.va.toNat) = 0 →
      spot s tn tr.va.toNat 1 = .ok pa → snapshotHeld s tn tr.va.toNat = false →
      x.cfg.peer.toNat ≠ s.fabric.modid →
      (∀ u : State, u = { s with links := u.links, chans := u.chans } → (vaWrite u tn tr.va.toNat payload .clean).2 = none) →
      ∃ t u, exec (.dataFrame h payload) s = .next t ∧ taken t ∧ (chanOf t c).open_ = [] ∧ (chanOf t c).txSeq = x.txSeq + 1 ∧
        u = { s with links := u.links, chans := u.chans } ∧ t.mem = (vaWrite u tn tr.va.toNat payload .clean).1.mem) ∧
    (∀ (bar : Bool) (len : Nat) (va : Word64), h.vc = 1 → x.open_ = [] → x.cfg.peer.toNat ≠ s.fabric.modid →
      (∀ e, farCheck s { x.cfg with wfmt := x.cfg.nfmt } 0 len va.toNat = some e →
        ∃ t, exec (.xferRead h bar len va) s = .next t ∧ taken t ∧ (chanOf t c).txSeq = x.txSeq + 1 ∧ t.mem = s.mem) ∧
      (farCheck s { x.cfg with wfmt := x.cfg.nfmt } 0 len va.toNat = none → 0 < len → len ≤ 236 → x.cfg.red = false →
        kindOf (xferWord x.cfg len va.toNat) = 0 → (∀ p ∈ pagesOf va.toNat len, spot s tn (max p va.toNat) 0 ≠ .wait) →
        (∀ u : State, u = { s with links := u.links, chans := u.chans } → ∃ b, (vaRead u tn va.toNat len .clean).2 = .ok b ∧ b.length = len) →
        ∃ t, exec (.xferRead h bar len va) s = .next t ∧ taken t ∧ (chanOf t c).txSeq = x.txSeq + 2 ∧ (chanOf t c).open_ = [])) ∧
    (∀ (d : Nat) (k : DmaChan) (w : DmaCur) (b : Burst) (n : Nat), h.vc = 1 → s.dma = [(d, k)] → k.late = [] → k.work = [w] → dRmode w.word = 1 →
      dFchan w.word = c → w.status = none → w.bursts = [b] → b.st = .writing →
      ∃ t y, exec (.xferDone h 0 n) s = .next t ∧ taken t ∧ (dmaOf t d).work = [y] ∧ y.checked = true ∧
        y.bursts = [{ b with st := .performed }] ∧ t.mem = s.mem)) ∧
  (∀ (e : TreeEntry) (inp j : Nat),
    let die := decide (16 ≤ l)
    let key := treeKey h.dest.toNat c
    h.vc = 0 → tabFind (dieOf s die).trees key = some e → inputOf s l e.inMask = some inp → e.inMask = [inp, j] → j ≠ inp → (dieOf s die).slots = [] →
    (dieOf s die).parked = [] → 0 < e.reserve → (∀ y ∈ s.chans, y.2.redLater = []) →
    (∀ elems : List Int, ∃ t q, exec (.redFrame h elems) s = .next t ∧ taken t ∧ (dieOf t die).slots = [q] ∧ q.tree = key ∧ q.seq = h.cseq ∧
      q.arrived = [inp] ∧ q.poison = false ∧ (∀ i, i < 32 → q.sum.getD i 0 = signed 32 (lowBits 32 (elems.getD i 0))) ∧ t.mem = s.mem) ∧
    (∃ t q, exec (.redpFrame h) s = .next t ∧ taken t ∧ (dieOf t die).slots = [q] ∧ q.tree = key ∧ q.seq = h.cseq ∧
      q.arrived = [inp] ∧ q.poison = true ∧ q.sum = List.replicate 32 0 ∧ t.mem = s.mem))

/-! ## Mailbox commands (18) -/

/-- R405, R407, R408: Uango checks an entry in the order of R407: it answers RETRY_LATER while firmware switches over, then what the
header checks find, then what the body checks find, and a refused command changes nothing; PENDING beyond 64 owed commands is refused;
a command it cannot read changes nothing (log entry 11), and one whose read fails in host memory stops the ring with RERR_CODE 3 (R402).
Stated for TENANT_END and for any opcode outside the tables. -/
def Obligations.CommandChecks : Prop := ∀ (s : State) (e : Entry),
  let p := spTenantEnd
  let f := funcOf s e.fn
  let room := f.rspWait = [] ∧ idxDist f.rspPi f.rspCi < 256
  (slotReady s e = false → exec (.tenantEnd e) s = .next s ∧ ∀ op, exec (.undefinedOpcode e op) s = .next s) ∧
  (slotReady s e = true → e.readFails = true → ∃ t, exec (.tenantEnd e) s = .next t ∧ (funcOf t e.fn).rerr = true ∧
    (funcOf t e.fn).rerrCode = 3 ∧ (funcOf t e.fn).cause.getLsbD 3 = true ∧ (funcOf t e.fn).cmdCi = f.cmdCi ∧
    slotReady t e = false ∧ t = { s with funcs := t.funcs }) ∧
  (slotReady s e = true → e.readFails = false → room →
    (switching s f = true → ∃ t, exec (.tenantEnd e) s = .next t ∧ Refuses e 0x0102 stRetryLater s t) ∧
    (switching s f = false →
      (∀ st, headerCheck f e false (some p) false = some st →
        ∃ t, exec (.tenantEnd e) s = .next t ∧ Refuses e 0x0102 st s t) ∧
      (headerCheck f e false (some p) false = none →
        (∀ st, bodyCheck s e p false = some st → ∃ t, exec (.tenantEnd e) s = .next t ∧ Refuses e 0x0102 st s t) ∧
        (bodyCheck s e p false = none → 64 ≤ f.owed.length →
          ∃ t, exec (.tenantEnd e) s = .next t ∧ Refuses e 0x0102 stRetryLater s t)) ∧
      (∀ op : Half, (∀ q ∈ allSpecs, q.op ≠ op.toNat) → op.toNat < 0x0F00 ∨ 0x0FFF < op.toNat →
        ∃ t, exec (.undefinedOpcode e op) s = .next t ∧
          Refuses e op.toNat (if f.sMajor = 0 ∨ e.verMajor ≠ f.sMajor ∨ f.sMinor.toNat < e.verMinor.toNat then stBadVersion
            else stBadOpcode) s t) ∧
      (∀ op : Half, 0x0F00 ≤ op.toNat → op.toNat ≤ 0x0FFF →
        (∀ st, headerCheck f e false (some { op := op.toNat, data := e.indirect, size := e.payloadLength.toNat }) false = some st →
          ∃ t, exec (.vendorDiagnostic e op) s = .next t ∧ Refuses e op.toNat st s t) ∧
        (headerCheck f e false (some { op := op.toNat, data := e.indirect, size := e.payloadLength.toNat }) false = none →
          (s.drover.diagUnlocked = [] → ∃ t, exec (.vendorDiagnostic e op) s = .next t ∧ Refuses e op.toNat stDenied s t) ∧
          (s.drover.diagUnlocked ≠ [] → exec (.vendorDiagnostic e op) s = .refused .vendorDiagnostic))))) ∧
  (∀ (fn : Nat) (c : PendCmd) (st : Half), let g := funcOf s fn
    g.owed = [c] → c.status = some st → g.enable = true → g.rspWait = [] → idxDist g.rspPi g.rspCi < 256 → s.drover.switching = false →
    ∃ t r, exec (.finalResponse fn c.seq) s = .next t ∧ (funcOf t fn).owed = [] ∧ (funcOf t fn).rspPi = g.rspPi + 1 ∧
      tabFind (funcOf t fn).rspRing (g.rspPi.toNat % 256) = some r ∧ r.opcode = c.opcode ∧ r.seq = c.seq ∧ r.status = st ∧
      r.body = c.body ∧ t = { s with funcs := t.funcs })

/-- R411, R412, R414: HELLO opens the session under major version 1 and reports the module, and what was owed to the old session is
discarded; BYE closes it; PING returns its cookie and the fabric time. -/
def Claims.Sessions : Prop := ∀ (s : State) (e : Entry),
  let tn := targetOf e
  let x := tenantOf s tn
  let minor := if e.verMajor = 1 then min e.verMinor.toNat Config.minor else Config.minor
  (Admits spHello e s → s.drover.lostUntold.contains e.fn = false →
    ∃ t, exec (.helloCommand e) s = .next t ∧
      Gives e 0 stOK 42 (bodyOf [(0, 1, 1), (1, 1, minor), (2, 1, e.fn), (3, 1, tn), (4, 1, 0x10), (5, 1, 4), (6, 2, s.fabric.modid),
        (8, 8, Config.serialNo.toNat), (16, 4, (buildOf s s.drover.slotB).toNat), (20, 1, b2n s.drover.slotB),
        (24, 4, x.nearFrames), (28, 4, x.midFrames), (32, 4, x.farUnits), (36, 2, x.maxCores), (38, 2, x.maxChan),
        (40, 2, x.maxDma)]) [] s s t ∧
      (funcOf t e.fn).sMajor = 1 ∧ (funcOf t e.fn).sMinor = BitVec.ofNat 8 minor ∧ (funcOf t e.fn).owed = [] ∧
      (funcOf t e.fn).driverId = BitVec.ofNat 64 (fld e.body 0 8)) ∧
  (Admits spBye e s → ∃ t, exec (.bye e) s = .next t ∧ GivesOk e 1 s s t ∧ (funcOf t e.fn).sMajor = 0 ∧ (funcOf t e.fn).owed = []) ∧
  (Admits spPing e s → ∃ t, exec (.ping e) s = .next t ∧
    Gives e 2 stOK 16 (bodyOf [(0, 8, fld e.body 0 8), (8, 8, copyOf s 7)]) [] s s t)

/-- R62, R415, R426, R472, R473: TENANT_CONFIG sets the allotments where they fit, and a tenant with one is READY with its keys drawn;
TENANT_QUERY reports use; TENANT_END and its scrub take everything from the tenant, its cores and its memory with it, and the hold ends
after the fixed duration; CORE_BIND scrubs free cores and binds them, CORE_UNBIND gives them back. -/
def Claims.Tenants : Prop := ∀ (s : State) (e : Entry),
  let tn := targetOf e
  let f := fun (o n : Nat) => fld e.body o n
  let a := [f 0 4, f 4 4, f 8 4, f 12 2, f 14 2, f 16 2]
  (Admits spTenantConfig e s → f 0 4 % 8 = 0 → f 4 4 % 8 = 0 →
    (allotFits s tn a = false → ∃ t, exec (.tenantConfig e) s = .next t ∧ Refuses e 0x0100 stNoResource s t) ∧
    (allotFits s tn a = true → a.all (· == 0) = false → s.drover.drbgOk = true → (funcOf s tn).fstate = .idle →
      ∃ t, exec (.tenantConfig e) s = .next t ∧ Answered e 0x0100 stOK 0 0 [] s t ∧ allots (tenantOf t tn) = a ∧
        (funcOf t tn).fstate = .ready ∧ (tenantOf t tn).keys.memory = true ∧ (tenantOf t tn).keys.salt = true ∧ (s.far.readOnly = false → tn ∈ t.far.salts) ∧
        (∀ m, m ≠ tn → tenantOf t m = tenantOf s m) ∧ t.mem = s.mem) ∧
    (allotFits s tn a = true → a.all (· == 0) = true → (funcOf s tn).fstate = .ready →
      ∃ t, exec (.tenantConfig e) s = .next t ∧ Answered e 0x0100 stOK 0 0 [] s t ∧ allots (tenantOf t tn) = a ∧
        (funcOf t tn).fstate = .idle ∧ t.mem = s.mem)) ∧
  (Admits spTenantQuery e s → ∃ t, exec (.tenantQuery e) s = .next t ∧
    Gives e 0x0101 stOK 29 (bodyOf [(0, 1, fstateCode (funcOf s tn).fstate), (4, 4, tierUsed s tn 0), (8, 4, tierUsed s tn 1),
      (12, 4, tierUsed s tn 2), (16, 2, (coresBound s tn).length), (18, 2, (tenantOf s tn).handles.length),
      (20, 2, (tenantOf s tn).jobs.length), (22, 2, chansHeld s tn), (24, 2, (dmaHeld s tn).length),
      (28, 1, (funcOf s tn).owed.length)]) [] s s t) ∧
  (Admits spTenantEnd e s → (tenantOf s tn).scrub = none →
    ∃ t, exec (.tenantEnd e) s = .next t ∧ Waits e 0x0102 tn s t ∧ (funcOf t tn).fstate = .ending ∧
      (tenantOf t tn).scrub.isSome = true ∧ (s.far.readOnly = false → tn ∈ t.far.endingMarks)) ∧
  (∀ (m : Nat) (b : Scrub), (tenantOf s m).scrub = some b →
    (b.inScrub = false → b.torn = true → dmaHeld s m = [] →
      ∃ t, exec (.scrubStart m) s = .next t ∧ (funcOf t m).fstate = .scrub ∧
        (tenantOf t m).scrub = some { b with inScrub := true, since := s.ftime } ∧ (tenantOf t m).small = [] ∧
        (tenantOf t m).handles = [] ∧ m ∉ t.far.salts ∧ (∀ n, n ≠ m → tenantOf t n = tenantOf s n) ∧
        ∀ c, (coreOf s c).tenant = some m → (coreOf t c).tenant = none ∧ (coreOf t c).ctxs = [] ∧
          ∀ i, i < 655360 → byteAt t.mem (lsAddr c i) = 0) ∧
    (b.inScrub = true → b.since + scrubTime b.bytes ≤ s.ftime → b.gone = false →
      ∃ t, exec (.scrubHoldEnd m) s = .next t ∧ (tenantOf t m).scrub = none ∧ (s.far.readOnly = false → m ∉ t.far.endingMarks) ∧
        (funcOf t m).fstate = (if (allots (tenantOf s m)).all (· == 0) then .idle else .ready) ∧ t.mem = s.mem ∧ t.cores = s.cores)) ∧
  (Admits spCoreBind e s → (∀ c ∈ maskCores e, s.grid.retired.contains c = false) →
    (∀ c ∈ maskCores e, (coreOf s c).tenant = none) → (coresBound s tn).length + (maskCores e).length ≤ (tenantOf s tn).maxCores →
    ∃ t, exec (.coreBind e) s = .next t ∧ Answered e 0x0110 stOK 0 0 [] s t ∧
      (∀ c, c ∉ maskCores e → coreOf t c = coreOf s c) ∧
      ∀ c ∈ maskCores e, (coreOf t c).tenant = some tn ∧ (coreOf t c).scrubbed = true ∧ (coreOf t c).ctxs = [] ∧
        (coreOf t c).sems = [] ∧ ∀ i, i < 655360 → byteAt t.mem (lsAddr c i) = 0) ∧
  (Admits spCoreUnbind e s → (∀ c ∈ maskCores e, (coreOf s c).tenant = some tn) →
    ((maskCores e).any (handleOn (tenantOf s tn)) = true →
      ∃ t, exec (.coreUnbind e) s = .next t ∧ Refuses e 0x0111 stDenied s t) ∧
    ((maskCores e).any (handleOn (tenantOf s tn)) = false →
      ∃ t, exec (.coreUnbind e) s = .next t ∧ GivesOk e 0x0111 { s with cores := t.cores } s t ∧
        (∀ c, c ∉ maskCores e → coreOf t c = coreOf s c) ∧
        ∀ c ∈ maskCores e, coreOf t c = { coreOf s c with tenant := none }))

/-- The commands of a session, and of a tenant with its cores. -/
def Obligations.SessionsAndTenants : Prop := Claims.Sessions ∧ Claims.Tenants

/-- R415, R427: CTX_OPEN gives the lowest free handle on a core that the tenant holds; RESUME, FLUSH, KILL and CLOSE do what their names
say, and KILL and CLOSE answer PENDING while a context still holds the task; CTX_QUERY reports; CTX_SIGNAL sends counts to a semaphore
of a core of the tenant. -/
def Claims.Handles : Prop := ∀ (s : State) (e : Entry),
  let tn := targetOf e
  let f := fun (o n : Nat) => fld e.body o n
  (Admits spCtxOpen e s → f 2 1 ≤ 1 →
    (32 ≤ ((tenantOf s tn).handles.filter fun h => h.2.core == f 0 2).length → ∃ t, exec (.ctxOpen e) s = .next t ∧ Refuses e 0x0120 stNoResource s t) ∧
    ((coreOf s (f 0 2)).tenant ≠ some tn → ((tenantOf s tn).handles.filter fun h => h.2.core == f 0 2).length < 32 →
      (∃ h, h < 4096 ∧ handleOf s tn h = none) → ∃ t, exec (.ctxOpen e) s = .next t ∧ Refuses e 0x0120 stDenied s t) ∧
    (∀ h, f 0 2 < 352 → (coreOf s (f 0 2)).tenant = some tn → ((tenantOf s tn).handles.filter fun h => h.2.core == f 0 2).length < 32 →
      h < 4096 → handleOf s tn h = none → (∀ k, k < h → (handleOf s tn k).isSome = true) →
      ∃ t, exec (.ctxOpen e) s = .next t ∧
        Gives e 0x0120 stOK 2 (bodyOf [(0, 2, h)]) [] (setHandle s tn h { core := f 0 2, kind := f 2 1 }) s t)) ∧
  (∀ x, handleOf s tn (f 0 2) = some x → Admits spCtxCtrl e s →
    (f 2 1 = 0 →
      (x.st = .halted → ∃ t, exec (.ctxResume e) s = .next t ∧ Answered e 0x0121 stOK 0 0 [] s t ∧
        handleOf t tn (f 0 2) = some { x with st := .open_ } ∧ (∀ c n, stCtx t c n = stCtx s c n) ∧ t.mem = s.mem) ∧
      (x.st ≠ .halted → ∃ t, exec (.ctxResume e) s = .next t ∧ Refuses e 0x0121 stDenied s t)) ∧
    (f 2 1 = 1 → ∃ t, exec (.ctxFlush e) s = .next t ∧ Answered e 0x0121 stOK 0 0 [] s t ∧
      handleOf t tn (f 0 2) = some { x with queue := [], st := if x.st == .halted then .open_ else x.st } ∧
      (∀ c n, stCtx t c n = stCtx s c n) ∧ t.mem = s.mem) ∧
    (f 2 1 = 2 →
      (x.onCtx = none → x.st ≠ .closing → ∃ t y, exec (.ctxKill e) s = .next t ∧ Answered e 0x0121 stOK 0 0 [] s t ∧
        handleOf t tn (f 0 2) = some y ∧ y.queue = [] ∧ y.killing = false) ∧
      (∀ n, x.onCtx = some n → (stCtx s x.core n).st = .running → (stCtx s x.core n).wait ≠ .exit →
        (coreOf s x.core).fenced = false →
        ∃ t, exec (.ctxKill e) s = .next t ∧ Waits e 0x0121 (ctxObj tn (f 0 2) 2) s t ∧ (stCtx t x.core n).st = .faulted)) ∧
    (f 2 1 = 3 →
      (x.onCtx = none → ∃ t, exec (.ctxClose e) s = .next t ∧ Answered e 0x0121 stOK 0 0 [] s t ∧ handleOf t tn (f 0 2) = none) ∧
      (∀ n, x.onCtx = some n → (stCtx s x.core n).st = .running → (stCtx s x.core n).wait ≠ .exit →
        (coreOf s x.core).fenced = false →
        ∃ t y, exec (.ctxClose e) s = .next t ∧ Waits e 0x0121 (ctxObj tn (f 0 2) 3) s t ∧ (stCtx t x.core n).st = .faulted ∧
          handleOf t tn (f 0 2) = some y ∧ y.st = .closing))) ∧
  (∀ x, handleOf s tn (f 0 2) = some x → Admits spCtxQuery e s →
    let busy := x.onCtx.isSome || (savedOf (coreOf s x.core) tn (f 0 2)).isSome
    let hs := match x.st with | .closing => 3 | .halted => 2 | .open_ => if busy then 1 else 0
    ∃ t, exec (.ctxQuery e) s = .next t ∧ Gives e 0x0122 stOK 24 (bodyOf [(0, 1, hs), (1, 1, x.onCtx.getD 0xFF), (2, 2, x.core),
      (4, 2, x.queue.length), (8, 8, match x.onCtx with | some n => statusWord (stCtx s x.core n) n | none => 0),
      (16, 8, x.ticketsDone)]) [] s s t) ∧
  (Admits spCtxSignal e s → f 2 1 ≤ 63 → f 3 1 ≠ 0 → f 0 2 < 352 → (coreOf s (f 0 2)).tenant = some tn →
    ∃ t, exec (.ctxSignal e) s = .next t ∧ GivesOk e 0x0123 { s with sigs := s.sigs ++ [{ core := f 0 2, sem := f 2 1, cnt := f 3 1 }] } s t)

/-- R416: a task is queued with the ticket that its response names; a bad descriptor is BAD_FIELD, a closing handle DENIED, a taken
semaphore NO_RESOURCE and a full queue RETRY_LATER. -/
def Claims.TaskSubmit : Prop := ∀ (s : State) (e : Entry) (x : Handle) (b : List Byte),
  let tn := targetOf e
  let h := fld e.body 0 2
  let va := fld e.body 8 8
  let d := taskDesc b ((List.range 4).map fun i => BitVec.ofNat 64 (fld e.body (16 + 8 * i) 8)) (x.nextTicket % 2 ^ 32)
  Admits spTaskSubmit e s → handleOf s tn h = some x → va % 64 = 0 → mappedAll (tenantOf s tn) va 128 = true →
  (∀ v, SameBut s v → (peek v tn 2 va).2 = .ok b) →
  (descBad s tn b d = true → ∃ t, exec (.taskSubmit e) s = .next t ∧ Refuses e 0x0410 stBadField s t) ∧
  (descBad s tn b d = false →
    (x.st = .closing → semsTaken s tn h x.core d.res1 = false →
      ∃ t, exec (.taskSubmit e) s = .next t ∧ Refuses e 0x0410 stDenied s t) ∧
    (semsTaken s tn h x.core d.res1 = true →
      ∃ t, exec (.taskSubmit e) s = .next t ∧ Refuses e 0x0410 stNoResource s t) ∧
    (x.st ≠ .closing → semsTaken s tn h x.core d.res1 = false →
      (64 ≤ x.queue.length → ∃ t, exec (.taskSubmit e) s = .next t ∧ Refuses e 0x0410 stRetryLater s t) ∧
      (x.queue.length < 64 →
        ∃ t, exec (.taskSubmit e) s = .next t ∧ Answered e 0x0410 stOK 4 (bodyOf [(0, 4, d.ticket)]) [] s t ∧
          handleOf t tn h = some { x with queue := x.queue ++ [d], nextTicket := x.nextTicket + 1 } ∧
          (∀ c n, stCtx t c n = stCtx s c n) ∧ t.mem = s.mem)))

/-- The commands of context handles, and TASK_SUBMIT. -/
def Obligations.HandlesAndSubmission : Prop := Claims.Handles ∧ Claims.TaskSubmit

/-- R261 to R266, R290, R404, R418: MEM_MAP maps the whole range or nothing; MEM_UNMAP takes the leaves away and is whole once every agent
has acknowledged; MEM_PIN and MEM_UNPIN set PIN of each leaf; MEM_WRITE and MEM_READ reach resident pages at once and wait for the
others, and what names overlapping bytes waits behind them (R408); windows of BAR2 are opened and closed; MEM_QUERY reports a leaf; DIST_MAP maps the distance table read-only. -/
def Obligations.MemoryCommands : Prop := ∀ (s : State) (e : Entry),
  let tn := targetOf e
  let x := tenantOf s tn
  let f := fun (o n : Nat) => fld e.body o n
  let q : MapReq := { va := f 0 8, size := f 8 8, tier := f 16 1, perm := f 17 1, paged := (f 18 1).testBit 0
                      pin := (f 18 1).testBit 1, big := (f 18 1).testBit 2, place := f 19 1, core := f 20 2 }
  let n := e.payloadLength.toNat
  let clear := fun (va n : Nat) => ∀ b ∈ s.hostWait, b.tenant ≠ tn ∨ b.va + b.len ≤ va ∨ va + n ≤ b.va
  (Admits spMemMap e s → unmapAhead s e q.va q.size = false → 0 < q.size → q.va + q.size ≤ 2 ^ 48 → f 18 1 ≤ 7 → mapBad x q = false →
    (q.tier = 3 → (∃ i, i < 2 * (q.size / 2097152) ∧ (coreOf s (q.core + i)).tenant ≠ some tn) →
      ∃ t, exec (.memMap e) s = .next t ∧ Refuses e 0x0200 stDenied s t) ∧
    (q.tier = 3 → (∀ i, i < 2 * (q.size / 2097152) → (coreOf s (q.core + i)).tenant = some tn) →
      ∃ t, exec (.memMap e) s = .next t ∧ Answered e 0x0200 stOK 0 0 [] s t ∧ t.mem = s.mem ∧
        ∀ i, i < q.size / 2097152 → leafOf t tn (q.va + i * 2097152) = some (newLeaf q (lsAddr (q.core + 2 * i) 0) none, false)) ∧
    (q.tier ≠ 3 → mapRange s tn q = none → ∃ t, exec (.memMap e) s = .next t ∧ Refuses e 0x0200 stNoResource s t) ∧
    (∀ u, q.tier ≠ 3 → mapRange s tn q = some u →
      ∃ t, exec (.memMap e) s = .next t ∧ GivesOk e 0x0200 u s t ∧
        ∀ i, i < q.size / mapPage q → ∃ a b, leafOf t tn (q.va + i * mapPage q) = some (newLeaf q a b, q.big))) ∧
  (Admits spMemUnmap e s → wholePages x (f 0 8) (f 8 8) = true →
    (f 8 8 = 0 → ∃ t, exec (.memUnmap e) s = .next t ∧ GivesOk e 0x0201 s s t) ∧
    (0 < f 8 8 → ¬clear (f 0 8) (f 8 8) → ∃ t, exec (.memUnmap e) s = .next t ∧ Waits e 0x0201 s.nextId s t ∧ t.tenants = s.tenants ∧
      t.mem = s.mem ∧ t.hostWait = s.hostWait ++ [{ op := 0x0201, obj := s.nextId, tenant := tn, va := f 0 8, len := f 8 8, write := true }]) ∧
    (0 < f 8 8 → clear (f 0 8) (f 8 8) → ∃ t, exec (.memUnmap e) s = .next t ∧ Waits e 0x0201 s.nextId s t ∧
      (∀ y ∈ leavesIn x (f 0 8) (f 8 8), leafOf t tn y.1 = none ∧ ∃ v ∈ t.invals, v.tenant = tn ∧ v.va = y.1 ∧ v.cmd = s.nextId) ∧
      (∀ m, m ≠ tn → tenantOf t m = tenantOf s m) ∧ t.mem = s.mem)) ∧
  (Admits spMemPin e s → unmapAhead s e (f 0 8) (f 8 8) = false → 0 < f 8 8 → wholePages x (f 0 8) (f 8 8) = true → ((leavesIn x (f 0 8) (f 8 8)).map (·.1)).Nodup →
    (f 16 1 = 0 → (∀ tier < 2, pinTakes x (f 0 8) (f 8 8) tier = 0 ∨ leaves16 x tier (pinTakes x (f 0 8) (f 8 8) tier) = true) →
      ∃ t, exec (.memPin e) s = .next t ∧ Answered e 0x0202 stOK 0 0 [] s t ∧ t.mem = s.mem ∧
        ∀ y ∈ leavesIn x (f 0 8) (f 8 8), leafOf t tn y.1 = some ({ y.2.1 with pte := setField y.2.1.pte 8 1 1 }, y.2.2)) ∧
    (f 16 1 = 0 → (∃ tier < 2, 0 < pinTakes x (f 0 8) (f 8 8) tier ∧ leaves16 x tier (pinTakes x (f 0 8) (f 8 8) tier) = false) →
      ∃ t, exec (.memPin e) s = .next t ∧ Refuses e 0x0202 stNoResource s t) ∧
    (f 16 1 = 1 →
      ∃ t, exec (.memUnpin e) s = .next t ∧ Answered e 0x0202 stOK 0 0 [] s t ∧ t.mem = s.mem ∧
        ∀ y ∈ leavesIn x (f 0 8) (f 8 8), leafOf t tn y.1 = some ({ y.2.1 with pte := setField y.2.1.pte 8 1 0 }, y.2.2))) ∧
  (Admits spMemWrite e s → mappedAll x (f 8 8) n = true →
    (clear (f 8 8) n → rangeReady s tn (f 8 8) n = .ok true → (∀ v, SameBut s v → (vaWrite v tn (f 8 8) (e.data.take n) .clean).2 = none) →
      ∃ t v, exec (.memWrite e) s = .next t ∧ Answered e 0x0203 stOK 0 0 [] s t ∧ SameBut s v ∧
        t.mem = (vaWrite v tn (f 8 8) (e.data.take n) .clean).1.mem) ∧
    (¬clear (f 8 8) n ∨ rangeReady s tn (f 8 8) n = .ok false →
      ∃ t, exec (.memWrite e) s = .next t ∧ Waits e 0x0203 s.nextId s t ∧ t.mem = s.mem ∧
        t.hostWait = s.hostWait ++ [{ op := 0x0203, obj := s.nextId, tenant := tn, va := f 8 8, len := n, write := true,
                                      bytes := e.data.take n }]) ∧
    (∀ c, clear (f 8 8) n → rangeReady s tn (f 8 8) n = .error c →
      ∃ t, exec (.memWrite e) s = .next t ∧ Answered e 0x0203 (causeStatus c) 0 0 [] s t ∧ t.mem = s.mem)) ∧
  (Admits spMemRead e s → mappedAll x (f 8 8) n = true →
    (∀ b, clear (f 8 8) n → rangeReady s tn (f 8 8) n = .ok true → (∀ v, SameBut s v → (vaRead v tn (f 8 8) n .clean).2 = .ok b) → b.length = n →
      ∃ t, exec (.memRead e) s = .next t ∧ Answered e 0x0204 stOK n 0 b s t ∧ t.mem = s.mem) ∧
    (¬clear (f 8 8) n ∨ rangeReady s tn (f 8 8) n = .ok false →
      ∃ t, exec (.memRead e) s = .next t ∧ Waits e 0x0204 s.nextId s t ∧ t.mem = s.mem)) ∧
  (Admits spApertureMap e s → f 0 8 % 2097152 = 0 → f 8 8 % 2097152 = 0 → f 16 8 % 2097152 = 0 →
    f 16 8 + f 8 8 ≤ 2 ^ (funcOf s tn).barLog2 → mappedAll x (f 0 8) (f 8 8) = true →
    (∀ l ∈ leavesIn x (f 0 8) (f 8 8), ptePaged l.2.1.pte = false ∧ pteTier l.2.1.pte ≠ 3) →
    (∀ a ∈ x.apertures, a.1 + a.2.1 ≤ f 16 8 ∨ f 16 8 + f 8 8 ≤ a.1) →
    ∃ t, exec (.apertureMap e) s = .next t ∧
      GivesOk e 0x0205 (setTenant s tn { x with apertures := x.apertures ++ [(f 16 8, f 8 8, f 0 8)] }) s t) ∧
  (∀ w, Admits spApertureUnmap e s → x.apertures = [(f 0 8, f 8 8, w)] →
    ∃ t, exec (.apertureUnmap e) s = .next t ∧ GivesOk e 0x0206 (setTenant s tn { x with apertures := [] }) s t) ∧
  (∀ (l : Leaf) (big : Bool), Admits spMemQuery e s → f 0 8 < 2 ^ 48 → leafOf s tn (f 0 8) = some (l, big) →
    ∃ t, exec (.memQuery e) s = .next t ∧ Gives e 0x0207 stOK 4 (bodyOf [(0, 1, pteTier l.pte),
      (1, 1, b2n (pteRes l.pte) + 2 * b2n (ptePin l.pte) + 4 * b2n (ptePaged l.pte) + 8 * b2n (pteDirty l.pte)),
      (2, 1, pteBroken l.pte), (3, 1, if pteTier l.pte = 0 then stackOf (f 0 8) l big else 0)]) [] s s t) ∧
  (∀ fr, Admits spDistMap e s → f 0 8 % 2097152 = 0 → f 0 8 < 2 ^ 48 → leavesIn x (f 0 8) 2097152 = [] → s.grid.distFrame = some fr →
    ∃ t l, exec (.distMap e) s = .next t ∧ GivesOk e 0x0208 (setLeaf s tn (f 0 8) false l) s t ∧ l.dist = true ∧
      l.pte = BitVec.ofNat 64 (1 + 2 + 16 + 32 + fr * 2097152))

/-- R419: PROG_LOAD collects the parts of an image and, with the last, checks it, maps it and measures it, and the
tenant's cores drop their cached instructions (R151); PROG_UNLOAD refuses a program
in use and unmaps the others; WEIGHT_LOAD of resident pages extends the digest of its set. -/
def Claims.Programs : Prop := ∀ (s : State) (e : Entry),
  let tn := targetOf e
  let x := tenantOf s tn
  let f := fun (o n : Nat) => fld e.body o n
  let n := e.payloadLength.toNat
  let part := e.data.take n
  (Admits spProgLoad e s → f 16 4 + n ≤ 268435456 → f 8 4 = 0 → f 16 4 = 0 →
    let p := freeNo x.progs
    (f 12 1 = 0 → ∃ t, exec (.progLoad e) s = .next t ∧
      Gives e 0x0300 stOK 4 (bodyOf [(0, 4, p)]) [] (setProg s tn p { got := (progOf s tn p).got ++ part }) s t) ∧
    (f 12 1 = 1 → (progOf s tn p).got = [] →
      ∃ t, exec (.progLoad e) s = .next t ∧ match Config.parseImage part with
        | none => Gives e 0x0300 stIntegrity 0 0 [] (dropProg s tn p) s t
        | some (gen, segs) =>
          if gen ≠ 4 then Gives e 0x0300 stBadVersion 0 0 [] (dropProg s tn p) s t
          else match placeSegs tn segs s with
            | none => Gives e 0x0300 stNoResource 0 0 [] (dropProg s tn p) s t
            | some u => ∃ y, Gives e 0x0300 stOK 4 (bodyOf [(0, 4, p)]) [] (setProg { u with cores := u.cores.map fun k =>
                (k.1, if k.2.tenant == some tn then { k.2 with icache := [] } else k.2) } tn p y) s t ∧ y.loaded = true ∧
                y.digest = Config.sha384 part ∧ y.at_ = s.ftime)) ∧
  (Admits spProgUnload e s → (tabFind x.progs (f 0 4)).isSome = true →
    (progUsed s tn (f 0 4) = true → ∃ t, exec (.progUnload e) s = .next t ∧ Refuses e 0x0301 stDenied s t) ∧
    (progUsed s tn (f 0 4) = false → (∀ b ∈ s.hostWait, b.tenant ≠ tn) →
      ((progOf s tn (f 0 4)).segs = [] → (∀ v ∈ s.invals, v.cmd ≠ s.nextId) →
        ∃ t, exec (.progUnload e) s = .next t ∧ GivesOk e 0x0301 { dropProg s tn (f 0 4) with nextId := s.nextId + 1 } s t) ∧
      (∀ g, (progOf s tn (f 0 4)).segs = [g] → leavesIn x g.1 g.2 ≠ [] →
        ∃ t, exec (.progUnload e) s = .next t ∧ Waits e 0x0301 s.nextId s t ∧ tabFind (tenantOf t tn).progs (f 0 4) = none ∧
          ∀ y ∈ leavesIn x g.1 g.2, leafOf t tn y.1 = none))) ∧
  (Admits spWeightLoad e s → mappedAll x (f 24 8) n = true → f 8 4 = 0 → f 16 8 = 0 → f 12 1 ≤ 1 →
    rangeReady s tn (f 24 8) n = .ok false → ∃ t, exec (.weightLoad e) s = .next t ∧ Waits e 0x0302 s.nextId s t ∧ t.tenants = s.tenants ∧
      t.mem = s.mem) ∧
  (Admits spWeightLoad e s → mappedAll x (f 24 8) n = true → f 8 4 = 0 → f 16 8 = 0 → f 12 1 ≤ 1 →
    (∀ b ∈ s.hostWait, b.tenant ≠ tn ∨ b.va + b.len ≤ f 24 8 ∨ f 24 8 + n ≤ b.va) → setSoFar s tn (freeSet s tn) = none →
    rangeReady s tn (f 24 8) n = .ok true →
    (∀ v, v = { s with funcs := v.funcs, nextId := v.nextId, tenants := v.tenants } → (∀ a, leafOf v tn a = leafOf s tn a) →
      (vaWrite v tn (f 24 8) part .clean).2 = none) →
    let p := freeSet s tn
    ∃ t w, exec (.weightLoad e) s = .next t ∧ Answered e 0x0302 stOK 4 (bodyOf [(0, 4, p)]) [] s t ∧
      tabFind (tenantOf t tn).weights p = some w ∧ w.off = n ∧ w.final = decide (f 12 1 = 1) ∧
      if f 12 1 = 1 then w.digest = Config.sha384 part ∧ w.at_ = s.ftime else w.got = part)

/-- R217, R225 to R227, R419: TABLE_CREATE takes a table with its shard map; TABLE_INSTALL places one shard of a version on its owner,
where it has memory and version numbers for it (log entry 165);
TABLE_COMMIT makes a version current in one step; TABLE_DESTROY frees the table, at once where no LOOKUP pins it. -/
def Claims.TableCommands : Prop := ∀ (s : State) (e : Entry),
  let tn := targetOf e
  let f := fun (o n : Nat) => fld e.body o n
  let d : BitVec 256 := unit 256 e.data 0
  let ws := (List.range (field d 128 12)).map (shardWord e)
  (Admits spTableCreate e s → e.data.length = e.payloadLength.toNat → e.data.length = 32 + 16 * field d 128 12 →
    tableBad d ws = false → tableOf s tn (field d 0 12) = none →
    ∃ t y v, exec (.tableCreate e) s = .next t ∧ Gives e 0x0310 stOK 2 (bodyOf [(0, 2, field d 0 12)]) [] (setTable s tn (field d 0 12) y) s t ∧
      y.fmt = field d 12 4 ∧ y.np = field d 16 5 + 1 ∧ y.train = d.getLsbD 21 ∧ y.nrows = field d 64 40 ∧ y.schan = field d 140 12 ∧
      y.shards = ws.map shardEntry ∧ y.versions = [v] ∧ v.version = 0 ∧ y.current = 0) ∧
  (∀ x : Table, tableOf s tn (f 0 2) = some x → x.doomed = false →
    (Admits spTableInstall e s → f 8 8 % 2097152 = 0 → f 2 2 < x.shards.length →
      let own := (x.shards.getD (f 2 2) (0, 0, 0, 0)).2.1 = s.fabric.modid
      (¬own ∨ scatterHeld s tn x = true → hasRoom s tn x (f 4 2) (f 2 2) (f 8 8) = true →
        (versionOf x (f 4 2)).isSome = true ∨ x.versions.length < 32767 →
        ∃ t, exec (.tableInstall e) s = .next t ∧ Refuses e 0x0311 stDenied s t) ∧
      (hasRoom s tn x (f 4 2) (f 2 2) (f 8 8) = false ∨
        versionOf x (f 4 2) = none ∧ 32767 ≤ x.versions.length →
        ∃ t, exec (.tableInstall e) s = .next t ∧ Refuses e 0x0311 stNoResource s t) ∧
      (own → scatterHeld s tn x = false → hasRoom s tn x (f 4 2) (f 2 2) (f 8 8) = true →
        versionOf x (f 4 2) = none → x.versions.length < 32767 →
        ∃ t, exec (.tableInstall e) s = .next t ∧ GivesOk e 0x0311 (setTable s tn (f 0 2) { x with versions := x.versions ++
          [{ version := f 4 2, nrows := x.nrows, bases := [(f 2 2, f 8 8)] }] }) s t) ∧
      (∀ k, own → scatterHeld s tn x = false → hasRoom s tn x (f 4 2) (f 2 2) (f 8 8) = true → versionOf x (f 4 2) = some k →
        x.versions = [k] → ∃ t, exec (.tableInstall e) s = .next t ∧ GivesOk e 0x0311 (setTable s tn (f 0 2)
          { x with versions := [{ k with bases := put k.bases (f 2 2) (f 8 8) }] }) s t)) ∧
    (∀ k, Admits spTableCommit e s → 0 < f 8 8 → f 8 8 < 2 ^ 40 → versionOf x (f 2 2) = some k → x.versions = [k] →
      (∀ h ∈ x.shards.zipIdx, h.1.2.1 = s.fabric.modid → (tabFind k.bases h.2).isSome = true) →
      ((∀ h ∈ x.shards, h.2.1 = s.fabric.modid ∨ inFabric s h.2.1 = true) →
        ∃ t, exec (.tableCommit e) s = .next t ∧ GivesOk e 0x0312 (setTable s tn (f 0 2)
          { x with versions := [{ k with nrows := f 8 8 }], current := f 2 2, nrows := f 8 8 }) s t) ∧
      ((∃ h ∈ x.shards, h.2.1 ≠ s.fabric.modid ∧ inFabric s h.2.1 = false) →
        ∃ t, exec (.tableCommit e) s = .next t ∧ Refuses e 0x0312 stUnreachable s t)) ∧
    (Admits spTableDestroy e s →
      (scatterHeld s tn x = true → ∃ t, exec (.tableDestroy e) s = .next t ∧ Refuses e 0x0313 stDenied s t) ∧
      (scatterHeld s tn x = false → pinned s tn (f 0 2) none = false →
        ∃ t, exec (.tableDestroy e) s = .next t ∧
          GivesOk e 0x0313 (setTenant s tn { tenantOf s tn with tables := del (tenantOf s tn).tables (f 0 2) }) s t) ∧
      (scatterHeld s tn x = false → pinned s tn (f 0 2) none = true →
        ∃ t, exec (.tableDestroy e) s = .next t ∧ Waits e 0x0313 (f 0 2 + 65536 * tn) s t ∧
          tableOf t tn (f 0 2) = some { x with doomed := true })))

/-- The commands of programs and weights, and of embedding tables. -/
def Obligations.ProgramsAndTables : Prop := Claims.Programs ∧ Claims.TableCommands

/-- R196, R198, R206, R209, R384, R417: JOB_CREATE gives the lowest free handle; scale records, optimizer descriptors (written to the
step area, log entry 36) and masks are taken
until the job has started; JOB_START refuses a bad map or record, and starts the job at its step; JOB_STOP waits for the boundary or
stops at once, which answers one that waits as well (R408); JOB_QUERY reports and JOB_DESTROY ends a job that does not run. -/
def Claims.JobCommands : Prop := ∀ (s : State) (e : Entry),
  let tn := targetOf e
  let f := fun (o n : Nat) => fld e.body o n
  let m : BitVec 512 := unit 512 e.data 0
  (Admits spJobCreate e s → e.payloadLength.toNat = 64 + 2 * mapRanks m → f 24 8 % 2097152 = 0 → (leafOf s tn (f 24 8)).isSome = true →
    (∃ p, tabFind (tenantOf s tn).progs (f 32 4) = some p ∧ p.loaded = true) →
    ((∀ k, k < 256 → (jobOf s tn k).isSome = true) → ∃ t, exec (.jobCreate e) s = .next t ∧ Refuses e 0x0400 stNoResource s t) ∧
    (∀ k, k < 256 → jobOf s tn k = none → (∀ i, i < k → (jobOf s tn i).isSome = true) →
      ∃ t y, exec (.jobCreate e) s = .next t ∧ Gives e 0x0400 stOK 2 (bodyOf [(0, 2, k)]) [] (setJobRec s tn k y) s t ∧
        y.uid = BitVec.ofNat 64 (f 8 8) ∧ y.seed = BitVec.ofNat 64 (f 16 8) ∧ y.map = m ∧ y.stepVa = BitVec.ofNat 64 (f 24 8) ∧
        y.progId = f 32 4 ∧ y.st = .created ∧ y.started = false ∧
        y.ranks = (List.range (mapRanks m)).map fun i => le e.data (64 + 2 * i) 2)) ∧
  (∀ j : Job, jobOf s tn (f 8 2) = some j →
    (Admits spJobScale e s → e.payloadLength.toNat = 32 * f 11 1 → 0 < f 11 1 → f 10 1 + f 11 1 ≤ 64 →
      (∀ i, i < f 11 1 → scaleBad (unit 256 e.data i) = false) →
      (j.started = true → ∃ t, exec (.jobScale e) s = .next t ∧ Refuses e 0x0401 stDenied s t) ∧
      (j.started = false → ∃ t y, exec (.jobScale e) s = .next t ∧ Answered e 0x0401 stOK 0 0 [] s t ∧ jobOf t tn (f 8 2) = some y ∧
        y = { j with scales := y.scales } ∧
        ∀ i, i < f 11 1 → tabFind y.scales (f 10 1 + i) = some (scaleOf (unit 256 e.data i)))) ∧
    (Admits spJobOpt e s → e.payloadLength.toNat = 64 * f 16 4 → f 16 4 ≤ 16384 →
      (∀ i, i < f 16 4 → optBad (unit 512 e.data i) = false) → j.started = false →
      ∃ t y, exec (.jobOpt e) s = .next t ∧ GivesOk e 0x0402 (writeOpts (setJobRec s tn (f 8 2) y) tn y) s t ∧ y = { j with opts := y.opts } ∧
        ∀ i, i < f 16 4 → tabFind y.opts (f 12 4 + i) = some (unit 512 e.data i)) ∧
    (Admits spJobMask e s → e.payloadLength.toNat % 8 = 0 → j.started = false →
      ∃ t, exec (.jobMask e) s = .next t ∧ GivesOk e 0x0403 (setJobRec s tn (f 8 2) { j with
        masks := put j.masks (f 12 4) ((List.range (e.payloadLength.toNat / 8)).map (unit 64 e.data)) }) s t)) ∧
  (∀ j : Job, jobOf s tn (f 0 2) = some j →
    (Admits spJobStart e s →
      (jobMapBad s j = true ∨ recordsBad j = true → ∃ t, exec (.jobStart e) s = .next t ∧ Refuses e 0x0404 stBadField s t) ∧
      (jobMapBad s j = false → recordsBad j = false →
        (s.plover.evacuating = true ∨ j.st = .running ∨ j.broken = true →
          ∃ t, exec (.jobStart e) s = .next t ∧ Refuses e 0x0404 stDenied s t) ∧
        (s.plover.evacuating = false → j.st ≠ .running → j.broken = false →
          ((∃ k ∈ j.ranks, inFabric s k = false) → ∃ t, exec (.jobStart e) s = .next t ∧ Refuses e 0x0404 stUnreachable s t) ∧
          ((∀ k ∈ j.ranks, inFabric s k = true) →
            ∃ t y, exec (.jobStart e) s = .next t ∧ Answered e 0x0404 stOK 0 0 [] s t ∧ jobOf t tn (f 0 2) = some y ∧ y.st = .running ∧
              y.started = true ∧ y.step = BitVec.ofNat 64 (f 8 8) ∧ y.poisonMask = 0 ∧ y.decided = false)))) ∧
    (Admits spJobStop e s → f 2 1 ≤ 1 →
      (f 2 1 = 0 → j.st = .running → ∃ t, exec (.jobStop e) s = .next t ∧ Waits e 0x0405 (jobObj tn (f 0 2)) s t ∧
        jobOf t tn (f 0 2) = some { j with stopAtBoundary := true }) ∧
      (f 2 1 = 0 → j.st ≠ .running → ∃ t, exec (.jobStop e) s = .next t ∧
        GivesOk e 0x0405 (setJobRec s tn (f 0 2) { j with st := .stopped }) s t) ∧
      (f 2 1 = 1 → jobBusy s tn (f 0 2) = false → ∃ t, exec (.jobStop e) s = .next t ∧ Answered e 0x0405 stOK 0 0 [] s t ∧
        jobOf t tn (f 0 2) = some { j with st := .stopped, stopAtBoundary := false } ∧ t.mem = s.mem ∧
        ∀ c ∈ (funcOf s e.fn).owed, c.opcode = 0x0405 → c.obj = jobObj tn (f 0 2) → c.status = none →
          ∃ c2 ∈ (funcOf t e.fn).owed, c2.seq = c.seq ∧ c2.status = some stOK)) ∧
    (Admits spJobQuery e s → ∃ t, exec (.jobQuery e) s = .next t ∧ Gives e 0x0406 stOK 40 (bodyOf
      [(0, 1, match j.st with | .created => 0 | .running => 1 | .stopped => 2), (8, 8, j.step.toNat), (16, 8, j.applied.toNat),
       (24, 8, j.poisonMask.toNat), (32, 8, lastEpoch s tn j.uid)]) [] s s t) ∧
    (Admits spJobDestroy e s →
      (j.st = .running → ∃ t, exec (.jobDestroy e) s = .next t ∧ Refuses e 0x0407 stDenied s t) ∧
      (j.st ≠ .running → ∃ t, exec (.jobDestroy e) s = .next t ∧
        GivesOk e 0x0407 (setTenant s tn { tenantOf s tn with jobs := del (tenantOf s tn).jobs (f 0 2) }) s t)))

/-- R421, R439, R445, R446: CKPT_CONFIG sets how many epochs are kept, the buddy and the interval; CKPT_SECURE asks a running job for an
epoch; CKPT_LIST names the verified ones; CKPT_RESTORE puts an epoch back in place with its step, or marks the job broken and
answers why; CKPT_DELETE
never deletes the newest. -/
def Claims.CheckpointCommands : Prop := ∀ (s : State) (e : Entry) (j : Job),
  let tn := targetOf e
  let f := fun (o n : Nat) => fld e.body o n
  (jobOf s tn (f 0 2) = some j →
    (Admits spCkptConfig e s → 2 ≤ f 2 1 → f 2 1 ≤ 16 → 1000 ≤ f 8 4 → f 8 4 ≤ 86400000 →
      (f 4 2 = 0xFFFF ∨ (f 4 2 ≤ 1023 ∧ f 4 2 ≠ s.fabric.modid ∧ inFabric s (f 4 2) = true) →
        ∃ t, exec (.ckptConfig e) s = .next t ∧ Answered e 0x0600 stOK 0 0 [] s t ∧
          jobOf t tn (f 0 2) = some { j with ckpt := some (f 2 1, f 4 2, f 8 4) } ∧ t.mem = s.mem) ∧
      (f 4 2 ≤ 1023 → f 4 2 ≠ s.fabric.modid → inFabric s (f 4 2) = false →
        ∃ t, exec (.ckptConfig e) s = .next t ∧ Refuses e 0x0600 stUnreachable s t)) ∧
    (Admits spCkptSecure e s →
      (j.st = .running → ∃ t y, exec (.ckptSecure e) s = .next t ∧ Waits e 0x0601 (jobObj tn (f 0 2)) s t ∧
        jobOf t tn (f 0 2) = some y ∧ y.asked.isSome = true ∧ t.mem = s.mem) ∧
      (j.st ≠ .running → ∃ t, exec (.ckptSecure e) s = .next t ∧ Refuses e 0x0601 stDenied s t)) ∧
    (∀ x : Epoch, Admits spCkptRestore e s → f 2 1 = 0 → (ckptOr s tn j).epochs.find? (fun y => y.epoch == f 8 8) = some x →
      (j.st ≠ .stopped → ∃ t, exec (.ckptRestore e) s = .next t ∧ Refuses e 0x0603 stDenied s t) ∧
      (j.st = .stopped →
        let bad := (restoreAll s tn (ckptOr s tn j) j.uid false ((segsOf s tn j).zip x.entries)).2
        ∃ t y, exec (.ckptRestore e) s = .next t ∧
          Answered e 0x0603 (match bad with | none => stOK | some c => causeStatus c) 0 0 [] s t ∧ jobOf t tn (f 0 2) = some y ∧
          (bad = none → y.step = x.step ∧ y.applied = x.applied ∧ y.broken = false) ∧ (bad ≠ none → y.broken = true))) ∧
    (∀ c : Ckpt, Admits spCkptDelete e s → ckptOf s tn j.uid = some c → (c.epochs.any fun x => x.epoch == f 8 8) = true →
      (lastEpoch s tn j.uid = f 8 8 → ∃ t, exec (.ckptDelete e) s = .next t ∧ Refuses e 0x0604 stDenied s t) ∧
      (lastEpoch s tn j.uid ≠ f 8 8 → ∃ t y, exec (.ckptDelete e) s = .next t ∧ Answered e 0x0604 stOK 0 0 [] s t ∧
        y ∈ (tenantOf t tn).ckpts ∧ y.uid = c.uid ∧ y.epochs = c.epochs.filter (fun x => x.epoch != f 8 8) ∧ t.mem = s.mem))) ∧
  (jobOf s tn (f 8 2) = some j → Admits spCkptList e s →
    let data := match ckptOf s tn j.uid with | some c => c.epochs.flatMap listEntry | none => []
    (data.length ≤ e.payloadLength.toNat →
      ∃ t, exec (.ckptList e) s = .next t ∧ Gives e 0x0602 stOK data.length 0 data s s t) ∧
    (e.payloadLength.toNat < data.length →
      ∃ t, exec (.ckptList e) s = .next t ∧ Gives e 0x0602 stBadLength 4 (bodyOf [(0, 4, data.length)]) [] s s t))

/-- The commands of jobs, and of checkpoints. -/
def Obligations.JobsAndCheckpoints : Prop := Claims.JobCommands ∧ Claims.CheckpointCommands

/-- R366 to R368, R375, R420: CHAN_SETUP and CHAN_GROUP wait for the other side, unless its record has already come; CHAN_TEARDOWN
ends a channel and tells the other modules; CHAN_QUERY shows its entry and its counters. -/
def Claims.ChannelCommands : Prop := ∀ (s : State) (e : Entry),
  let tn := targetOf e
  let f := fun (o n : Nat) => fld e.body o n
  let cfg := cfgOf tn (f 1 1) (f 2 1) (f 3 1) (f 6 1) (f 7 1) (f 4 2) 0 false
  (Admits spChanSetup e s → f 0 1 = 0 → setupBad true (f 1 1) (f 2 1) (f 3 1) (f 6 1) (f 7 1) = false → f 4 2 ≤ 1023 →
    f 4 2 ≠ s.fabric.modid → jobBad s tn (f 16 2) = false →
    (∀ st, setupStart s tn (f 1 1 == 1) [f 4 2] = .error st → ∃ t, exec (.chanSetup e) s = .next t ∧ Refuses e 0x0500 st s t) ∧
    (∀ c, setupStart s tn (f 1 1 == 1) [f 4 2] = .ok c →
      ((∀ q ∈ s.setups, q.far = none) →
        ∃ t q, exec (.chanSetup e) s = .next t ∧ Waits e 0x0500 c s t ∧ t.setups = s.setups ++ [q] ∧ q.chan = c ∧ q.far = none ∧
          q.tag = BitVec.ofNat 32 (f 8 4) ∧ q.cfg = cfg ∧ q.since = s.ftime ∧
          (let u := sendSetup { s with setups := s.setups ++ [q] } q
           t.fabric = u.fabric ∧ t.links = u.links ∧ t.dies = u.dies) ∧ t.chans = s.chans) ∧
      (∀ (q : Setup) (pc : Nat), s.setups = [q] → inWindow s q = true → q.far = some (f 4 2, pc) → q.tag = BitVec.ofNat 32 (f 8 4) → q.cfg.red = false →
        q.cfg.mc = false → pairStatus cfg q.cfg (uidOf s tn (f 16 2)) q.uid = stOK →
        ∃ t, exec (.chanSetup e) s = .next t ∧ Answered e 0x0500 stOK 2 (bodyOf [(0, 2, c)]) [] s t ∧ t.setups = [] ∧
          chanOf t c = { valid := true, cfg := { cfg with peerChan := BitVec.ofNat 12 pc }, job := BitVec.ofNat 16 (f 16 2) } ∧
          t.mem = s.mem))) ∧
  (Admits spChanSetup e s → f 0 1 = 2 → setupBad false (f 1 1) (f 2 1) (f 3 1) (f 6 1) (f 7 1) = false → f 4 2 ≤ 1023 →
    f 4 2 ≠ s.fabric.modid → f 12 4 ≤ 16777216 → jobBad s tn (f 16 2) = false →
    ∀ c, setupStart s tn (f 1 1 == 1) [f 4 2] = .ok c →
      ∃ t q, exec (.chanJoin e) s = .next t ∧ Waits e 0x0500 c s t ∧ t.setups = s.setups ++ [q] ∧ q.chan = c ∧ q.cfg = cfg ∧
        q.fanin = f 12 4 ∧
        (let u := sendSetup { s with setups := s.setups ++ [q] } q
         t.fabric = u.fabric ∧ t.links = u.links ∧ t.dies = u.dies) ∧ t.chans = s.chans) ∧
  (Admits spChanGroup e s → e.payloadLength.toNat % 2 = 0 → e.payloadLength.toNat ≤ 2048 →
    setupBad false (f 8 1) (f 9 1) (f 10 1) (f 11 1) (f 12 1) = false → f 20 4 ≤ 16777216 → f 26 2 ≤ 1023 ∨ 64512 ≤ f 26 2 →
    (∀ k ∈ memberIds e, k ≤ 1023) → (memberIds e).Nodup → jobBad s tn (f 24 2) = false →
    ∀ c, setupStart s tn (f 8 1 == 1) ((memberIds e).filter (· != s.fabric.modid)) = .ok c → (∀ q ∈ s.setups, q.far = none) →
      (memberIds e).filter (· != s.fabric.modid) ≠ [] →
      ∃ t q, exec (.chanGroup e) s = .next t ∧ Waits e 0x0501 c s t ∧ t.setups = s.setups ++ [q] ∧ q.chan = c ∧ q.cfg.root = true ∧
        q.cfg.aexp = BitVec.ofNat 10 (f 26 2) ∧ q.fanin = f 20 4 ∧ q.members = (memberIds e).filter (· != s.fabric.modid) ∧
        t.chans = s.chans) ∧
  (∀ x : Chan, chanOf s (f 0 2) = x → x.valid = true → x.cfg.tenant.toNat = tn →
    (Admits spChanTeardown e s → x.ended = false →
      ∃ t, exec (.chanTeardown e) s = .next t ∧ Answered e 0x0502 stOK 0 0 [] s t ∧ (chanOf t (f 0 2)).ended = true ∧
        (chanOf t (f 0 2)).endedAt = s.ftime ∧ t.mem = s.mem ∧
        (let u := (chanModules x).foldl (fun s m => fabSend s 10 m.1 [m.2, 0]) (endLocal s (f 0 2) 0)
         t.fabric = u.fabric ∧ t.links = u.links ∧ t.dies = u.dies)) ∧
    (Admits spChanQuery e s →
      ∃ t, exec (.chanQuery e) s = .next t ∧ Gives e 0x0503 stOK 48 (bodyOf [(0, 20, chanWord x),
        (24, 8, look 0 x.counters chSeqDiscard), (32, 8, look 0 x.counters chEndedDiscard), (40, 8, look 0 x.counters chSigDiscard)])
        [] s s t))

/-- R321 to R323, R336 to R338, R420: DMA_ALLOT gives a free channel that is not Uango's, at its reset values; DMA_CTRL pauses, resumes,
aborts, resets and submits; a channel with nothing in progress does so at once, one with work answers PENDING; DMA_STATUS reports and
DMA_RELEASE takes the channel away. -/
def Claims.DmaCommands : Prop := ∀ (s : State) (e : Entry),
  let tn := targetOf e
  let f := fun (o n : Nat) => fld e.body o n
  let c := f 0 2
  let d := dmaOf s c
  (Admits spDmaAllot e s → c < 256 → 2 ≤ f 2 1 → f 2 1 ≤ 12 → f 3 1 ≤ 63 → f 4 1 ≤ 1 → f 8 8 < 2 ^ 48 → f 16 8 < 2 ^ 48 →
    f 8 8 % (64 * 2 ^ f 2 1) = 0 → f 16 8 % (32 * 2 ^ f 2 1) = 0 →
    (c < 128 ∧ c % 8 = 7 → (dmaHeld s tn).length < (tenantOf s tn).maxDma → ∃ t, exec (.dmaAllot e) s = .next t ∧ Refuses e 0x0510 stDenied s t) ∧
    (¬(c < 128 ∧ c % 8 = 7) →
      ((tenantOf s tn).maxDma ≤ (dmaHeld s tn).length ∨ d.held = true →
        ∃ t, exec (.dmaAllot e) s = .next t ∧ Refuses e 0x0510 stNoResource s t) ∧
      ((dmaHeld s tn).length < (tenantOf s tn).maxDma → d.held = false →
        ∃ t, exec (.dmaAllot e) s = .next t ∧ Gives e 0x0510 stOK 2 (bodyOf [(0, 2, c)]) [] (setDma s c
          { held := true, ringVa := BitVec.ofNat 48 (f 8 8), cmplVa := BitVec.ofNat 48 (f 16 8), ringLog2 := BitVec.ofNat 4 (f 2 1)
            tenant := BitVec.ofNat 6 tn, ivec := BitVec.ofNat 6 (f 3 1), hostirq := f 4 1 == 1 }) s t))) ∧
  (c < 256 → holdsDma s tn c = true →
    (Admits spDmaCtrl e s →
      (f 2 1 = 0 → f 8 2 = 0 →
        (d.st = .stopped → ∃ t, exec (.dmaPause e) s = .next t ∧ Refuses e 0x0512 stDenied s t) ∧
        (d.st ≠ .stopped → d.st ≠ .paused → d.aborting = false → d.work = [] →
          ∃ t, exec (.dmaPause e) s = .next t ∧ Answered e 0x0512 stOK 0 0 [] s t ∧ (dmaOf t c).st = .paused ∧ t.mem = s.mem) ∧
        (d.st ≠ .stopped → d.st ≠ .paused → d.aborting = false → d.work ≠ [] →
          ∃ t, exec (.dmaPause e) s = .next t ∧ Waits e 0x0512 (dmaObj c 0) s t ∧ dmaOf t c = { d with st := .pausing } ∧ t.mem = s.mem)) ∧
      (f 2 1 = 1 → f 8 2 = 0 →
        (d.st = .paused → ∃ t, exec (.dmaResume e) s = .next t ∧ GivesOk e 0x0512 (setDma s c { d with st := .run }) s t) ∧
        (d.st ≠ .paused → ∃ t, exec (.dmaResume e) s = .next t ∧ Refuses e 0x0512 stDenied s t)) ∧
      (f 2 1 = 2 → f 8 2 = 0 →
        (d.st = .idle ∨ d.st = .starved → d.work = [] → d.resetAfter = false → d.releaseAfter = false →
          ∃ t, exec (.dmaAbort e) s = .next t ∧ Answered e 0x0512 stOK 0 0 [] s t ∧ (dmaOf t c).st = .stopped ∧
            (dmaOf t c).err = (if d.err = 0 then 0x50 else d.err) ∧ t.mem = s.mem) ∧
        (d.st = .run → d.work ≠ [] →
          ∃ t, exec (.dmaAbort e) s = .next t ∧ Waits e 0x0512 (dmaObj c 2) s t ∧ dmaOf t c = { d with aborting := true } ∧ t.mem = s.mem)) ∧
      (f 2 1 = 3 → f 8 2 = 0 →
        (d.st = .idle ∨ d.st = .stopped → d.counts = [] →
          ∃ t, exec (.dmaReset e) s = .next t ∧ Answered e 0x0512 stOK 0 0 [] s t ∧ t.mem = s.mem ∧
            dmaOf t c = { d with ci := d.pi, done := 0, err := 0, crc := 0xFFFFFFFF, st := .idle, work := [], aborting := false
                                 resetAfter := false, waitFrom := none }) ∧
        (d.st = .run → d.work ≠ [] →
          ∃ t, exec (.dmaReset e) s = .next t ∧ Waits e 0x0512 (dmaObj c 3) s t ∧
            dmaOf t c = { d with aborting := true, resetAfter := true } ∧ t.mem = s.mem)) ∧
      (f 2 1 = 4 →
        let n : Half := BitVec.ofNat 16 (f 8 2)
        (d.st = .stopped → ∃ t, exec (.dmaSubmit e) s = .next t ∧ Refuses e 0x0512 stDenied s t) ∧
        (d.st ≠ .stopped → idxDist d.pi d.ci ≤ idxDist n d.ci → idxDist n d.ci ≤ 2 ^ d.ringLog2.toNat →
          ∃ t, exec (.dmaSubmit e) s = .next t ∧ Answered e 0x0512 stOK 0 0 [] s t ∧ (dmaOf t c).pi = n ∧ (dmaOf t c).ci = d.ci ∧
            (d.st = .idle → n ≠ d.pi → (dmaOf t c).st = .run) ∧ t.mem = s.mem))) ∧
    (Admits spDmaStatus e s → ∃ t, exec (.dmaStatus e) s = .next t ∧
      Gives e 0x0513 stOK 24 (bodyOf [(0, 8, d.pi.toNat + 2 ^ 16 * d.ci.toNat),
        (8, 8, dmaStCode d.st + 2 ^ 8 * d.err.toNat + 2 ^ 16 * (doneNow d % 2 ^ 24)), (16, 8, (crcNow d).toNat)]) [] s s t) ∧
    (Admits spDmaRelease e s →
      (d.st = .idle → d.work = [] → d.resetAfter = false →
        ∃ t, exec (.dmaRelease e) s = .next t ∧ Answered e 0x0511 stOK 0 0 [] s t ∧ tabFind t.dma c = none ∧ t.mem = s.mem) ∧
      (d.st = .run → d.work ≠ [] →
        ∃ t, exec (.dmaRelease e) s = .next t ∧ Waits e 0x0511 c s t ∧ dmaOf t c = { d with aborting := true, releaseAfter := true }))) ∧
  (c < 256 → holdsDma s tn c = false →
    (Admits spDmaStatus e s → ∃ t, exec (.dmaStatus e) s = .next t ∧ Refuses e 0x0513 stDenied s t) ∧
    (Admits spDmaRelease e s → ∃ t, exec (.dmaRelease e) s = .next t ∧ Refuses e 0x0511 stDenied s t))

/-- The commands of channels, and of DMA channels. -/
def Obligations.ChannelAndDmaCommands : Prop := Claims.ChannelCommands ∧ Claims.DmaCommands

/-- R26, R353, R378, R422, R448, R451, R468, R478, R482: what the maintenance and query commands of the PF and of every function answer
and set. -/
def Claims.ServiceCommands : Prop := ∀ (s : State) (e : Entry),
  let tn := targetOf e
  let f := fun (o n : Nat) => fld e.body o n
  let n := e.payloadLength.toNat
  (Admits spAttestGet e s →
    let r := attestReport s tn (f 8 32)
    (s.drover.identity = false → ∃ t, exec (.attestGet e) s = .next t ∧ 
      Gives e 0x0700 stInternal 0 0 [] { s with telem := { s.telem with failed := s.telem.failed + 1 } } s t) ∧
    (s.drover.identity = true → ∃ t, exec (.attestGet e) s = .next t ∧
      if r.length ≤ n then Gives e 0x0700 stOK r.length 0 r s s t
      else Gives e 0x0700 stBadLength 4 (bodyOf [(0, 4, r.length)]) [] s s t)) ∧
  (Admits spTelemRead e s → 0 < f 8 2 → f 8 2 ≤ 11 → f 10 1 < 64 ∨ f 10 1 = 0xFF →
    let who := if f 10 1 = 0xFF then tn else f 10 1
    (e.fn ≠ 0 ∧ who ≠ tn ∨ setRecords s (f 8 2) who (e.fn == 0) (who == tn) = none →
      ∃ t, exec (.telemRead e) s = .next t ∧ Refuses e 0x0800 stDenied s t) ∧
    (∀ rs u, e.fn = 0 ∨ who = tn → setRecords s (f 8 2) who (e.fn == 0) (who == tn) = some (rs, u) →
      (telemData s (f 8 2) rs).length ≤ n →
      ∃ t, exec (.telemRead e) s = .next t ∧
        Gives e 0x0800 stOK (telemData s (f 8 2) rs).length 0 (telemData s (f 8 2) rs) u s t)) ∧
  (Admits spTelemRate e s → f 0 1 ≤ 1 → ∃ t, exec (.telemRate e) s = .next t ∧
    GivesOk e 0x0801 { s with drover := { s.drover with fineRate := f 0 1 == 1 } } s t) ∧
  (Admits spCoreMap e s →
    let d := toBytes 16 (s.grid.mapVersion.toNat + 2 ^ 16 * 352) ++ (List.range 352).flatMap fun c => toBytes 4 (coreMapWord s c)
    d.length ≤ n → ∃ t, exec (.coreMap e) s = .next t ∧ Gives e 0x0802 stOK d.length 0 d s s t) ∧
  (Admits spPloverSet e s → f 0 1 < f 1 1 → f 1 1 < f 2 1 → ∃ t, exec (.ploverSet e) s = .next t ∧
    GivesOk e 0x0803 { s with plover := { s.plover with watch := BitVec.ofNat 8 (f 0 1), secure := BitVec.ofNat 8 (f 1 1)
                                                        evacuate := BitVec.ofNat 8 (f 2 1) } } s t) ∧
  (Admits spTimeSet e s → s.ftime ≤ f 0 8 →
    (isTimeRoot s = true → ∃ t, exec (.timeSet e) s = .next t ∧ GivesOk e 0x0804 (stepTo s (f 0 8)) s t) ∧
    (isTimeRoot s = false → ∃ t, exec (.timeSet e) s = .next t ∧ Refuses e 0x0804 stDenied s t)) ∧
  (Admits spFwStage e s → e.data.length = n → 50331648 < f 8 4 + n →
    ∃ t, exec (.fwStage e) s = .next t ∧ Refuses e 0x0900 stBadLength s t) ∧
  (Admits spFwStage e s → e.data.length = n → f 8 4 = 0 ∨ f 8 4 = s.drover.staged.length → f 8 4 + n ≤ 50331648 →
    let got := if f 8 4 = 0 then e.data else s.drover.staged ++ e.data
    (f 12 1 = 0 → ∃ t, exec (.fwStage e) s = .next t ∧
      GivesOk e 0x0900 { s with drover := { s.drover with staged := got, stagedOk := false } } s t) ∧
    (f 12 1 = 1 → ∃ t, exec (.fwStage e) s = .next t ∧
      let dropped := { s with drover := { s.drover with staged := [], stagedOk := false } }
      if Config.imageSigned got = false then Gives e 0x0900 stIntegrity 0 0 [] dropped s t
      else if Config.imageReadsHandover got = false then Gives e 0x0900 stBadField 0 0 [] dropped s t
      else Answered e 0x0900 stOK 0 0 [] s t ∧ t.drover.stagedOk = true ∧ t.drover.staged = [] ∧
        imageIn t (!s.drover.slotB) = got ∧ imageIn t s.drover.slotB = imageIn s s.drover.slotB ∧ t.drover.slotB = s.drover.slotB)) ∧
  (Admits spFwActivate e s →
    (s.drover.stagedOk = false → ∃ t, exec (.fwActivate e) s = .next t ∧ Refuses e 0x0901 stIntegrity s t) ∧
    (s.drover.stagedOk = true → ∃ t, exec (.fwActivate e) s = .next t ∧ Waits e 0x0901 9 s t ∧ t.drover.switching = true ∧
      ((∀ g ∈ s.funcs, g.2.owed = [] ∧ g.2.rspWait = []) → (funcOf t 0).fstate = .updating))) ∧
  (Admits spFwQuery e s → ∃ t, exec (.fwQuery e) s = .next t ∧
    Gives e 0x0902 stOK 10 (bodyOf [(0, 4, (buildOf s false).toNat), (4, 4, (buildOf s true).toNat), (8, 1, b2n s.drover.slotB),
      (9, 1, b2n s.drover.stagedOk)]) [] s s t) ∧
  (Admits spLinkCtrl e s → f 0 1 ≤ 31 →
    let x := linkOf s (f 0 1)
    (f 1 1 = 0 → ∃ t, exec (.linkDisable e) s = .next t ∧ Answered e 0x0903 stOK 0 0 [] s t ∧ (linkOf t (f 0 1)).st = .disabled ∧
      (linkOf t (f 0 1)).byUango = true ∧ (linkOf t (f 0 1)).lanes = 0 ∧ t.mem = s.mem) ∧
    (f 1 1 = 1 → x.st = .disabled → x.scanHeld = false → ∃ t, exec (.linkEnable e) s = .next t ∧
      GivesOk e 0x0903 (setLink s (f 0 1) { x with byUango := false, trainFails := 0, st := .train }) s t) ∧
    (f 1 1 = 1 → x.st ≠ .disabled → ∃ t, exec (.linkEnable e) s = .next t ∧ GivesOk e 0x0903 s s t) ∧
    (f 1 1 = 2 → x.st = .up → x.retrainTimes = [] → ∃ t, exec (.linkRetrain e) s = .next t ∧ Answered e 0x0903 stOK 0 0 [] s t ∧
      (linkOf t (f 0 1)).st = .retrain ∧ t.mem = s.mem) ∧
    (f 1 1 = 2 → x.st ≠ .up → ∃ t, exec (.linkRetrain e) s = .next t ∧ GivesOk e 0x0903 s s t)) ∧
  (Admits spModEvacuate e s →
    (s.tenants = [] → ∃ t, exec (.modEvacuate e) s = .next t ∧
      GivesOk e 0x0904 { s with plover := { s.plover with evacuating := true } } s t) ∧
    (∀ (m k : Nat) (x : Tenant) (j : Job), s.tenants = [(m, x)] → x.jobs = [(k, j)] → j.st = .running →
      ∃ t y, exec (.modEvacuate e) s = .next t ∧ Waits e 0x0904 1 s t ∧ t.plover.evacuating = true ∧ jobOf t m k = some y ∧
        y.evacuate = true ∧ y.asked.isSome = true ∧ t.mem = s.mem))

/-- R460, R461, R464: KEY_ROTATE of the memory keys draws a new generation, and each sector of each frame of the tenant is re-encrypted in
turn; after the last one the frame is under the new generation, and after the last frame the rotation is over; a sector that fails its
check is left as it is. KEY_ROTATE of the link keys starts a rekey of every keyed link in UP. -/
def Claims.KeyRotation : Prop := ∀ (s : State) (e : Entry),
  let tn := targetOf e
  let x := tenantOf s tn
  let fs := (s.frames.filter fun f => f.2.keyTag.toNat == tn).map (·.1)
  (Admits spKeyRotate e s → fld e.body 0 1 = 0 →
    (s.drover.drbgOk = false ∨ x.keys.rotating = true → ∃ t, exec (.keyRotateMemory e) s = .next t ∧ Refuses e 0x0701 stRetryLater s t) ∧
    (s.drover.drbgOk = true → x.keys.rotating = false →
      (fs = [] → ∃ t, exec (.keyRotateMemory e) s = .next t ∧ GivesOk e 0x0701 (setTenant s tn { x with keys := { x.keys with
        gen := !x.keys.gen, rotating := false, left := [] } }) s t) ∧
      (fs ≠ [] → ∃ t, exec (.keyRotateMemory e) s = .next t ∧ Waits e 0x0701 (2 + tn) s t ∧
        (tenantOf t tn).keys = { x.keys with gen := !x.keys.gen, rotating := true, left := fs } ∧ t.mem = s.mem))) ∧
  (Admits spKeyRotate e s → fld e.body 0 1 = 1 →
    (e.fn ≠ 0 → ∃ t, exec (.keyRotateLink e) s = .next t ∧ Refuses e 0x0701 stDenied s t) ∧
    (e.fn = 0 → s.drover.drbgOk = true → ∃ t, exec (.keyRotateLink e) s = .next t ∧ GivesOk e 0x0701 { s with links := t.links } s t ∧
      ∀ l, linkOf t l = if (linkOf s l).st = .up ∧ (linkOf s l).keyed = true ∧ (linkOf s l).rekeying = false
        then { linkOf s l with rekeying := true, keyStage := 0 } else linkOf s l)) ∧
  (∀ (m fr : Nat) (y : Tenant) (k : Frame), m < 64 → s.tenants = [(m, y)] → y.keys.rotating = true → y.keys.left = [fr] →
    look ({} : Frame) s.frames fr = k → k.keyTag.toNat = m → (∀ g ∈ s.frames, g.1 ≠ fr → g.2.rot = false) →
    let pa := fr * 2097152 + (if k.rot then k.cursor.toNat else 0) * 512
    fr < 524288 →
    (stateError s pa 512 = none → k.rot = false ∨ k.cursor ≠ 4095 →
      ∃ t, exec (.keyRotationSector fr .clean) s = .next t ∧ t.mem = s.mem ∧
        look ({} : Frame) t.frames fr = { k with rot := true, cursor := (if k.rot then k.cursor else 0) + 1 } ∧
        tenantOf t m = y) ∧
    (stateError s pa 512 = none → k.rot = true → k.cursor = 4095 →
      ∃ t, exec (.keyRotationSector fr .clean) s = .next t ∧ t.mem = s.mem ∧
        look ({} : Frame) t.frames fr = { k with gen := !k.gen, rot := false, cursor := 0 } ∧
        (tenantOf t m).keys = { y.keys with rotating := false, left := [] }) ∧
    (∀ c, stateError s pa 512 = some c → k.rot = true → k.cursor ≠ 4095 →
      ∃ t, exec (.keyRotationSector fr .clean) s = .next t ∧ t.mem = s.mem ∧
        look ({} : Frame) t.frames fr = { k with cursor := k.cursor + 1, recorded := true } ∧ tenantOf t m = y))

/-- The maintenance and query commands, and KEY_ROTATE. -/
def Obligations.ServiceCommands : Prop := Claims.ServiceCommands ∧ Claims.KeyRotation

/-! ## The fabric (16, 17) -/

/-- R359 to R361: a module takes the lower serial, and of one serial the fewer hops, returns to its own pair beyond 32 hops, and sends a
change on; the module with no lower serial acts as Bellwether once it has settled, and counts itself present; a newer map is stored, an
older one is not; the acting Bellwether gives a joining module its own ID, or the lowest that was never assigned. -/
def Claims.BellwetherAndMap : Prop := ∀ (s : State) (h : FrameHdr),
  let l := h.link
  FrameAccepted h s → h.vc = 0 →
  (∀ (serial : Word64) (hops : Nat),
    let p := bwPair s
    let better := serial.toNat < p.1.toNat ∨ serial = p.1 ∧ hops + 1 < p.2
    (better → hops < 32 →
      (∃ t, exec (.elect h serial hops) s = .next t ∧ t.fabric = { s.fabric with
        bwSerial := some serial, bwHops := hops + 1, bwLink := some l, acting := false, pairAt := s.ftime, sentTo := t.fabric.sentTo } ∧
        (linkOf t l).rxE = (linkOf s l).rxE + 1 ∧ t = { s with links := t.links, dies := t.dies, fabric := t.fabric }) ∧
      (upLinks s = [l] → (linkOf s l).failover = false → 0 < vcCredit (linkOf s l) 0 →
        ∃ t g, exec (.elect h serial hops) s = .next t ∧ (linkOf t l).txBuf = [g] ∧ g.kind = 9 ∧
          g.body = Config.fabRecord [0, serial.toNat, hops + 1])) ∧
    (better → 32 ≤ hops → ∃ t, exec (.elect h serial hops) s = .next t ∧ bwPair t = (Config.serialNo, 0) ∧ t.fabric.acting = false) ∧
    (¬better → ∃ t, exec (.elect h serial hops) s = .next t ∧ t.fabric = s.fabric ∧ (linkOf t l).rxE = (linkOf s l).rxE + 1)) ∧
  (h.dest.toNat = s.fabric.modid →
    (∀ (epoch : Word64) (es : List MapEntry) (gs : List LinkGroup), s.fabric.acting = false →
      (s.fabric.mapEpoch.toNat < epoch.toNat →
        ∃ t, exec (.map h epoch es gs) s = .next t ∧ t.fabric.map = es ∧ t.fabric.groups = gs ∧ t.fabric.mapEpoch = epoch ∧
          (s.far.readOnly = false → t.fabric.storedEpoch = epoch ∧ t.far.map = es ∧ t.far.mapEpoch = epoch) ∧ t.mem = s.mem ∧
          (∀ y, es.find? (fun y => y.present && y.serial == Config.serialNo) = some y → t.fabric.modid = y.modid)) ∧
      (epoch.toNat ≤ s.fabric.mapEpoch.toNat → ∃ t, exec (.map h epoch es gs) s = .next t ∧ t.fabric = s.fabric)) ∧
    (∀ (serial : Word64) (gs : List LinkGroup),
      (s.fabric.acting = false →
        exec (.join h serial none gs) s = .next (sendIdle (fabBw (intake h s) 2 (joinArgs serial none gs)) l)) ∧
      (∀ id, s.fabric.acting = true → pickId s.fabric.map serial = some id →
        ∃ t, exec (.join h serial none gs) s = .next t ∧ { modid := id, serial := serial, present := true } ∈ t.fabric.map ∧
          t.fabric.mapEpoch = s.fabric.mapEpoch + 1 ∧
          (s.far.readOnly = false → t.far.mapEpoch = t.fabric.mapEpoch ∧ t.far.map = t.fabric.map)))) ∧
  (h.dest.toNat ≠ s.fabric.modid → s.fabric.modv = true → ∀ (serial : Word64) (gs : List LinkGroup),
    exec (.join h serial none gs) s = .next (sendIdle (relay (intake h s) (decide (16 ≤ l)) h.rv
      { arrived (intake h s) h 9 (Config.fabRecord (2 :: joinArgs serial none gs)) with chan := 0 }) l)) ∧
  (∀ (serial : Word64) (id : Nat), (∀ y ∈ s.fabric.map, y.serial ≠ serial ∧ y.modid ≠ id) → id < 1024 →
    (∀ k, k < id → ∃ y ∈ s.fabric.map, y.modid = k) → pickId s.fabric.map serial = some id)

/-- R362 to R365, R374: a ROUTES record fills the spare table of its die, and READY follows once both dies hold the version; HOLD keeps new
bulk frames back, and DRAINED follows once none is left; COMMIT switches each die that holds the version, and the old table can then be
freed. -/
def Claims.Routing : Prop := ∀ (s : State),
  (∀ h : FrameHdr, FrameAccepted h s → h.vc = 0 → h.dest.toNat = s.fabric.modid →
    (∀ (b : Bool) (v : Half) (tab : List (Nat × Route)),
      let p := putSpare (intake h s) b v ((tab.filter fun e => e.1 < 1024).foldl (fun m e => put m e.1 e.2) [])
      ∃ t, exec (.routes h b v tab) s = .next t ∧
        (dieOf t b).spare = some (v, (tab.filter fun e => e.1 < 1024).foldl (fun m e => put m e.1 e.2) []) ∧
        (dieOf t b).cur = (dieOf s b).cur ∧ (dieOf t (!b)).spare = (dieOf s (!b)).spare ∧ t.mem = s.mem ∧
        t = sendIdle (if (dieOf s (!b)).spare.map (·.1) = some v then fabBw p 4 [s.fabric.modid, v.toNat] else p) h.link) ∧
    (s.fabric.acting = false → ∃ t, exec (.hold h) s = .next t ∧ t.fabric.holding = true ∧ t.mem = s.mem ∧
      ((∀ k ∈ s.links, ∀ f ∈ k.2.txBuf, f.vc = 0) → (∀ d ∈ s.dies, (∀ f ∈ d.2.queue, f.2.vc = 0) ∧ ∀ f ∈ d.2.mcWait, f.2.vc = 0) →
        t = sendIdle (fabBw { intake h s with fabric := { s.fabric with holding := true, drainSent := true } } 6 [s.fabric.modid]) h.link)) ∧
    (∀ src, s.fabric.acting = true → s.fabric.routeStage = 2 → (∃ m ∈ present s, m ≠ src ∧ m ∉ s.fabric.drainedFrom) →
      ∃ t, exec (.drained h src) s = .next t ∧ t.fabric = { s.fabric with drainedFrom := src :: s.fabric.drainedFrom }) ∧
    (∀ src, s.fabric.acting = false → ∃ t, exec (.drained h src) s = .next t ∧ t.fabric = s.fabric) ∧
    (∀ (v : Half) (tab : Tab Route), (dieOf s false).spare = some (v, tab) → (dieOf s true).spare = none → s.chans = [] →
      s.fabric.held = [] →
      ∃ t, exec (.commit h v) s = .next t ∧ (dieOf t false).cur = tab ∧ (dieOf t false).version = v ∧
        (dieOf t false).prev = (dieOf s false).cur ∧ (dieOf t false).hasPrev = true ∧ (dieOf t false).spare = none ∧
        (dieOf t true).cur = (dieOf s true).cur ∧ t.fabric.routeVersion = v ∧ t.fabric.holding = false ∧ t.mem = s.mem) ∧
    (∀ (src : Nat) (v : Half), s.setups = [] → s.fabric.acting = true → s.fabric.routeStage = 1 → v = s.fabric.routeNext →
      (∃ m ∈ present s, m ≠ src ∧ m ∉ s.fabric.readyFrom) →
      ∃ t, exec (.ready h src v) s = .next t ∧ t.fabric = { s.fabric with readyFrom := src :: s.fabric.readyFrom })) ∧
  (∀ b, (dieOf s b).hasPrev = true → holdsOld s b = false →
    ((dieOf s b).oldAt + 1000000 ≤ s.ftime → ∃ t, exec (.routeTableFree b) s = .next t ∧
      t = setDie s b { dieOf s b with prev := [], hasPrev := false }) ∧
    (s.ftime < (dieOf s b).oldAt + 1000000 → exec (.routeTableFree b) s = .next s)) ∧
  (s.fabric.bwSerial = none → s.fabric.acting = false → s.ftime < s.fabric.pairAt + 2000000 → exec .bellwetherSettle s = .next s) ∧
  (s.fabric.bwSerial = none → s.fabric.acting = false → s.fabric.modv = true → s.drover.outOfService = false →
    s.fabric.pairAt + 2000000 ≤ s.ftime →
    ∃ t, exec .bellwetherSettle s = .next t ∧ t.fabric.acting = true ∧ t.fabric.joined = true ∧
      (s.far.readOnly = false → t.far.map = t.fabric.map) ∧
      t.fabric.modid = s.fabric.modid ∧ { modid := s.fabric.modid, serial := Config.serialNo, present := true } ∈ t.fabric.map ∧
      t.fabric.mapEpoch = (if s.fabric.mapEpoch.toNat < s.fabric.storedEpoch.toNat then s.fabric.storedEpoch else s.fabric.mapEpoch) + 1 ∧
      t.mem = s.mem)

/-- The records of the Bellwether and of the routes. -/
def Obligations.FabricRecords : Prop := Claims.BellwetherAndMap ∧ Claims.Routing

/-- R366, R371, R375: a setup record of another module meets this module's own, which then is set up, or waits for it; an install record
gives a member its endpoint and is acknowledged, and READY completes the member's command; CEND and LOST end a channel, or roll a setup
back; a setup whose window has passed ends, and an ended ID becomes free after 400 ms. -/
def Claims.ChannelRecords : Prop := ∀ (s : State),
  (∀ h : FrameHdr, FrameAccepted h s → h.vc = 0 → h.dest.toNat = s.fabric.modid →
    let u := intake h s
    let l := h.link
    let me := s.fabric.modid
    (∀ (src sc : Nat) (tag : Word32) (cfg : ChanCfg) (fan : Nat) (uid : Word64),
      let wait : Setup := { chan := sc, far := some (src, sc), tag := tag, cfg := cfg, fanin := fan, uid := uid, since := s.ftime }
      (s.setups = [] → ∃ t, exec (.csetup h src sc tag cfg fan uid) s = .next t ∧ t.setups = [wait] ∧ t.chans = s.chans ∧ t.mem = s.mem) ∧
      (∀ q : Setup, s.setups = [q] → q.far = none → q.installing = false → q.tag = tag → q.cfg.root = false → q.cfg.red = false →
        q.cfg.mc = false → q.cfg.peer.toNat = src →
        (s.ftime < q.since + 1000000000 → pairStatus q.cfg cfg q.uid uid = stOK →
          ∃ t, exec (.csetup h src sc tag cfg fan uid) s = .next t ∧ t.setups = [] ∧ (chanOf t q.chan).valid = true ∧
            (chanOf t q.chan).cfg = { q.cfg with peer := BitVec.ofNat 10 src, peerChan := BitVec.ofNat 12 sc } ∧ t.mem = s.mem) ∧
        (q.since + 1000000000 ≤ s.ftime →
          ∃ t, exec (.csetup h src sc tag cfg fan uid) s = .next t ∧ t.setups = [q, wait] ∧ t.chans = s.chans))) ∧
    (∀ (c : Nat) (cfg : ChanCfg) (rm rc : Nat) (im om : BitVec 17), s.setups = [] → cfg.red = true → cfg.mc = false →
      cfg.mcback = false →
      let d := dieOf s cfg.plane
      let entry : TreeEntry := { inMask := (List.range 17).filter fun i => im.getLsbD i, out := outToward s cfg.plane rm, reserve := 4 }
      (c < 4096 → d.trees.length < 256 → dieReserved d + 4 ≤ 512 →
        ∃ p, exec (.cinstall h c cfg rm rc im om) s = .next (sendIdle (fabSend p 4 rm [me, rc]) l) ∧ (chanOf p c).valid = true ∧
          (chanOf p c).cfg = { cfg with root := false, peer := BitVec.ofNat 10 rm, peerChan := BitVec.ofNat 12 rc } ∧
          tabFind (dieOf p cfg.plane).trees (treeKey rm rc) = some entry ∧ p.fabric = s.fabric ∧ p.mem = s.mem) ∧
      (4096 ≤ c → im ≠ 0 → d.trees.length < 256 → dieReserved d + 4 ≤ 512 →
        ∃ p, exec (.cinstall h c cfg rm rc im om) s = .next (sendIdle (fabSend p 4 rm [me, rc]) l) ∧ p.chans = s.chans ∧
          tabFind (dieOf p cfg.plane).trees (treeKey rm rc) = some entry ∧ p.fabric = s.fabric ∧ p.mem = s.mem) ∧
      (c < 4096 → 256 ≤ d.trees.length →
        exec (.cinstall h c cfg rm rc im om) s = .next (sendIdle (fabSend u 10 rm [rc, 0x20]) l))) ∧
    (∀ (q : Setup) (src : Nat) (v : Half), s.setups = [q] → q.far = none → q.installing = true → q.cfg.root = false →
      q.cfg.peer.toNat = src → q.chan = v.toNat →
      ∃ t, exec (.ready h src v) s = .next t ∧ t.setups = [] ∧ t.chans = s.chans ∧ t.mem = s.mem) ∧
    (∀ (c : Nat) (r : Byte), c < 4096 → s.setups = [] → (chanOf s c).valid = true → (chanOf s c).ended = false →
      ((chanOf s c).cfg.root = false → ∃ t, exec (.cend h c r) s = .next t ∧ (chanOf t c).ended = true ∧ (chanOf t c).endedAt = s.ftime ∧
        t.fabric = s.fabric ∧ t.mem = s.mem) ∧
      ((chanOf s c).cfg.root = true → ∃ t, exec (.cend h c r) s = .next t ∧ (chanOf t c).ended = true ∧ t.mem = s.mem ∧
        t = sendIdle ((chanOf s c).via.foldl (fun s m => fabSend s 10 m.1 [m.2, r.toNat]) (endLocal u c r.toNat)) l) ∧
      (∃ t, exec (.lost h c) s = .next t ∧ (chanOf t c).ended = true ∧ t.mem = s.mem ∧
        t = sendIdle ((chanModules (chanOf s c)).foldl (fun s m => fabSend s 10 m.1 [m.2, 4]) (endLocal u c 4)) l)) ∧
    (∀ (c : Nat) (r : Byte), 4096 ≤ c → ∃ t, exec (.cend h c r) s = .next t ∧ t.chans = s.chans ∧ t.fabric = s.fabric ∧
      (∀ b, tabFind (dieOf t b).trees (c - 4096) = none ∧ tabFind (dieOf t b).groups (c - 4096) = none) ∧ t.mem = s.mem) ∧
    (∀ (q : Setup) (r : Byte), s.setups = [q] → q.far = none → q.chan < 4096 → (chanOf s q.chan).valid = false → q.cfg.root = false →
      ∃ t, exec (.cend h q.chan r) s = .next t ∧ t.setups = [] ∧ t.chans = s.chans ∧ t.mem = s.mem)) ∧
  (∀ q : Setup, s.setups = [q] → q.installing = false →
    (s.ftime < q.since + setupSpan q → exec (.channelSetupWindowEnd q.chan) s = .next s) ∧
    (q.since + setupSpan q ≤ s.ftime → (chanOf s q.chan).valid = false →
      ∃ t, exec (.channelSetupWindowEnd q.chan) s = .next t ∧ t.setups = [] ∧ t.chans = s.chans ∧ t.mem = s.mem)) ∧
  (∀ c, (chanOf s c).valid = true → (chanOf s c).ended = true →
    (s.ftime < (chanOf s c).endedAt + 400000000 → exec (.channelIdRelease c) s = .next s) ∧
    ((chanOf s c).endedAt + 400000000 ≤ s.ftime →
      ∃ t, exec (.channelIdRelease c) s = .next t ∧ t = { s with chans := del s.chans c, planes := t.planes } ∧
        ((chanOf s c).tree = none → t.planes = s.planes) ∧ (chanOf t c).valid = false))

/-- R376 to R378: a module that is not the time root asks its parent every 10 ms; the parent answers with the stamps of its link die, and the child removes
((t2 − t1) − (t4 − t3)) / 2, at once where it is more than 1 ms ahead (log entry 31); a 1PPS edge is valid 1 s ± 1 ms after the last, the
time root steers by it and another module measures; without one the holdover is reported. -/
def Claims.FabricTime : Prop := ∀ (s : State),
  (∀ (h : FrameHdr) (a b c d : Word64), FrameTaken h s → (linkOf s h.link).txBuf = [] →
    (∃ t g, exec (.time h false a b c d) s = .next t ∧ (linkOf t h.link).out = (linkOf s h.link).out ++ [g] ∧ g.kind = 10 ∧
      g.body = (timeFrame a.toNat (linkTime s h.link) (linkTime s h.link)).body ∧ t.ftime = s.ftime ∧ t.mem = s.mem) ∧
    (let own : Int := (linkTime s h.link + d.toNat % 10 : Nat)
     let off : Int := (((b.toNat : Int) - a.toNat) - (own - c.toNat)) / 2
     ∃ t, exec (.time h true a b c d) s = .next t ∧
      (if 1000000 < off then t.ftime = s.ftime + off.toNat ∧ t.fabric.steer = 0 else t.ftime = s.ftime ∧ t.fabric.steer = off) ∧
      t.mem = s.mem)) ∧
  (∀ root l, isTimeRoot { s with fabric := { s.fabric with timeRoot := some root } } = false → parentLink s root = some l →
    ∃ t g, exec (.timeSyncTick root) s = .next t ∧ t.fabric = { s.fabric with timeRoot := some root } ∧
      (linkOf t l).out = (linkOf s l).out ++ [g] ∧ g.kind = 10 ∧ g.body = (timeFrame (linkTime s l) 0 0).body ∧ t.ftime = s.ftime) ∧
  (∀ root, s.fabric.modv = true → root = s.fabric.modid →
    ∃ t, exec (.timeSyncTick root) s = .next t ∧ t = { s with fabric := { s.fabric with timeRoot := some root } }) ∧
  (∀ p, s.fabric.ppsLast = some p →
    (p + 999000000 ≤ s.ftime → s.ftime ≤ p + 1001000000 →
      ∃ t, exec .ppsEdge s = .next t ∧ t.fabric.ppsValid = true ∧ t.fabric.holdover = false ∧ t.fabric.ppsLast = some s.ftime ∧
        (isTimeRoot s = true → t.fabric.steer = -(ppsError s.ftime) ∧ t.fabric.rate = -(ppsError s.ftime)) ∧
        (isTimeRoot s = false → t.fabric.ppsOffset = ppsError s.ftime ∧ t.fabric.steer = s.fabric.steer)) ∧
    (s.ftime < p + 999000000 ∨ p + 1001000000 < s.ftime →
      ∃ t, exec .ppsEdge s = .next t ∧ t = { s with fabric := { s.fabric with
        ppsLast := some s.ftime, ppsValid := false, holdover := s.fabric.holdover || s.fabric.ppsValid } }) ∧
    (p + 1001000000 < s.ftime →
      ∃ t, exec .ppsLoss s = .next t ∧ t = { s with fabric := { s.fabric with ppsValid := false, ppsLast := none, holdover := true } }) ∧
    (s.ftime ≤ p + 1001000000 → exec .ppsLoss s = .next s)) ∧
  (s.fabric.ppsLast = none → exec .ppsLoss s = .next s)

/-- The records of channels, and fabric time. -/
def Obligations.ChannelsAndTime : Prop := Claims.ChannelRecords ∧ Claims.FabricTime

/-! ## The host's registers, BAR2 and PCIe (18, 22) -/

/-- R8, R9, R401 to R403: a doorbell in range moves its index, one out of range raises RERR; enabling the rings checks their alignment and
starts every index at 0, disabling discards what was not written; a waiting response is written once the ring has room; unmasking a
cause whose bit is set sends one message; a base is writable only while the rings are off, a cause bit is cleared by writing 1, and an
offset without a writable field ignores the write; a write-only register, a reserved offset and, on a VF, the ranges of the PF read as
zero, and in RECOVERY (R399) only the identity registers and the emergency page answer; where the driver has cleared every DMA_CAUSE bit, the
vector of cause bit 2's message is a free value (log entry 193); the emergency page acts only on its codes, and only on the PF. -/
def Claims.HostRegisters : Prop := ∀ (s : State) (fn : Nat),
  let f := funcOf s fn
  let goesTo := fun (g : Func) => setFunc s fn g
  (fnAnswers s fn = true →
    (∀ n : Half,
      (idxDist f.cmdPi f.cmdCi ≤ idxDist n f.cmdCi → idxDist n f.cmdCi ≤ 256 →
        ∃ t, exec (.cmdPi fn n) s = .next t ∧ t = goesTo { f with cmdPi := n }) ∧
      (idxDist n f.cmdCi < idxDist f.cmdPi f.cmdCi ∨ 256 < idxDist n f.cmdCi →
        ∃ t, exec (.cmdPi fn n) s = .next t ∧ (funcOf t fn).rerr = true ∧ (funcOf t fn).rerrCode = 1 ∧
          (funcOf t fn).cause.getLsbD 3 = true ∧ (funcOf t fn).cmdPi = f.cmdPi) ∧
      (idxDist n f.rspCi ≤ idxDist f.rspPi f.rspCi → ∃ t, exec (.rspCi fn n) s = .next t ∧ t = goesTo { f with rspCi := n }) ∧
      (idxDist f.rspPi f.rspCi < idxDist n f.rspCi →
        ∃ t, exec (.rspCi fn n) s = .next t ∧ (funcOf t fn).rerr = true ∧ (funcOf t fn).rspCi = f.rspCi) ∧
      (idxDist n f.evtCi ≤ idxDist f.evtPi f.evtCi → f.dropped = 0 →
        ∃ t, exec (.evtCi fn n) s = .next t ∧ t = goesTo { f with evtCi := n }) ∧
      (idxDist n f.evtCi ≤ idxDist f.evtPi f.evtCi → 0 < f.dropped → f.enable = true → idxDist f.evtPi n < 2 ^ f.evtLog2.toNat →
        ∃ t r, exec (.evtCi fn n) s = .next t ∧ (funcOf t fn).evtPi = f.evtPi + 1 ∧ (funcOf t fn).dropped = 0 ∧
          tabFind (funcOf t fn).evtRing (f.evtPi.toNat % 2 ^ f.evtLog2.toNat) = some r ∧ r.code = 0x00FF ∧
          r.body = BitVec.ofNat 384 f.dropped)) ∧
    (f.enable = false → f.cmdBase.toNat % 16384 = 0 → f.rspBase.toNat % 16384 = 0 → 8 ≤ f.evtLog2.toNat → f.evtLog2.toNat ≤ 12 →
      f.evtBase.toNat % (64 * 2 ^ f.evtLog2.toNat) = 0 → f.dropped = 0 →
      ∃ t, exec (.ringEnable fn) s = .next t ∧ t = goesTo { f with
        enable := true, rerr := false, rerrCode := 0, stopped := false, cmdPi := 0, cmdCi := 0, rspPi := 0, rspCi := 0, evtPi := 0, evtCi := 0 }) ∧
    (f.enable = false → f.cmdBase.toNat % 16384 ≠ 0 →
      ∃ t, exec (.ringEnable fn) s = .next t ∧ (funcOf t fn).enable = false ∧ (funcOf t fn).rerr = true ∧ (funcOf t fn).rerrCode = 2) ∧
    (f.enable = true → s.drover.switching = false → ∃ t, exec (.ringDisable fn) s = .next t ∧ t = goesTo { f with enable := false, rspWait := [] }) ∧
    (∀ (r : Resp) (l : List Resp), f.rspWait = r :: l → f.enable = true → s.drover.switching = false →
      (idxDist f.rspPi f.rspCi < 256 → ∃ t q, exec (.responseRingSpace fn) s = .next t ∧ (funcOf t fn).rspWait = l ∧
        (funcOf t fn).rspPi = f.rspPi + 1 ∧ tabFind (funcOf t fn).rspRing (f.rspPi.toNat % 256) = some q ∧ q.status = r.status ∧
        q.seq = r.seq ∧ q.phase = (f.rspPi.toNat / 256 % 2 == 0)) ∧
      (256 ≤ idxDist f.rspPi f.rspCi → ∃ t, exec (.responseRingSpace fn) s = .next t ∧ funcOf t fn = f)) ∧
    (∀ v : Word64,
      (f.cause = 0 → ∃ t, exec (.intMask fn v) s = .next t ∧ t = goesTo { f with mask := v.setWidth 5 }) ∧
      (f.cause = 1 → f.mask = 0x1F → v = 0x1E → f.msixMask.getLsbD f.rspVec.toNat = false → f.fstate ≠ .scrub →
        ∃ t, exec (.intMask fn v) s = .next t ∧ t = goesTo { f with mask := 0x1E, messages := f.rspVec.toNat :: f.messages }) ∧
      (f.cause = 4 → f.mask = 0x1F → v = 0x1B →
        ∃ t, exec (.intMask fn v) s = .next t ∧ t = goesTo { (dmaVecs s f).foldl sendMsg f with mask := 0x1B }) ∧
      (f.enable = false → ∃ t, exec (.registerWrite fn 0x0200 v) s = .next t ∧ t = goesTo { f with cmdBase := v } ∧
        readReg0 t fn 0x0200 = some v) ∧
      (f.enable = true → ∃ t, exec (.registerWrite fn 0x0200 v) s = .next t ∧ funcOf t fn = f) ∧
      (∃ t, exec (.registerWrite fn 0x0400 v) s = .next t ∧ t = goesTo { f with cause := f.cause &&& ~~~(v.setWidth 5) }) ∧
      (∀ off, off < 0x100 ∨ 0x2400 ≤ off → ∃ t, exec (.registerWrite fn off v) s = .next t ∧ funcOf t fn = f ∧
        t = { s with funcs := t.funcs }))) ∧
  (fnAnswers s fn = false → ∀ n v, exec (.cmdPi fn n) s = .next s ∧ exec (.registerWrite fn 0x0200 v) s = .next s) ∧
  (readReg0 s fn 0x0008 = some Config.serialNo) ∧
  (f.fstate = .recovery → readReg0 s fn 0x0200 = none ∧ readReg0 s fn 0x0400 = none) ∧
  (f.fstate ≠ .recovery → readReg0 s fn 0x0100 = some 0 ∧ readReg0 s fn 0x0300 = some 0 ∧
    readReg0 s fn 0x0220 = some (BitVec.ofNat 64 (f.cmdCi.toNat + 2 ^ 16 * f.rspPi.toNat + 2 ^ 32 * f.evtPi.toNat)) ∧
    (fn ≠ 0 → readReg0 s fn 0x1000 = some 0 ∧ readReg0 s fn 0x1010 = some 0)) ∧
  (∀ v : Word64, 4 ≤ s.drover.step → s.drover.restarting = false → v.toNat / 2 ^ 48 = 0xE5C0 →
    (v.toNat % 256 = 1 → ∃ t, exec (.restartUango 0 v) s = .next t ∧ t.drover.restarting = true ∧ t.drover.romRunning = true ∧ t.drover.emergencyAct = true ∧
      t.drover.otherNext = s.drover.otherNext ∧ t.cores = s.cores ∧ t.mem = s.mem ∧ (funcOf t 0).fstate = .updating) ∧
    (v.toNat % 256 = 2 → ∃ t, exec (.switchSlot 0 v) s = .next t ∧ t.drover.restarting = true ∧ t.drover.otherNext = true ∧
      t.cores = s.cores ∧ t.mem = s.mem) ∧
    (fn ≠ 0 → exec (.restartUango fn v) s = .next s ∧ exec (.switchSlot fn v) s = .next s))

/-- R404: an access inside a region of BAR2 reaches the tenant's memory; a read outside is an Unsupported Request, a write outside is
discarded, and a read that ends in an error is a Completer Abort with APERTURE_ERROR. -/
def Claims.Apertures : Prop := ∀ (s : State) (fn off : Nat), fnAnswers s fn = true →
  (∀ len out, off + len ≤ 2 ^ (funcOf s fn).barLog2 → apertureVa (tenantOf s fn) off len = none →
    ∃ t, exec (.bar2Read fn off len out) s = .next t ∧ t = { s with hostReads := s.hostReads ++ [(off, 1, [])] }) ∧
  (∀ len out va, off + len ≤ 2 ^ (funcOf s fn).barLog2 → apertureVa (tenantOf s fn) off len = some va →
    (∀ u b, vaRead s fn va len out = (u, .ok b) →
      ∃ t, exec (.bar2Read fn off len out) s = .next t ∧ t = { u with hostReads := u.hostReads ++ [(off, 0, b)] }) ∧
    (∀ u c, vaRead s fn va len out = (u, .err c) →
      ∃ t r, exec (.bar2Read fn off len out) s = .next t ∧ t.hostReads = u.hostReads ++ [(off, 2, [])] ∧
        ((funcOf u fn).enable = true → (funcOf u fn).dropped = 0 → evtRoom (funcOf u fn) = true →
          tabFind (funcOf t fn).evtRing ((funcOf u fn).evtPi.toNat % 2 ^ (funcOf u fn).evtLog2.toNat) = some r ∧ r.code = 0x0024))) ∧
  (∀ bytes, apertureVa (tenantOf s fn) off bytes.length = none → exec (.bar2Write fn off bytes) s = .next s) ∧
  (∀ bytes va, off + bytes.length ≤ 2 ^ (funcOf s fn).barLog2 → apertureVa (tenantOf s fn) off bytes.length = some va →
    ∃ t, exec (.bar2Write fn off bytes) s = .next t ∧ t = (vaWrite s fn va bytes .clean).1)

/-- BAR0 and its registers, and the windows of BAR2. -/
def Obligations.HostAccess : Prop := Claims.HostRegisters ∧ Claims.Apertures

/-- R397 to R400, R426, R498, R499: PERST#, a hot reset and a lost link reset the registers of every function and end no tenant; the link
comes up at a rate and width of R397; configuration requests are answered, with Retry Status while the boot lasts, else with the identity
of R397, and BAR2 takes a size from 1 GiB to 64 GiB; enabling VFs attaches
tenants to them, a Function Level Reset or disabling them ends tenants; 900 ms after PERST# without Uango the functions show RECOVERY. No
switch-over of firmware waits (a reset that empties what it waits for starts it, R427). -/
def Obligations.PcieDomain : Prop := ∀ (s : State), s.drover.switching = false →
  (s.pcie.perst = false → scanActive { s with pcie := { s.pcie with perst := true } } = false →
    ∃ t, exec .perstAssert s = .next t ∧ t.pcie.perst = true ∧ t.pcie.up = false ∧ t.pcie.vfEnable = false ∧ t.tenants = s.tenants ∧
      t.cores = s.cores ∧ t.mem = s.mem ∧ t.links = s.links ∧
      ∀ n, (funcOf t n) = { fstate := (funcOf s n).fstate, prior := (funcOf s n).prior }) ∧
  (s.pcie.perst = true → (∀ l, l < 32 → (linkOf s l).scanHeld = false) →
    ∃ t, exec .perstDeassert s = .next t ∧ t = { s with pcie := { s.pcie with perst := false, since := s.ftime } }) ∧
  (s.pcie.up = true →
    (∃ t, exec .hotReset s = .next t ∧ exec .pcieLinkDown s = .next t ∧ t.pcie.up = false ∧ t.pcie.vfEnable = false ∧ t.pcie.crs = true ∧
      t.pcie.perst = s.pcie.perst ∧ t.tenants = s.tenants ∧ t.cores = s.cores ∧ t.mem = s.mem ∧
      ∀ n, (funcOf t n) = { fstate := (funcOf s n).fstate, prior := (funcOf s n).prior }) ∧
    (∀ fn, fnPresent s fn = true →
      let answered := fun (v : Option Word64) => { s with pcie := { s.pcie with answers := s.pcie.answers ++ [(fn, v)] } }
      (s.pcie.crs = true → ∀ r, ∃ t, exec (.configurationRequest fn r) s = .next t ∧ t = answered none) ∧
      (s.pcie.crs = false →
        (∃ t, exec (.configurationRequest fn .identity) s = .next t ∧
          t = answered (some (if fn = 0 then 0x0012000001401F4B else 0x0012000001411F4B))) ∧
        (∃ t, exec (.configurationRequest fn .other) s = .next t ∧ t.free = s.free + 1 ∧ t.funcs = s.funcs) ∧
        ∀ n, (30 ≤ n → n ≤ 36 → ∃ t, exec (.configurationRequest fn (.bar2Size n)) s = .next t ∧
            funcOf t fn = { funcOf s fn with barLog2 := n } ∧ ∀ m, m ≠ fn → funcOf t m = funcOf s m) ∧
          (n < 30 ∨ 36 < n → ∃ t, exec (.configurationRequest fn (.bar2Size n)) s = .next t ∧ t.funcs = s.funcs))) ∧
    (∀ num, s.pcie.vfEnable = false → 1 ≤ num → num ≤ 63 →
      (∀ n, 1 ≤ n → n ≤ num → tabFind s.funcs n = none) →
      ∃ t, exec (.vfEnable num) s = .next t ∧ t.pcie.vfEnable = true ∧ t.pcie.numVfs = num ∧ t.tenants = s.tenants ∧ t.mem = s.mem ∧
        ((funcOf s 0).fstate = .idle ∨ (funcOf s 0).fstate = .ready → ∀ n, 1 ≤ n → n ≤ num →
          (funcOf t n).fstate = if (allots (tenantOf s n)).all (· == 0) then .idle else .ready)) ∧
    (s.pcie.vfEnable = true → s.pcie.numVfs = 1 →
      ((funcOf s 1).fstate = .idle → (tenantOf s 1).scrub = none →
        ∃ t, exec .vfDisable s = .next t ∧ t.pcie.vfEnable = false ∧ t.pcie.numVfs = 0 ∧ (funcOf t 1).fstate = .ending ∧
          ∃ b, (tenantOf t 1).scrub = some b ∧ b.gone = true))) ∧
  (∀ fn, fnPresent s fn = true → s.pcie.perst = false → (funcOf s fn).fstate = .ready → (tenantOf s fn).scrub = none →
    ∃ t, exec (.functionLevelReset fn) s = .next t ∧ funcOf t fn = {
      fstate := .ending, prior := (funcOf s fn).prior, barLog2 := (funcOf s fn).barLog2 } ∧ (tenantOf t fn).scrub.isSome = true) ∧
  (∀ fn, fnPresent s fn = true → s.pcie.perst = false → (funcOf s fn).fstate = .recovery → (funcOf s fn).prior = .ready →
    (tenantOf s fn).scrub = none →
    ∃ t, exec (.functionLevelReset fn) s = .next t ∧ funcOf t fn = {
      fstate := .recovery, prior := .ending, barLog2 := (funcOf s fn).barLog2 } ∧ (tenantOf t fn).scrub.isSome = true) ∧
  (∀ gen width, s.pcie.perst = false → s.pcie.up = false → 3 ≤ s.drover.step → gen = 3 ∨ gen = 4 ∨ gen = 5 →
    width = 4 ∨ width = 8 ∨ width = 16 →
    ∃ t, exec (.pcieLinkUp gen width) s = .next t ∧ t = { s with pcie := { s.pcie with
      up := true, gen := gen, width := width, crs := s.pcie.crs && (funcOf s 0).fstate == .booting } }) ∧
  (s.pcie.crs = true → s.pcie.perst = false → s.pcie.since + 900000000 ≤ s.ftime → 3 ≤ s.drover.step → s.drover.step < 11 → (funcOf s 0).fstate = .booting →
    ∃ t, exec .crsTimeout s = .next t ∧ (funcOf t 0).fstate = .recovery ∧ t.pcie.crs = false ∧ t.drover.romRunning = true ∧
      t.mem = s.mem) ∧
  (s.ftime < s.pcie.since + 900000000 → exec .crsTimeout s = .next s)

/-! ## Power, clocks and temperature (21, 22) -/

/-- R487, R491, R494, R495 to R497: the governor raises the level by one step while a limit is at risk and lowers it after ten quiet
samples; a droop stretches the clock of its band once; a change of frequency raises VCORE first, stops the clock for the relock, and
lowers VCORE after it; a reading starts and ends the throttle of a sensor with its hysteresis, and three readings in a row at a trip
point reset the module, which stays off until it has cooled for 10 s. -/
def Obligations.PowerAndTemperature : Prop := ∀ (s : State),
  (s.power.groupsUp ≠ 0 → ∀ w,
    (∃ t, exec (.governorSample w true) s = .next t ∧ t = { s with power := { s.power with
      watts := w, level := min 7 (s.power.level + 1), since := 0 } }) ∧
    (s.power.since < 9 → ∃ t, exec (.governorSample w false) s = .next t ∧
      t = { s with power := { s.power with watts := w, since := s.power.since + 1 } }) ∧
    (9 ≤ s.power.since → ∃ t, exec (.governorSample w false) s = .next t ∧
      t = { s with power := { s.power with watts := w, level := s.power.level - 1, since := 0 } })) ∧
  (∀ (b : Nat) (x : Band), tabFind s.bands b = some x →
    (x.stopped = false → x.stretch = false → ∃ t, exec (.droopEvent b) s = .next t ∧
      tabFind t.bands b = some { x with stretch := true } ∧ t.plover.droops = s.plover.droops + 1) ∧
    (x.stretch = true → exec (.droopEvent b) s = .next s) ∧
    (∃ t, exec (.clockStretchEnd b) s = .next t ∧ tabFind t.bands b = some { x with stretch := false } ∧ t = { s with bands := t.bands }) ∧
    (∀ u, uangoUp s = true → 20 ≤ u → u ≤ 54 → (∀ y ∈ s.bands, y.2.stopped = false) →
      ∃ t, exec (.cclkChange b u) s = .next t ∧ t = { s with bands := t.bands } ∧ tabFind t.bands b = some { x with
        stopped := true, next := u, vcore := if x.units < u then Config.vcoreSet u else x.vcore }) ∧
    (x.stopped = true → 0 < x.next → ∃ t, exec (.pllRelockComplete b) s = .next t ∧ t = { s with bands := t.bands } ∧
      tabFind t.bands b = some { x with stopped := false, units := x.next, next := 0, vcore := Config.vcoreSet x.next })) ∧
  (s.power.groupsUp ≠ 0 → ∀ temps : List Int, temps.length = 60 →
    (s.power.tripped = false → (∀ i, i < 60 → temps.getD i 0 < 70) →
      ∃ t, exec (.thermalReading temps) s = .next t ∧ t.power.temps = temps ∧ t.power.tripped = false ∧ t.power.thermAlert =
          (temps.zipIdx.any (fun e => decide ((sensorPoints e.2).1 - 5 ≤ e.1)) ||
            (s.power.thermAlert && !temps.zipIdx.all fun e => decide (e.1 ≤ (sensorPoints e.2).1 - 8))) ∧
        t.power.farWait = false ∧ t.power.fault = s.power.fault ∧ t.cores = s.cores ∧ t.mem = s.mem ∧
        ∀ i, i < 60 → (i ∈ t.power.throttle ↔ (i ∈ s.power.throttle ∧ (temps.getD i 0 ≤ (sensorPoints i).1 - 3 → look 0 s.power.coolMs i < 9)))) ∧
    (∀ i, i < 60 → (sensorPoints i).1 ≤ temps.getD i 0 → s.power.tripped = false →
      (∀ k, k < 60 → atTrip k (temps.getD k 0) = false) →
      ∃ t, exec (.thermalReading temps) s = .next t ∧ i ∈ t.power.throttle ∧ t.power.thermAlert = true ∧ t.mem = s.mem ∧
        (56 ≤ i → 85 ≤ temps.getD i 0 → t.power.farWait = true) ∧
        (∀ x, i < 24 → 100 ≤ temps.getD i 0 → tabFind s.bands (i / 4) = some x → ∃ y, tabFind t.bands (i / 4) = some y ∧ y.gated = true)) ∧
    (∀ i, i < 60 → atTrip i (temps.getD i 0) = true → 2 ≤ look 0 s.power.tripCount i → s.power.tripped = false →
      ∃ t, exec (.thermalReading temps) s = .next t ∧ t.power.tripped = true ∧ t.power.fault = true ∧ t.power.groupsUp = 1 ∧
        t.drover.step = 0 ∧ t.drover.moduleReset = true ∧ t.cores = [] ∧ t.ftime = s.ftime ∧
        ∀ a, byteAt t.mem a ≠ 0 → tierOf a = some 2) ∧
    (s.power.tripped = true → s.power.coolFor = 9999 → (∀ i, i < 60 → temps.getD i 0 ≤ 70) → s.power.vin = .good →
      ∃ t, exec (.thermalReading temps) s = .next t ∧ t.power.tripped = false ∧ t.power.fault = false ∧ t.drover.step = 2) ∧
    (s.power.tripped = true → s.power.coolFor < 9999 → (∀ i, i < 60 → temps.getD i 0 ≤ 70) →
      ∃ t, exec (.thermalReading temps) s = .next t ∧ t.power.tripped = true ∧ t.power.coolFor = s.power.coolFor + 1) ∧
    (s.power.tripped = true → (∃ i, i < 60 ∧ 70 < temps.getD i 0) →
      ∃ t, exec (.thermalReading temps) s = .next t ∧ t.power.tripped = true ∧ t.power.coolFor = 0))

/-- R485, R486, R489, R498 to R502: power-on samples the straps and starts fabric time; the rail groups come up in order, and after the
fourth Drover leaves reset; a low input lowers the power class, an input outside its range stops the module; a module reset or an
expired watchdog clears everything but fuses, flash, Far contents, fabric time and sideband addresses; the boot goes through its steps:
the ROM starts the slot whose signature verifies, or shows RECOVERY; the Far records give the module its ID, its core map and its time; a memory that fails takes the module out of service; the last step makes every function IDLE, or
LOST. -/
def Obligations.PowerOnAndBoot : Prop := ∀ (s : State),
  (∀ (p : BitVec 2) (k : BitVec 3),
    (s.power.vin = .absent → ∃ t, exec (.vinGood p k) s = .next t ∧ t = { s with
      ftime := 0, drover := { s.drover with step := 1 }
      power := { s.power with vin := .good, pwrSel := p, slotId := k, groupsUp := 0 } }) ∧
    (s.power.vin = .under → s.power.tripped = false → ∃ t, exec (.vinGood p k) s = .next t ∧ t = { s with
      power := { s.power with vin := .good, fault := false }, drover := { s.drover with step := 2 } })) ∧
  (s.power.vin = .good → (∃ t, exec .vinLow s = .next t ∧ t = { s with power := { s.power with vin := .low, lowClass := true } } ∧
    powerLimits t = (900, 990))) ∧
  (s.power.vin = .low → ∃ t, exec .vinRestored s = .next t ∧ t = { s with power := { s.power with vin := .good, lowClass := false } }) ∧
  (s.power.vin = .over → s.power.tripped = false → ∃ t, exec .vinRestored s = .next t ∧ t.power.vin = .good ∧ t.power.fault = false ∧
    t.drover.step = 2 ∧ t.mem = s.mem) ∧
  (powered s = true →
    let off := fun (t : State) => t.power.fault = true ∧ t.power.groupsUp = 1 ∧ t.drover.step = 0 ∧ t.cores = [] ∧ t.ftime = s.ftime ∧
      t.fuses = s.fuses ∧ t.far = s.far
    (∃ t, exec .vinUndervolt s = .next t ∧ off t ∧ t.power.vin = .under) ∧
    (∃ t, exec .vinOvervolt s = .next t ∧ off t ∧ t.power.vin = .over) ∧
    (3 ≤ s.drover.step → scanActive s = false →
      let kept := fun (t : State) => t.cores = [] ∧ t.dma = [] ∧ t.links = [] ∧ t.chans = [] ∧ t.funcs = [] ∧ t.ftime = s.ftime ∧
        t.fuses = s.fuses ∧ t.far = s.far ∧ t.badUnits = s.badUnits ∧ t.power.groupsUp = 4 ∧ t.power.slotId = s.power.slotId ∧
        t.power.fault = s.power.fault ∧ t.drover.step = 3 ∧ t.drover.moduleReset = true ∧ t.drover.slotB = s.drover.slotB ∧
        t.pcie.perst = s.pcie.perst ∧ t.side.a.eid = s.side.a.eid ∧ t.side.b.eid = s.side.b.eid ∧ t.side.doe = {} ∧
        (∀ a, byteAt t.mem a = if tierOf a = some 2 then byteAt s.mem a else 0)
      (∃ t, exec .moduleReset s = .next t ∧ kept t) ∧
      (s.drover.romRunning = true → ∃ t, exec .aonWatchdogExpiry s = .next t ∧ kept t))) ∧
  (∀ g, s.power.vin = .good → g = s.power.groupsUp + 1 → g ≤ 4 → s.drover.step = 1 ∨ s.drover.step = 2 →
    ∃ t, exec (.railsInTolerance g) s = .next t ∧ t = { s with
      power := { s.power with groupsUp := g }, drover := { s.drover with step := if g = 4 then 3 else 2 } }) ∧
  (s.drover.step = 3 → ∀ puf a b : Bool,
    (((if s.drover.slotB then b else a) = true) →
      ∃ t, exec (.uangoStarted puf a b) s = .next t ∧ t.drover.step = 6 ∧ t.drover.romRunning = false ∧ t.drover.slotB = s.drover.slotB ∧
        t.drover.identity = puf ∧ t.mem = s.mem ∧ ∀ k, k < 6 → ∃ y, tabFind t.bands k = some y ∧ y.units = 50 ∧ y.stopped = false) ∧
    ((if s.drover.slotB then b else a) = false → (if s.drover.slotB then a else b) = true →
      ∃ t, exec (.uangoStarted puf a b) s = .next t ∧ t.drover.step = 6 ∧ t.drover.romRunning = false ∧
        t.drover.slotB = !s.drover.slotB) ∧
    (a = false → b = false → ∃ t, exec (.uangoStarted puf a b) s = .next t ∧ t.drover.step = 4 ∧ t.drover.romRunning = true ∧
      (funcOf t 0).fstate = .recovery ∧ t.pcie.crs = false)) ∧
  (s.drover.step = 6 → s.drover.romRunning = false → s.fabric.modv = false → s.far.endingMarks = [] →
    ∃ t, exec .farControllerReady s = .next t ∧ t.drover.step = 8 ∧ t.fabric.modid = s.far.modid.getD 0 ∧ t.fabric.modv = true ∧
      t.grid.map = s.far.coreMap.getD [] ∧ t.grid.fallow = s.far.fallow ∧ t.fabric.map = s.far.map ∧
      t.ftime = (if s.drover.moduleReset = true ∨ s.far.ftime = 0 then s.ftime else s.far.ftime) ∧ t.mem = s.mem) ∧
  (s.drover.step = 8 → s.drover.romRunning = false →
    (s.far.coreMap.isSome = true →
      ∃ t, exec (.memoryTrainingComplete 0 true true []) s = .next t ∧ t.drover.step = 10 ∧ t.drover.outOfService = s.drover.outOfService ∧
        t.grid.map = s.grid.map ∧ t.grid.fallow = s.grid.fallow ∧ ∀ l, l < 32 → (linkOf s l).st = .disabled → (linkOf s l).byUango = false → (linkOf s l).scanHeld = false →
          (linkOf t l).st = .train) ∧
    (∀ sf mid, sf ≠ 0 ∨ mid = false →
      ∃ t, exec (.memoryTrainingComplete sf mid true []) s = .next t ∧ t.drover.step = 10 ∧ t.drover.outOfService = true)) ∧
  (s.drover.step = 10 → s.drover.romRunning = false → (funcOf s 0).fstate = .booting →
    ∃ t, exec .bootComplete s = .next t ∧ t.drover.step = 11 ∧ t.drover.mboxOn = true ∧ t.pcie.crs = false ∧ t.mem = s.mem ∧
      (funcOf t 0).fstate = if s.drover.outOfService then .lost else .idle)

/-! ## Drover (19, 20) and telemetry (21) -/

/-- R401, R422, R427, R450 to R452, R500: a mismatch of Drover's processors restarts Uango, and a second one within an hour leaves the
functions in RECOVERY; the end of a restart answers every owed command ABORTED and returns every function to its state, and where it was an emergency action its status
stands in EM_RESULT; a switch-over ends
with the new slot, or with the old one and INTERNAL, which is counted (R409); a failed health test stops the DRBG and every key agreement, and a passed retest starts
it again; every second the fabric time is stored, unless the Far tier is read-only. -/
def Claims.Drover : Prop := ∀ (s : State),
  (uangoUp s = true →
    (s.drover.mismatches = [] → ∃ t, exec .lockstepMismatch s = .next t ∧ t.drover.restarting = true ∧ t.drover.romRunning = true ∧
      t.drover.mismatches = [s.ftime] ∧ (funcOf t 0).fstate = .updating ∧ t.drover.diagUnlocked = [] ∧ t.cores = s.cores ∧ t.mem = s.mem) ∧
    (∀ d, s.drover.mismatches = [d] → s.ftime < d + 3600000000000 →
      ∃ t, exec .lockstepMismatch s = .next t ∧ (funcOf t 0).fstate = .recovery ∧ t.drover.restarting = false ∧
        t.drover.romRunning = true ∧ t.cores = s.cores ∧ t.mem = s.mem)) ∧
  (s.drover.restarting = true →
    (∃ t, exec (.uangoRestartComplete false) s = .next t ∧ (funcOf t 0).fstate = .recovery ∧ t.drover.restarting = false ∧
      (s.drover.emergencyAct = true → t.drover.emResult = stIntegrity ∧ (funcOf t 0).cause.getLsbD 4 = true) ∧
      (s.drover.emergencyAct = false → t.drover.emResult = s.drover.emResult)) ∧
    (11 ≤ s.drover.step → s.setups = [] → (funcOf s 0).fstate = .updating →
      ∃ t, exec (.uangoRestartComplete true) s = .next t ∧ t.drover.restarting = false ∧ t.drover.romRunning = false ∧
        t.drover.mboxOn = true ∧ t.drover.emResult = (if s.drover.emergencyAct then stOK else s.drover.emResult) ∧ t.drover.slotB = (s.drover.slotB != s.drover.otherNext) ∧
        t.drover.otherNext = false ∧ (funcOf t 0).fstate = (funcOf s 0).prior ∧ t.hostWait = [] ∧
        t.drover.mismatchCount = satAdd s.drover.mismatchCount (b2n s.drover.mismatched) ∧
        (∀ c ∈ (funcOf t 0).owed, c.status = some stAborted) ∧ t.cores = s.cores ∧ t.mem = s.mem)) ∧
  (s.drover.switching = true → (funcOf s 0).fstate = .updating → ∀ c : PendCmd, (funcOf s 0).owed = [c] → c.opcode = 0x0901 → c.obj = 9 →
    c.status = none →
    (∃ t, exec .fwSwitched s = .next t ∧ t.drover.slotB = !s.drover.slotB ∧ t.drover.switching = false ∧ t.drover.stagedOk = false ∧
      (funcOf t 0).fstate = (funcOf s 0).prior ∧ (funcOf t 0).owed.map (·.status) = [some stOK] ∧ t.cores = s.cores ∧ t.mem = s.mem) ∧
    (∃ t, exec .fwSwitchTimeout s = .next t ∧ t.drover.slotB = s.drover.slotB ∧ t.drover.switching = false ∧
      (funcOf t 0).fstate = (funcOf s 0).prior ∧ (funcOf t 0).owed.map (·.status) = [some stInternal] ∧ t.telem.failed = s.telem.failed + 1 ∧ t.cores = s.cores ∧
      t.mem = s.mem)) ∧
  (∃ t, exec .drbgHealthFail s = .next t ∧ t.drover.drbgOk = false ∧ t.mem = s.mem ∧
    ∀ l, (linkOf s l).st = .keyx → (linkOf t l).st = .failed) ∧
  (∃ t, exec (.entropyRetest true) s = .next t ∧ t = { s with drover := { s.drover with drbgOk := true } }) ∧
  (exec (.entropyRetest false) s = .next s) ∧
  (uangoUp s = true → 7 ≤ s.drover.step →
    ∃ t, exec .fabricTimeStore s = .next t ∧ (s.far.readOnly = false → t.far.ftime = s.ftime) ∧ (s.far.readOnly = true → t = s) ∧
      t.ftime = s.ftime ∧ t.mem = s.mem)

/-- R233, R470, R474, R478 to R480: a 1 ms window closes with the increase of each counter since the last one; a 100 ms window publishes
power in steps of 10 W, unless a scrub overlaps it, and shares its energy among the jobs by the core-nanoseconds they used. What a
window that has ended has counted waits apart from what the next one counts (R12); with none waiting, the counts as they stand close. -/
def Claims.Windows : Prop := ∀ (s : State),
  (∃ t, exec .telemetryWindowClose s = .next t ∧ t.cores = s.cores ∧ t.mem = s.mem ∧
    (∀ (tn : Nat) (x : Tenant), s.telem.snaps = [] → s.tenants = [(tn, x)] → s.links = [] → s.planes = [] → s.dies = [] → tn < 2 ^ 32 →
      let now := sumLists ((pagingUnits s tn).map (·.2))
      let old := look ([] : List Nat) s.telem.last (ringKey 3 tn)
      look [] t.telem.last (ringKey 3 tn) = now ∧
      look [] t.telem.rings (ringKey 3 tn) = lastN (if fineNow s then 1000 else 100) (look [] s.telem.rings (ringKey 3 tn) ++
        [(s.ftime / 1000000 * 1000000 - 1000000, now.zipIdx.map fun c => c.1 - old.getD c.2 0)])) ∧
    (∀ (start key : Nat) (now : List Nat) (rest : List (Nat × List (Nat × List Nat))), s.telem.snaps = (start, [(key, now)]) :: rest →
      t.telem.snaps = rest ∧ look [] t.telem.last key = now ∧
      look [] t.telem.rings key = lastN (if fineNow s then 1000 else 100) (look [] s.telem.rings key ++
        [(start, now.zipIdx.map fun c => c.1 - (look ([] : List Nat) s.telem.last key).getD c.2 0)])) ∧
    (∀ (tn n : Nat) (x : Table), tableOf s tn n = some x → ∃ y, tableOf t tn n = some y ∧
      (x.closing = [] → y.served = []) ∧ (∀ w rest, x.closing = w :: rest → y.served = x.served ∧ y.closing = rest))) ∧
  (∀ (energyJ watts : Nat) (sensors : List Int),
    (overlapsScrub s = false → ∃ t, exec (.powerWindowClose energyJ watts sensors) s = .next t ∧ t.power.winW = watts / 10 * 10 ∧
      t.power.sensors = sensors ∧ (s.telem.spans = [] → t.telem.idleNs = 0) ∧ t.cores = s.cores ∧ t.mem = s.mem) ∧
    (overlapsScrub s = true → ∃ t, exec (.powerWindowClose energyJ watts sensors) s = .next t ∧
      t.power = { s.power with scrubs := t.power.scrubs } ∧ (s.telem.spans = [] → t.telem.idleNs = 0)) ∧
    (∀ (tn n : Nat) (x : Tenant) (j : Job), s.tenants = [(tn, x)] → x.jobs = [(n, j)] →
      (s.telem.spans = [] → 0 < j.coreNs + s.telem.idleNs →
        ∃ t, exec (.powerWindowClose energyJ watts sensors) s = .next t ∧ jobOf t tn n = some { j with
          coreNs := 0, energyNj := j.energyNj + energyJ * 1000000000 * j.coreNs / (j.coreNs + s.telem.idleNs) }) ∧
      (∀ ns idle rest, s.telem.spans = ([(tn, n, ns)], idle) :: rest → 0 < ns + idle →
        ∃ t, exec (.powerWindowClose energyJ watts sensors) s = .next t ∧ t.telem.spans = rest ∧ t.telem.idleNs = s.telem.idleNs ∧
          jobOf t tn n = some { j with energyNj := j.energyNj + energyJ * 1000000000 * ns / (ns + idle) })))

/-- Drover, and the telemetry windows. -/
def Obligations.DroverAndTelemetry : Prop := Claims.Drover ∧ Claims.Windows

/-- R423, R465 to R467: an SPDM connection goes through version, capabilities and algorithms; the digests, the certificate, a challenge
and the measurements need the negotiated connection and the module's identity, and a response larger than a message is fetched in chunks; an
authorised session unlocks the diagnostics of its port until it ends. The codes of the messages are the model's (log entry 46). -/
def Claims.SpdmRequests : Prop := ∀ (s : State) (p : SidePort),
  let x := spdmOf s p
  let answers := fun (t : State) (y : Spdm) (code : Nat) (bytes : List Byte) => t = setSpdm s p { y with answers := x.answers ++ [(code, bytes)] }
  (spdmAnswers s p = false → exec (.getVersion p) s = .next s) ∧
  (spdmAnswers s p = true →
    (∃ t, exec (.getVersion p) s = .next t ∧ (spdmOf t p).stage = .versioned ∧ (spdmOf t p).sessionUp = false ∧
      (spdmOf t p).answers = x.answers ++ [(0x04, [0x12, 0x13])] ∧ t.drover.diagUnlocked = s.drover.diagUnlocked.erase (portNumber p)) ∧
    (∀ v : Byte,
      (x.stage ≠ .none → v = 0x12 ∨ v = 0x13 →
        ∃ t, exec (.getCapabilities p v) s = .next t ∧ answers t { x with stage := .capable, version := v } 0x61 []) ∧
      (x.stage ≠ .none → v ≠ 0x12 → v ≠ 0x13 → ∃ t, exec (.getCapabilities p v) s = .next t ∧ answers t x 0x7F [0x41]) ∧
      (x.stage = .none → ∃ t, exec (.getCapabilities p v) s = .next t ∧ answers t x 0x7F [0x04])) ∧
    (x.stage = .capable ∨ x.stage = .negotiated → ∀ a b c d : Bool,
      ∃ t, exec (.negotiateAlgorithms p a b c d) s = .next t ∧
        answers t { x with stage := if a && b && c && d then .negotiated else .capable } 0x63
          [BitVec.ofNat 8 (b2n a), BitVec.ofNat 8 (b2n b), BitVec.ofNat 8 (b2n c), BitVec.ofNat 8 (b2n d)]) ∧
    (x.stage = .negotiated → s.drover.identity = true → ∀ (nonce : BitVec 256) (i : Byte) (off len : Nat),
      let replies := fun (t : State) (code : Byte) (b : List Byte) =>
        if b.length ≤ Config.spdmMessage then answers t x code.toNat b
        else answers t { x with large := code :: b, handle := (x.handle + 1) % 256 } 0x7F [0x0F, BitVec.ofNat 8 ((x.handle + 1) % 256)]
      let ms := (measurements s none).filter fun m => m.1 == i.toNat
      (∃ t, exec (.getDigests p) s = .next t ∧ replies t 0x01 (digestBytes Config.certChain)) ∧
      (∃ t, exec (.getCertificate p 0 off len) s = .next t ∧
        if Config.certChain.length ≤ off then answers t x 0x7F [0x01] else replies t 0x02 ((Config.certChain.drop off).take len)) ∧
      (∀ slot, slot ≠ 0 → ∃ t, exec (.getCertificate p slot off len) s = .next t ∧ answers t x 0x7F [0x01]) ∧
      (∃ t, exec (.challenge p 0 nonce) s = .next t ∧ replies t 0x03 (signedBytes (digestBytes Config.certChain) nonce)) ∧
      (i ≠ 0 → i ≠ 0xFF → ∃ t, exec (.getMeasurements p i nonce) s = .next t ∧
        if ms = [] then answers t x 0x7F [0x01] else replies t 0x60 (signedBytes (ms.flatMap blockBytes) nonce))) ∧
    (x.stage = .negotiated → s.drover.identity = false → ∀ (nonce : BitVec 256) (i : Byte),
      (∃ t, exec (.getDigests p) s = .next t ∧ answers t x 0x7F [0x05]) ∧ (∃ t, exec (.challenge p 0 nonce) s = .next t ∧ answers t x 0x7F [0x05]) ∧
      (∃ t, exec (.getMeasurements p i nonce) s = .next t ∧ answers t x 0x7F [0x05])) ∧
    (∀ k, x.large ≠ [] → k * max 1 Config.spdmMessage < x.large.length →
      ∃ t, exec (.chunkGet p x.handle k) s = .next t ∧
        answers t x 0x06 ((x.large.drop (k * max 1 Config.spdmMessage)).take (max 1 Config.spdmMessage))) ∧
    (x.stage = .negotiated → s.drover.identity = true → s.drover.drbgOk = true →
      (∃ t, exec (.keyExchange p true) s = .next t ∧ (spdmOf t p).exchanged = true ∧ t.free = s.free + 1) ∧
      (∃ t, exec (.keyExchange p false) s = .next t ∧ answers t x 0x7F [0x01])) ∧
    (x.exchanged = true → ∀ auth : Bool,
      (∃ t, exec (.finish p true auth) s = .next t ∧ (spdmOf t p).sessionUp = true ∧ (spdmOf t p).exchanged = false ∧
        (auth = true → t.drover.diagUnlocked.contains (portNumber p) = true) ∧
        (auth = false → t.drover.diagUnlocked = s.drover.diagUnlocked)) ∧
      (∃ t, exec (.finish p false auth) s = .next t ∧ answers t { x with exchanged := false } 0x7F [0x06])) ∧
    (x.sessionUp = true → ∃ t, exec (.endSession p) s = .next t ∧ (spdmOf t p).sessionUp = false ∧
      t.drover.diagUnlocked = s.drover.diagUnlocked.erase (portNumber p)))

/-- R483, R497, R510 to R512: the SMBus ports take an endpoint ID and give readings of the published sensors; a reading without a value is
unavailable; JTAG instructions select their register, and one that drives the lands while PERST# is asserted holds every link DISABLED until
it is gone. The numbers of the readings are the model's (log entries 45 and 47). -/
def Claims.Sideband : Prop := ∀ (s : State) (b : Bool),
  let x := smbOf s b
  let answers := fun (t : State) (r : Nat × Option Nat) => t = setSmb s b { x with answers := x.answers ++ [r] }
  (s.power.groupsUp ≠ 0 →
    (∀ eid, ∃ t, exec (.setEndpointId b eid) s = .next t ∧ t = setSmb s b { x with eid := eid }) ∧
    (∀ n, ∃ t, exec (.pldmSensorRead b n) s = .next t ∧ answers t (n, sensorValue s n)) ∧
    (∃ t, exec (.pldmEventRead b) s = .next t ∧ smbAlert t b = false ∧ t = setSmb s b { x with told := stateSensors s }) ∧
    (uangoUp s = true →
      (∃ t, exec (.readVin b) s = .next t ∧ answers t (0x88, s.power.sensors[0]?.map linear11)) ∧
      (∃ t, exec (.readIin b) s = .next t ∧ answers t (0x89, s.power.sensors[1]?.map linear11)) ∧
      (s.power.sensors = [] → ∃ t, exec (.readPout b) s = .next t ∧ answers t (0x96, none)) ∧
      (s.power.sensors ≠ [] → ∃ t, exec (.readPout b) s = .next t ∧ answers t (0x96, some (linear11 (1000 * (s.power.winW : Int))))) ∧
      (∀ n, 1 ≤ n → n ≤ 3 → ∃ t, exec (.readTemperature b n) s = .next t ∧
        answers t (0x8C + n, (s.power.sensors[Config.pmbusTemp n - 1]?.map (1000 * ·)).map linear11)) ∧
      (∃ t, exec (.statusWord b) s = .next t ∧
        answers t (0x79, some (4 * b2n s.power.thermAlert + 4096 * b2n (faultLand s)))))) ∧
  (s.power.groupsUp = 0 → ∀ n, exec (.pldmSensorRead b n) s = .next s) ∧
  ((∀ l, l < 32 → (linkOf s l).scanHeld = false) →
    let loaded := fun (j : Jtag) (w : Word32) => { s with side := { s.side with jtag := j, dr := w } }
    (∃ t, exec .bypass s = .next t ∧ t = loaded .bypass 0) ∧
    (∃ t, exec .idcode s = .next t ∧ t = loaded .idcode (BitVec.ofNat 32 (0x10140000 + 2 * Config.jtagMaker.toNat + 1))) ∧
    (∃ t, exec .samplePreload s = .next t ∧ t.side.jtag = .sample ∧ t.free = s.free + 1 ∧ t.links = s.links) ∧
    (s.pcie.perst = false → (∃ t, exec .extest s = .next t ∧ t = loaded .extest 0) ∧
      (∃ t, exec .clamp s = .next t ∧ t = loaded .clamp 0) ∧ (∃ t, exec .highz s = .next t ∧ t = loaded .highz 0)) ∧
    (s.pcie.perst = true → ∀ i, i = Instr.extest ∨ i = .clamp ∨ i = .highz →
      ∃ t, exec i s = .next t ∧ t.mem = s.mem ∧ ∀ l, l < 32 → (linkOf t l).st = .disabled ∧ (linkOf t l).scanHeld = true)) ∧
  (10 ≤ s.drover.step → s.drover.outOfService = false →
    ∃ t, exec .bypass s = .next t ∧ ∀ l, l < 32 → (linkOf s l).scanHeld = true → (linkOf s l).st = .disabled →
      (linkOf s l).byUango = false → (linkOf t l).st = .train ∧ (linkOf t l).scanHeld = false)

/-- SPDM, SMBus and JTAG. -/
def Obligations.SidebandRequests : Prop := Claims.SpdmRequests ∧ Claims.Sideband
end

