-- ==== Sys2Proof/Laws/Tables.lean ====
section
/-! SUPPORT. What the sparse tables, the byte stores, the registers and the predicates read after a write. -/

namespace Sys2Proof.Machine
open Sys2Proof

variable {α : Type}

/-! ## Tables -/

@[simp] theorem look_put_same (d : α) (t : Tab α) (k : Nat) (v : α) : look d (put t k v) k = v := by
  induction t with
  | nil => simp [put, look]
  | cons e t ih =>
    obtain ⟨k', v'⟩ := e
    unfold put
    split
    · simp [look]
    · split
      · simp [look]
      · simp_all [look]

theorem look_put_other (d : α) (t : Tab α) {k j : Nat} (v : α) (h : j ≠ k) :
    look d (put t k v) j = look d t j := by
  induction t with
  | nil => simp [put, look, Ne.symm h]
  | cons e t ih =>
    obtain ⟨k', v'⟩ := e
    unfold put
    split
    · simp [look, Ne.symm h]
    · split
      · subst_vars
        simp [look, Ne.symm h]
      · simp [look, ih]

@[simp] theorem tabFind_put_same (t : Tab α) (k : Nat) (v : α) : tabFind (put t k v) k = some v := by
  induction t with
  | nil => simp [put, tabFind]
  | cons e t ih =>
    obtain ⟨k', v'⟩ := e
    unfold put
    split
    · simp [tabFind]
    · split
      · simp [tabFind]
      · simp_all [tabFind]

theorem tabFind_put_other (t : Tab α) {k j : Nat} (v : α) (h : j ≠ k) :
    tabFind (put t k v) j = tabFind t j := by
  induction t with
  | nil => simp [put, tabFind, Ne.symm h]
  | cons e t ih =>
    obtain ⟨k', v'⟩ := e
    unfold put
    split
    · simp [tabFind, Ne.symm h]
    · split
      · subst_vars
        simp [tabFind, Ne.symm h]
      · simp [tabFind, ih]

theorem look_eq_tabFind (d : α) (t : Tab α) (k : Nat) : look d t k = (tabFind t k).getD d := by
  induction t with
  | nil => rfl
  | cons e t ih =>
    obtain ⟨k', v'⟩ := e
    simp only [look, tabFind]
    split <;> simp_all

@[simp] theorem look_del_same (d : α) (t : Tab α) (k : Nat) : look d (del t k) k = d := by
  induction t with
  | nil => rfl
  | cons e t ih =>
    obtain ⟨k', v'⟩ := e
    unfold del
    split <;> simp_all [look]

theorem look_del_other (d : α) (t : Tab α) {k j : Nat} (h : j ≠ k) : look d (del t k) j = look d t j := by
  induction t with
  | nil => rfl
  | cons e t ih =>
    obtain ⟨k', v'⟩ := e
    unfold del
    split
    · subst_vars
      simp [look, Ne.symm h, ih]
    · simp [look, ih]

@[simp] theorem tabFind_del_same (t : Tab α) (k : Nat) : tabFind (del t k) k = none := by
  induction t with
  | nil => rfl
  | cons e t ih =>
    obtain ⟨k', v'⟩ := e
    unfold del
    split <;> simp_all [tabFind]

/-! ## Byte stores: the canonical form -/

theorem wf_cons (a : Nat) (b : Byte) (m : List Host.Cell) :
    Memory.wf ((a, b) :: m) = true ↔ b ≠ 0 ∧ (∀ c ∈ m.head?, a < c.1) ∧ Memory.wf m = true := by
  cases m with
  | nil => simp [Memory.wf]
  | cons c m =>
    obtain ⟨a', b'⟩ := c
    simp [Memory.wf, and_assoc]

theorem head_put (m : List Host.Cell) (a : Nat) (b : Byte) :
    ∀ c ∈ (put m a b).head?, c.1 = a ∨ c ∈ m.head? := by
  cases m with
  | nil => simp [put]
  | cons e m =>
    obtain ⟨k, v⟩ := e
    unfold put
    split
    · simp
    · split <;> simp

theorem wf_put (m : List Host.Cell) (a : Nat) (b : Byte) (hb : b ≠ 0) (h : Memory.wf m = true) :
    Memory.wf (put m a b) = true := by
  induction m with
  | nil => simpa [put, Memory.wf] using hb
  | cons e m ih =>
    obtain ⟨k, v⟩ := e
    have h' := (wf_cons k v m).1 h
    unfold put
    split
    · rw [wf_cons]
      simp_all
    · split
      · subst_vars
        rw [wf_cons]
        simp_all
      · rename_i h1 h2
        rw [wf_cons]
        refine ⟨h'.1, ?_, ih h'.2.2⟩
        intro c hc
        rcases head_put m a b c hc with hc | hc
        · omega
        · exact h'.2.1 c hc

theorem head_del (m : List Host.Cell) (a : Nat) (h : Memory.wf m = true) :
    ∀ c ∈ (del m a).head?, ∀ e ∈ m.head?, e.1 ≤ c.1 := by
  induction m with
  | nil => simp [del]
  | cons e m ih =>
    obtain ⟨k, v⟩ := e
    have h' := (wf_cons k v m).1 h
    unfold del
    split
    · intro c hc e he
      have := ih h'.2.2 c hc
      simp at he
      subst he
      cases m with
      | nil => simp [del] at hc
      | cons e2 m2 =>
        have h1 := h'.2.1 e2 (by simp)
        have h2 := this e2 (by simp)
        simp only
        omega
    · simp

theorem wf_del (m : List Host.Cell) (a : Nat) (h : Memory.wf m = true) : Memory.wf (del m a) = true := by
  induction m with
  | nil => rfl
  | cons e m ih =>
    obtain ⟨k, v⟩ := e
    have h' := (wf_cons k v m).1 h
    unfold del
    split
    · exact ih h'.2.2
    · rw [wf_cons]
      refine ⟨h'.1, ?_, ih h'.2.2⟩
      intro c hc
      cases m with
      | nil => simp [del] at hc
      | cons e2 m2 =>
        have h1 := h'.2.1 e2 (by simp)
        have h2 := head_del (e2 :: m2) a h'.2.2 c hc e2 (by simp)
        omega

/-- Writing one byte keeps the canonical form. -/
theorem wf_setByte (m : List Host.Cell) (a : Nat) (b : Byte) (h : Memory.wf m = true) :
    Memory.wf (setByte m a b) = true := by
  unfold setByte
  split
  · exact wf_del m a h
  · exact wf_put m a b (by assumption) h

/-- Writing bytes keeps the canonical form. -/
theorem wf_setBytes (m : List Host.Cell) (a : Nat) (bs : List Byte) (h : Memory.wf m = true) :
    Memory.wf (setBytes m a bs) = true := by
  induction bs generalizing m a with
  | nil => exact h
  | cons b bs ih => exact ih _ _ (wf_setByte m a b h)

theorem wf_tail (e : Host.Cell) (m : List Host.Cell) (h : Memory.wf (e :: m) = true) : Memory.wf m = true :=
  ((wf_cons e.1 e.2 m).1 h).2.2

theorem wf_lower (m : List Host.Cell) (k : Nat) (v : Byte) (h : Memory.wf ((k, v) :: m) = true) :
    ∀ c ∈ m, k < c.1 := by
  induction m generalizing k v with
  | nil => simp
  | cons e m ih =>
    have h1 := (wf_cons k v (e :: m)).1 h
    have h2 := h1.2.1 e (by simp)
    intro c hc
    rcases List.mem_cons.1 hc with rfl | hc
    · exact h2
    · exact Nat.lt_trans h2 (ih e.1 e.2 h1.2.2 c hc)

/-- Keeping some of the bytes keeps the canonical form. -/
theorem wf_filter (m : List Host.Cell) (p : Host.Cell → Bool) (h : Memory.wf m = true) :
    Memory.wf (m.filter p) = true := by
  induction m with
  | nil => rfl
  | cons e m ih =>
    obtain ⟨k, v⟩ := e
    have h' := (wf_cons k v m).1 h
    rw [List.filter_cons]
    split
    · rw [wf_cons]
      refine ⟨h'.1, ?_, ih h'.2.2⟩
      intro c hc
      exact wf_lower m k v h c (List.mem_filter.1 (List.mem_of_mem_head? hc)).1
    · exact ih h'.2.2

/-! ## Byte stores: reading after a write -/

@[simp] theorem byteAt_setByte_same (m : List Host.Cell) (a : Nat) (b : Byte) : byteAt (setByte m a b) a = b := by
  unfold setByte byteAt
  split <;> simp_all

theorem byteAt_setByte_other (m : List Host.Cell) {a j : Nat} (b : Byte) (h : j ≠ a) :
    byteAt (setByte m a b) j = byteAt m j := by
  unfold setByte byteAt
  split
  · exact look_del_other _ _ h
  · exact look_put_other _ _ _ h

/-- Every byte outside the written range reads as before. -/
theorem byteAt_setBytes_other (m : List Host.Cell) (a : Nat) (bs : List Byte) (j : Nat)
    (h : j < a ∨ a + bs.length ≤ j) : byteAt (setBytes m a bs) j = byteAt m j := by
  induction bs generalizing m a with
  | nil => rfl
  | cons b bs ih =>
    simp only [List.length_cons] at h
    rw [setBytes, ih _ _ (by omega), byteAt_setByte_other _ _ (by omega)]

/-- Every byte of the written range reads as written. -/
theorem byteAt_setBytes_same (m : List Host.Cell) (a : Nat) (bs : List Byte) (i : Nat) (h : i < bs.length) :
    byteAt (setBytes m a bs) (a + i) = bs[i] := by
  induction bs generalizing m a i with
  | nil => simp at h
  | cons b bs ih =>
    cases i with
    | zero => rw [setBytes, byteAt_setBytes_other _ _ _ _ (by omega)]; simp
    | succ i =>
      rw [setBytes, show a + (i + 1) = (a + 1) + i by omega, ih _ _ i (by simpa using h)]
      simp

/-! ## Registers, predicates, cores -/

@[simp] theorem readG_zero (x : Ctx) : readG x 0 = 0 := rfl
@[simp] theorem readP_zero (x : Ctx) : readP x 0 = true := rfl

theorem readG_writeG (x : Ctx) (d r : Nat) (v : Word64) :
    readG (writeG x d v) r = if r = d ∧ d ≠ 0 then v else readG x r := by
  unfold readG writeG
  by_cases hr : r = 0
  · subst hr
    simp
    intro h h'
    exact absurd h.symm h'
  · by_cases hd : d = 0
    · simp [hr, hd]
    · by_cases h : r = d
      · subst h
        simp [hd]
      · simp [hr, hd, h, look_put_other]

@[simp] theorem coreOf_setCore_same (s : State) (c : Nat) (k : Core) : coreOf (setCore s c k) c = k := by
  simp [coreOf, setCore]

theorem coreOf_setCore_other (s : State) {c j : Nat} (k : Core) (h : j ≠ c) :
    coreOf (setCore s c k) j = coreOf s j := by
  simp [coreOf, setCore, look_put_other _ _ _ h]

@[simp] theorem ctxOf_setCtx_same (k : Core) (n : Nat) (x : Ctx) : ctxOf (setCtx k n x) n = x := by
  simp [ctxOf, setCtx]

theorem ctxOf_setCtx_other (k : Core) {n j : Nat} (x : Ctx) (h : j ≠ n) :
    ctxOf (setCtx k n x) j = ctxOf k j := by
  simp [ctxOf, setCtx, look_put_other _ _ _ h]

end Sys2Proof.Machine
end

