-- ==== Sys2Proof/Laws/Issue.lean ====
section
/-! SUPPORT. What the issue of one instruction does: one lemma per shared operation of Machine/Ops.lean. -/

namespace Sys2Proof.Machine
open Sys2Proof

/-- An instruction that executes is its body, completed. -/
theorem issueStep_runs {x : Issue} {rs ps : List Nat} {s : State} (h : Runs x rs ps s) (body : State → Act) :
    issueStep x true rs ps body s = finishIssue x.core x.ctx (stCtx s x.core x.ctx).pc (body s) := by
  obtain ⟨h1, h2, h3, h4, h5, h6, h7⟩ := h
  simp only [stCtx] at h2 h3 h5 h6 h7 ⊢
  have h4' : ¬((x.pg = 0 ∧ x.pn = true) ∨ (!true) = true) := by simpa using h4
  simp only [issueStep, h1, h2, h3, h5, h6, h7, if_neg h4']
  simp

/-- An instruction with a reserved field faults at decode. -/
theorem issueStep_illegal {x : Issue} {legal : Bool} {rs ps : List Nat} {s : State} (h : issues s x = true)
    (hf : icHits (coreOf s x.core) (stCtx s x.core x.ctx).pc = true) (hp : field (stCtx s x.core x.ctx).pc 48 16 = 0)
    (hl : (x.pg = 0 ∧ x.pn = true) ∨ legal = false) (body : State → Act) :
    issueStep x legal rs ps body s =
      finishIssue x.core x.ctx (stCtx s x.core x.ctx).pc (.fault .illegalInstr 0 s) := by
  have hl' : (x.pg = 0 ∧ x.pn = true) ∨ (!legal) = true := by simpa using hl
  simp only [stCtx] at hf hp ⊢
  simp only [issueStep, h, hf, hp, if_pos hl']
  simp

/-- An instruction whose guard reads false completes with no effect. -/
theorem issueStep_guarded {x : Issue} {rs ps : List Nat} {s : State} (h : issues s x = true)
    (hf : icHits (coreOf s x.core) (stCtx s x.core x.ctx).pc = true) (hp : field (stCtx s x.core x.ctx).pc 48 16 = 0) (h0 : x.pg ≠ 0)
    (hk : predPending (coreOf s x.core) x.ctx x.pg.toNat = false)
    (hg : readP (stCtx s x.core x.ctx) x.pg.toNat = x.pn) (body : State → Act) :
    issueStep x true rs ps body s = finishIssue x.core x.ctx (stCtx s x.core x.ctx).pc (.next s) := by
  have h4' : ¬((x.pg = 0 ∧ x.pn = true) ∨ (!true) = true) := by simpa using fun h => absurd h h0
  simp only [stCtx] at hf hp hg ⊢
  simp only [issueStep, h, hf, hp, hk, hg, if_neg h4']
  simp

@[simp] theorem stCtx_onCtx_same (s : State) (c n : Nat) (f : Ctx → Ctx) :
    stCtx (onCtx s c n f) c n = f (stCtx s c n) := by
  simp [stCtx, onCtx, onCore]

@[simp] theorem coreOf_onCore_same (s : State) (c : Nat) (f : Core → Core) : coreOf (onCore s c f) c = f (coreOf s c) := by
  simp [onCore]

theorem coreOf_onCore_other (s : State) {c j : Nat} (f : Core → Core) (h : j ≠ c) :
    coreOf (onCore s c f) j = coreOf s j := by
  simp [onCore, coreOf_setCore_other _ _ h]

/-- A hit changes the order of the lines and no line (R151). -/
@[simp] theorem icHits_icTouch (k : Core) (a b : Word64) : icHits (icTouch k a) b = icHits k b := by
  rw [Bool.eq_iff_iff]
  simp only [icHits, icLine, icTouch, List.find?_isSome, List.mem_append, List.mem_filter]
  constructor
  · rintro ⟨l, hl | hl, hp⟩ <;> exact ⟨l, hl.1, hp⟩
  · rintro ⟨l, hl, hp⟩
    cases h : l.blk == icBlk a
    · exact ⟨l, .inr ⟨hl, by simpa using h⟩, hp⟩
    · exact ⟨l, .inl ⟨hl, h⟩, hp⟩

@[simp] theorem icHits_countIssue (k : Core) (n : Nat) (a : Word64) : icHits (countIssue k n) a = icHits k a := by
  have h : icHits (countIssue k n) a = icHits (icTouch (coreBump (ctxBump k n 0x100 1) 0x140 1) (ctxOf k n).pc) a := rfl
  rw [h, icHits_icTouch]; rfl

/-- What counting an issue leaves of a context. -/
theorem countIssue_ctx (k : Core) (n : Nat) :
    ctxOf (countIssue k n) n = { ctxOf k n with counters := (ctxOf (countIssue k n) n).counters,
                                                yieldTimer := (ctxOf (countIssue k n) n).yieldTimer } := by
  simp [countIssue, icTouch, coreBump, ctxBump, ctxOf, setCtx]

theorem countIssue_other (k : Core) {n m : Nat} (h : m ≠ n) : ctxOf (countIssue k n) m = ctxOf k m := by
  simp [countIssue, icTouch, coreBump, ctxBump, ctxOf, setCtx, look_put_other _ _ _ h]

theorem countIssue_core (k : Core) (n : Nat) :
    countIssue k n = { k with ctxs := (countIssue k n).ctxs, counters := (countIssue k n).counters,
                              icache := (countIssue k n).icache } := by
  simp [countIssue, icTouch, coreBump, ctxBump, setCtx]

theorem returnTags_ctx (k : Core) (n : Nat) : ctxOf (returnTags k n) n = { ctxOf k n with granted := [] } := by
  simp [returnTags, ctxOf, setCtx]

theorem returnTags_other (k : Core) {n m : Nat} (h : m ≠ n) : ctxOf (returnTags k n) m = ctxOf k m := by
  simp [returnTags, ctxOf, setCtx, look_put_other _ _ _ h]

theorem returnTags_core (k : Core) (n : Nat) :
    returnTags k n = { k with ctxs := (returnTags k n).ctxs, readTags := (returnTags k n).readTags,
                              writeTags := (returnTags k n).writeTags } := by
  simp [returnTags, setCtx]

/-- The core after the issue has been counted and its unused tags returned. -/
def issued (k : Core) (n : Nat) : Core := countIssue (returnTags k n) n

theorem issued_core (k : Core) (n : Nat) :
    issued k n = { k with ctxs := (issued k n).ctxs, counters := (issued k n).counters,
                          readTags := (issued k n).readTags, writeTags := (issued k n).writeTags,
                          icache := (issued k n).icache } := by
  unfold issued
  rw [countIssue_core, returnTags_core]

theorem issued_ctx (k : Core) (n : Nat) :
    ctxOf (issued k n) n = { ctxOf k n with granted := [], counters := (ctxOf (issued k n) n).counters,
                                            yieldTimer := (ctxOf (issued k n) n).yieldTimer } := by
  unfold issued
  rw [countIssue_ctx, returnTags_ctx]

theorem issued_other (k : Core) {n m : Nat} (h : m ≠ n) : ctxOf (issued k n) m = ctxOf k m := by
  unfold issued
  rw [countIssue_other _ h, returnTags_other _ h]

/-- The end of an issue that goes on, at the next instruction or at a branch target. -/
theorem finishIssue_next (c n : Nat) (pc : Word64) (s : State) :
    finishIssue c n pc (.next s) = finishIssue c n pc (.goto (pc + 8) s) := rfl

theorem finishIssue_goto (c n : Nat) (pc dest : Word64) (s : State) :
    OnlyCtx c n s (finishIssue c n pc (.goto dest s)) ∧
    stCtx (finishIssue c n pc (.goto dest s)) c n =
      { stCtx s c n with granted := [], pc := dest, order := (stCtx s c n).order + 1,
                         counters := (stCtx (finishIssue c n pc (.goto dest s)) c n).counters,
                         yieldTimer := (stCtx (finishIssue c n pc (.goto dest s)) c n).yieldTimer } := by
  have hk : finishIssue c n pc (.goto dest s) = setCore s c
      (setCtx (issued (coreOf s c) n) n { ctxOf (issued (coreOf s c) n) n with
        pc := dest, order := (ctxOf (issued (coreOf s c) n) n).order + 1 }) := rfl
  rw [hk]
  refine ⟨⟨⟨rfl, fun j hj => coreOf_setCore_other _ _ hj⟩, ?_, fun a => ?_, fun m hm => ?_⟩, ?_⟩
  · rw [coreOf_setCore_same]
    conv => lhs; rw [issued_core]
    rfl
  · rw [coreOf_setCore_same]
    exact icHits_countIssue (returnTags (coreOf s c) n) n a
  · simp only [stCtx, coreOf_setCore_same]
    rw [ctxOf_setCtx_other _ _ hm, issued_other _ hm]
  · simp only [stCtx, coreOf_setCore_same, ctxOf_setCtx_same]
    rw [issued_ctx]

theorem OnlyCtx.trans {c n : Nat} {s t u : State} (h1 : OnlyCtx c n s t) (h2 : OnlyCtx c n t u) : OnlyCtx c n s u := by
  obtain ⟨⟨h1a, h1b⟩, h1c, h1e, h1d⟩ := h1
  obtain ⟨⟨h2a, h2b⟩, h2c, h2e, h2d⟩ := h2
  refine ⟨⟨?_, fun j hj => (h2b j hj).trans (h1b j hj)⟩, ?_, fun a => (h2e a).trans (h1e a), fun m hm => (h2d m hm).trans (h1d m hm)⟩
  · rw [h2a, h1a]
  · rw [h2c, h1c]

theorem OnlyCtx.onCtx (s : State) (c n : Nat) (f : Ctx → Ctx) : OnlyCtx c n s (onCtx s c n f) := by
  refine ⟨⟨rfl, fun j hj => coreOf_onCore_other _ _ hj⟩, ?_, fun a => ?_, fun m hm => ?_⟩
  · simp [Machine.onCtx, setCtx]
  · simp [Machine.onCtx, setCtx, icHits, icLine]
  · simp [Machine.onCtx, stCtx, ctxOf_setCtx_other _ _ hm]

/-- A body that writes one register: the whole of what the instruction does. -/
theorem writeReg_setsReg (x : Issue) (d : Nat) (f : Ctx → Word64) (s : State) :
    SetsReg x ((stCtx s x.core x.ctx).pc + 8) d (f (stCtx s x.core x.ctx)) s
      (finishIssue x.core x.ctx (stCtx s x.core x.ctx).pc (writeReg x d f s)) := by
  rw [writeReg, finishIssue_next]
  obtain ⟨h1, h2⟩ := finishIssue_goto x.core x.ctx (stCtx s x.core x.ctx).pc ((stCtx s x.core x.ctx).pc + 8)
    (onCtx s x.core x.ctx fun cx => writeG cx d (f cx))
  refine ⟨⟨(OnlyCtx.onCtx s x.core x.ctx _).trans h1, ?_⟩, fun r => ?_, ?_⟩
  · simp only
    rw [h2]
    simp only [stCtx_onCtx_same]
    unfold writeG
    split <;> rfl
  · rw [h2]
    simp only [stCtx_onCtx_same]
    have := readG_writeG (stCtx s x.core x.ctx) d r (f (stCtx s x.core x.ctx))
    rw [← this]
    rfl
  · rw [h2]
    simp only [stCtx_onCtx_same]
    unfold writeG
    split <;> rfl

/-- A body that changes nothing. -/
theorem goto_setsReg (x : Issue) (pc dest : Word64) (s : State) :
    SetsReg x dest 0 0 s (finishIssue x.core x.ctx pc (.goto dest s)) := by
  obtain ⟨h1, h2⟩ := finishIssue_goto x.core x.ctx pc dest s
  refine ⟨⟨h1, ?_⟩, fun r => ?_, ?_⟩
  · simp only
    rw [h2]
  · rw [h2]
    simp [readG]
  · rw [h2]

end Sys2Proof.Machine
end

