-- ==== Sys2Proof/Laws/State.lean ====
section
/-! SUPPORT. What each named update leaves: one lemma per update and field, true by unfolding the update, so that no
proof unfolds a record. The last part reads back what an update wrote. -/

namespace Sys2Proof.Machine
open Sys2Proof

/-! ## Updates of the module -/

@[simp] theorem setCore_pending (s : State) (c : Nat) (k : Core) : (setCore s c k).pending = s.pending := rfl
@[simp] theorem setCore_free (s : State) (c : Nat) (k : Core) : (setCore s c k).free = s.free := rfl
@[simp] theorem setCore_nextId (s : State) (c : Nat) (k : Core) : (setCore s c k).nextId = s.nextId := rfl
@[simp] theorem setCore_ftime (s : State) (c : Nat) (k : Core) : (setCore s c k).ftime = s.ftime := rfl
@[simp] theorem setCore_folds (s : State) (c : Nat) (k : Core) : (setCore s c k).folds = s.folds := rfl
@[simp] theorem setCore_mem (s : State) (c : Nat) (k : Core) : (setCore s c k).mem = s.mem := rfl
@[simp] theorem setCore_badWords (s : State) (c : Nat) (k : Core) : (setCore s c k).badWords = s.badWords := rfl
@[simp] theorem setCore_badSectors (s : State) (c : Nat) (k : Core) : (setCore s c k).badSectors = s.badSectors := rfl
@[simp] theorem setCore_badUnits (s : State) (c : Nat) (k : Core) : (setCore s c k).badUnits = s.badUnits := rfl
@[simp] theorem setCore_frames (s : State) (c : Nat) (k : Core) : (setCore s c k).frames = s.frames := rfl
@[simp] theorem setCore_reqs (s : State) (c : Nat) (k : Core) : (setCore s c k).reqs = s.reqs := rfl
@[simp] theorem setCore_jobsPg (s : State) (c : Nat) (k : Core) : (setCore s c k).jobsPg = s.jobsPg := rfl
@[simp] theorem setCore_invals (s : State) (c : Nat) (k : Core) : (setCore s c k).invals = s.invals := rfl
@[simp] theorem setCore_hostWait (s : State) (c : Nat) (k : Core) : (setCore s c k).hostWait = s.hostWait := rfl
@[simp] theorem setCore_sigs (s : State) (c : Nat) (k : Core) : (setCore s c k).sigs = s.sigs := rfl
@[simp] theorem setCore_dma (s : State) (c : Nat) (k : Core) : (setCore s c k).dma = s.dma := rfl
@[simp] theorem setCore_dmaLast (s : State) (c : Nat) (k : Core) : (setCore s c k).dmaLast = s.dmaLast := rfl
@[simp] theorem setCore_planes (s : State) (c : Nat) (k : Core) : (setCore s c k).planes = s.planes := rfl
@[simp] theorem setCore_links (s : State) (c : Nat) (k : Core) : (setCore s c k).links = s.links := rfl
@[simp] theorem setCore_dies (s : State) (c : Nat) (k : Core) : (setCore s c k).dies = s.dies := rfl
@[simp] theorem setCore_chans (s : State) (c : Nat) (k : Core) : (setCore s c k).chans = s.chans := rfl
@[simp] theorem setCore_setups (s : State) (c : Nat) (k : Core) : (setCore s c k).setups = s.setups := rfl
@[simp] theorem setCore_fabric (s : State) (c : Nat) (k : Core) : (setCore s c k).fabric = s.fabric := rfl
@[simp] theorem setCore_tenants (s : State) (c : Nat) (k : Core) : (setCore s c k).tenants = s.tenants := rfl
@[simp] theorem setCore_funcs (s : State) (c : Nat) (k : Core) : (setCore s c k).funcs = s.funcs := rfl
@[simp] theorem setCore_grid (s : State) (c : Nat) (k : Core) : (setCore s c k).grid = s.grid := rfl
@[simp] theorem setCore_far (s : State) (c : Nat) (k : Core) : (setCore s c k).far = s.far := rfl
@[simp] theorem setCore_fuses (s : State) (c : Nat) (k : Core) : (setCore s c k).fuses = s.fuses := rfl
@[simp] theorem setCore_plover (s : State) (c : Nat) (k : Core) : (setCore s c k).plover = s.plover := rfl
@[simp] theorem setCore_drover (s : State) (c : Nat) (k : Core) : (setCore s c k).drover = s.drover := rfl
@[simp] theorem setCore_bands (s : State) (c : Nat) (k : Core) : (setCore s c k).bands = s.bands := rfl
@[simp] theorem setCore_power (s : State) (c : Nat) (k : Core) : (setCore s c k).power = s.power := rfl
@[simp] theorem setCore_pcie (s : State) (c : Nat) (k : Core) : (setCore s c k).pcie = s.pcie := rfl
@[simp] theorem setCore_side (s : State) (c : Nat) (k : Core) : (setCore s c k).side = s.side := rfl
@[simp] theorem setCore_telem (s : State) (c : Nat) (k : Core) : (setCore s c k).telem = s.telem := rfl
@[simp] theorem setCore_hostReads (s : State) (c : Nat) (k : Core) : (setCore s c k).hostReads = s.hostReads := rfl

@[simp] theorem onCore_pending (s : State) (c : Nat) (f : Core → Core) : (onCore s c f).pending = s.pending := rfl
@[simp] theorem onCore_free (s : State) (c : Nat) (f : Core → Core) : (onCore s c f).free = s.free := rfl
@[simp] theorem onCore_nextId (s : State) (c : Nat) (f : Core → Core) : (onCore s c f).nextId = s.nextId := rfl
@[simp] theorem onCore_ftime (s : State) (c : Nat) (f : Core → Core) : (onCore s c f).ftime = s.ftime := rfl
@[simp] theorem onCore_folds (s : State) (c : Nat) (f : Core → Core) : (onCore s c f).folds = s.folds := rfl
@[simp] theorem onCore_mem (s : State) (c : Nat) (f : Core → Core) : (onCore s c f).mem = s.mem := rfl
@[simp] theorem onCore_badWords (s : State) (c : Nat) (f : Core → Core) : (onCore s c f).badWords = s.badWords := rfl
@[simp] theorem onCore_badSectors (s : State) (c : Nat) (f : Core → Core) : (onCore s c f).badSectors = s.badSectors := rfl
@[simp] theorem onCore_badUnits (s : State) (c : Nat) (f : Core → Core) : (onCore s c f).badUnits = s.badUnits := rfl
@[simp] theorem onCore_frames (s : State) (c : Nat) (f : Core → Core) : (onCore s c f).frames = s.frames := rfl
@[simp] theorem onCore_reqs (s : State) (c : Nat) (f : Core → Core) : (onCore s c f).reqs = s.reqs := rfl
@[simp] theorem onCore_jobsPg (s : State) (c : Nat) (f : Core → Core) : (onCore s c f).jobsPg = s.jobsPg := rfl
@[simp] theorem onCore_invals (s : State) (c : Nat) (f : Core → Core) : (onCore s c f).invals = s.invals := rfl
@[simp] theorem onCore_hostWait (s : State) (c : Nat) (f : Core → Core) : (onCore s c f).hostWait = s.hostWait := rfl
@[simp] theorem onCore_sigs (s : State) (c : Nat) (f : Core → Core) : (onCore s c f).sigs = s.sigs := rfl
@[simp] theorem onCore_dma (s : State) (c : Nat) (f : Core → Core) : (onCore s c f).dma = s.dma := rfl
@[simp] theorem onCore_dmaLast (s : State) (c : Nat) (f : Core → Core) : (onCore s c f).dmaLast = s.dmaLast := rfl
@[simp] theorem onCore_planes (s : State) (c : Nat) (f : Core → Core) : (onCore s c f).planes = s.planes := rfl
@[simp] theorem onCore_links (s : State) (c : Nat) (f : Core → Core) : (onCore s c f).links = s.links := rfl
@[simp] theorem onCore_dies (s : State) (c : Nat) (f : Core → Core) : (onCore s c f).dies = s.dies := rfl
@[simp] theorem onCore_chans (s : State) (c : Nat) (f : Core → Core) : (onCore s c f).chans = s.chans := rfl
@[simp] theorem onCore_setups (s : State) (c : Nat) (f : Core → Core) : (onCore s c f).setups = s.setups := rfl
@[simp] theorem onCore_fabric (s : State) (c : Nat) (f : Core → Core) : (onCore s c f).fabric = s.fabric := rfl
@[simp] theorem onCore_tenants (s : State) (c : Nat) (f : Core → Core) : (onCore s c f).tenants = s.tenants := rfl
@[simp] theorem onCore_funcs (s : State) (c : Nat) (f : Core → Core) : (onCore s c f).funcs = s.funcs := rfl
@[simp] theorem onCore_grid (s : State) (c : Nat) (f : Core → Core) : (onCore s c f).grid = s.grid := rfl
@[simp] theorem onCore_far (s : State) (c : Nat) (f : Core → Core) : (onCore s c f).far = s.far := rfl
@[simp] theorem onCore_fuses (s : State) (c : Nat) (f : Core → Core) : (onCore s c f).fuses = s.fuses := rfl
@[simp] theorem onCore_plover (s : State) (c : Nat) (f : Core → Core) : (onCore s c f).plover = s.plover := rfl
@[simp] theorem onCore_drover (s : State) (c : Nat) (f : Core → Core) : (onCore s c f).drover = s.drover := rfl
@[simp] theorem onCore_bands (s : State) (c : Nat) (f : Core → Core) : (onCore s c f).bands = s.bands := rfl
@[simp] theorem onCore_power (s : State) (c : Nat) (f : Core → Core) : (onCore s c f).power = s.power := rfl
@[simp] theorem onCore_pcie (s : State) (c : Nat) (f : Core → Core) : (onCore s c f).pcie = s.pcie := rfl
@[simp] theorem onCore_side (s : State) (c : Nat) (f : Core → Core) : (onCore s c f).side = s.side := rfl
@[simp] theorem onCore_telem (s : State) (c : Nat) (f : Core → Core) : (onCore s c f).telem = s.telem := rfl
@[simp] theorem onCore_hostReads (s : State) (c : Nat) (f : Core → Core) : (onCore s c f).hostReads = s.hostReads := rfl

@[simp] theorem onCtx_pending (s : State) (c n : Nat) (f : Ctx → Ctx) : (onCtx s c n f).pending = s.pending := rfl
@[simp] theorem onCtx_free (s : State) (c n : Nat) (f : Ctx → Ctx) : (onCtx s c n f).free = s.free := rfl
@[simp] theorem onCtx_nextId (s : State) (c n : Nat) (f : Ctx → Ctx) : (onCtx s c n f).nextId = s.nextId := rfl
@[simp] theorem onCtx_ftime (s : State) (c n : Nat) (f : Ctx → Ctx) : (onCtx s c n f).ftime = s.ftime := rfl
@[simp] theorem onCtx_folds (s : State) (c n : Nat) (f : Ctx → Ctx) : (onCtx s c n f).folds = s.folds := rfl
@[simp] theorem onCtx_mem (s : State) (c n : Nat) (f : Ctx → Ctx) : (onCtx s c n f).mem = s.mem := rfl
@[simp] theorem onCtx_badWords (s : State) (c n : Nat) (f : Ctx → Ctx) : (onCtx s c n f).badWords = s.badWords := rfl
@[simp] theorem onCtx_badSectors (s : State) (c n : Nat) (f : Ctx → Ctx) : (onCtx s c n f).badSectors = s.badSectors := rfl
@[simp] theorem onCtx_badUnits (s : State) (c n : Nat) (f : Ctx → Ctx) : (onCtx s c n f).badUnits = s.badUnits := rfl
@[simp] theorem onCtx_frames (s : State) (c n : Nat) (f : Ctx → Ctx) : (onCtx s c n f).frames = s.frames := rfl
@[simp] theorem onCtx_reqs (s : State) (c n : Nat) (f : Ctx → Ctx) : (onCtx s c n f).reqs = s.reqs := rfl
@[simp] theorem onCtx_jobsPg (s : State) (c n : Nat) (f : Ctx → Ctx) : (onCtx s c n f).jobsPg = s.jobsPg := rfl
@[simp] theorem onCtx_invals (s : State) (c n : Nat) (f : Ctx → Ctx) : (onCtx s c n f).invals = s.invals := rfl
@[simp] theorem onCtx_hostWait (s : State) (c n : Nat) (f : Ctx → Ctx) : (onCtx s c n f).hostWait = s.hostWait := rfl
@[simp] theorem onCtx_sigs (s : State) (c n : Nat) (f : Ctx → Ctx) : (onCtx s c n f).sigs = s.sigs := rfl
@[simp] theorem onCtx_dma (s : State) (c n : Nat) (f : Ctx → Ctx) : (onCtx s c n f).dma = s.dma := rfl
@[simp] theorem onCtx_dmaLast (s : State) (c n : Nat) (f : Ctx → Ctx) : (onCtx s c n f).dmaLast = s.dmaLast := rfl
@[simp] theorem onCtx_planes (s : State) (c n : Nat) (f : Ctx → Ctx) : (onCtx s c n f).planes = s.planes := rfl
@[simp] theorem onCtx_links (s : State) (c n : Nat) (f : Ctx → Ctx) : (onCtx s c n f).links = s.links := rfl
@[simp] theorem onCtx_dies (s : State) (c n : Nat) (f : Ctx → Ctx) : (onCtx s c n f).dies = s.dies := rfl
@[simp] theorem onCtx_chans (s : State) (c n : Nat) (f : Ctx → Ctx) : (onCtx s c n f).chans = s.chans := rfl
@[simp] theorem onCtx_setups (s : State) (c n : Nat) (f : Ctx → Ctx) : (onCtx s c n f).setups = s.setups := rfl
@[simp] theorem onCtx_fabric (s : State) (c n : Nat) (f : Ctx → Ctx) : (onCtx s c n f).fabric = s.fabric := rfl
@[simp] theorem onCtx_tenants (s : State) (c n : Nat) (f : Ctx → Ctx) : (onCtx s c n f).tenants = s.tenants := rfl
@[simp] theorem onCtx_funcs (s : State) (c n : Nat) (f : Ctx → Ctx) : (onCtx s c n f).funcs = s.funcs := rfl
@[simp] theorem onCtx_grid (s : State) (c n : Nat) (f : Ctx → Ctx) : (onCtx s c n f).grid = s.grid := rfl
@[simp] theorem onCtx_far (s : State) (c n : Nat) (f : Ctx → Ctx) : (onCtx s c n f).far = s.far := rfl
@[simp] theorem onCtx_fuses (s : State) (c n : Nat) (f : Ctx → Ctx) : (onCtx s c n f).fuses = s.fuses := rfl
@[simp] theorem onCtx_plover (s : State) (c n : Nat) (f : Ctx → Ctx) : (onCtx s c n f).plover = s.plover := rfl
@[simp] theorem onCtx_drover (s : State) (c n : Nat) (f : Ctx → Ctx) : (onCtx s c n f).drover = s.drover := rfl
@[simp] theorem onCtx_bands (s : State) (c n : Nat) (f : Ctx → Ctx) : (onCtx s c n f).bands = s.bands := rfl
@[simp] theorem onCtx_power (s : State) (c n : Nat) (f : Ctx → Ctx) : (onCtx s c n f).power = s.power := rfl
@[simp] theorem onCtx_pcie (s : State) (c n : Nat) (f : Ctx → Ctx) : (onCtx s c n f).pcie = s.pcie := rfl
@[simp] theorem onCtx_side (s : State) (c n : Nat) (f : Ctx → Ctx) : (onCtx s c n f).side = s.side := rfl
@[simp] theorem onCtx_telem (s : State) (c n : Nat) (f : Ctx → Ctx) : (onCtx s c n f).telem = s.telem := rfl
@[simp] theorem onCtx_hostReads (s : State) (c n : Nat) (f : Ctx → Ctx) : (onCtx s c n f).hostReads = s.hostReads := rfl

@[simp] theorem setTenant_pending (s : State) (n : Nat) (x : Tenant) : (setTenant s n x).pending = s.pending := rfl
@[simp] theorem setTenant_free (s : State) (n : Nat) (x : Tenant) : (setTenant s n x).free = s.free := rfl
@[simp] theorem setTenant_nextId (s : State) (n : Nat) (x : Tenant) : (setTenant s n x).nextId = s.nextId := rfl
@[simp] theorem setTenant_ftime (s : State) (n : Nat) (x : Tenant) : (setTenant s n x).ftime = s.ftime := rfl
@[simp] theorem setTenant_cores (s : State) (n : Nat) (x : Tenant) : (setTenant s n x).cores = s.cores := rfl
@[simp] theorem setTenant_folds (s : State) (n : Nat) (x : Tenant) : (setTenant s n x).folds = s.folds := rfl
@[simp] theorem setTenant_mem (s : State) (n : Nat) (x : Tenant) : (setTenant s n x).mem = s.mem := rfl
@[simp] theorem setTenant_badWords (s : State) (n : Nat) (x : Tenant) : (setTenant s n x).badWords = s.badWords := rfl
@[simp] theorem setTenant_badSectors (s : State) (n : Nat) (x : Tenant) : (setTenant s n x).badSectors = s.badSectors := rfl
@[simp] theorem setTenant_badUnits (s : State) (n : Nat) (x : Tenant) : (setTenant s n x).badUnits = s.badUnits := rfl
@[simp] theorem setTenant_frames (s : State) (n : Nat) (x : Tenant) : (setTenant s n x).frames = s.frames := rfl
@[simp] theorem setTenant_reqs (s : State) (n : Nat) (x : Tenant) : (setTenant s n x).reqs = s.reqs := rfl
@[simp] theorem setTenant_jobsPg (s : State) (n : Nat) (x : Tenant) : (setTenant s n x).jobsPg = s.jobsPg := rfl
@[simp] theorem setTenant_invals (s : State) (n : Nat) (x : Tenant) : (setTenant s n x).invals = s.invals := rfl
@[simp] theorem setTenant_hostWait (s : State) (n : Nat) (x : Tenant) : (setTenant s n x).hostWait = s.hostWait := rfl
@[simp] theorem setTenant_sigs (s : State) (n : Nat) (x : Tenant) : (setTenant s n x).sigs = s.sigs := rfl
@[simp] theorem setTenant_dma (s : State) (n : Nat) (x : Tenant) : (setTenant s n x).dma = s.dma := rfl
@[simp] theorem setTenant_dmaLast (s : State) (n : Nat) (x : Tenant) : (setTenant s n x).dmaLast = s.dmaLast := rfl
@[simp] theorem setTenant_planes (s : State) (n : Nat) (x : Tenant) : (setTenant s n x).planes = s.planes := rfl
@[simp] theorem setTenant_links (s : State) (n : Nat) (x : Tenant) : (setTenant s n x).links = s.links := rfl
@[simp] theorem setTenant_dies (s : State) (n : Nat) (x : Tenant) : (setTenant s n x).dies = s.dies := rfl
@[simp] theorem setTenant_chans (s : State) (n : Nat) (x : Tenant) : (setTenant s n x).chans = s.chans := rfl
@[simp] theorem setTenant_setups (s : State) (n : Nat) (x : Tenant) : (setTenant s n x).setups = s.setups := rfl
@[simp] theorem setTenant_fabric (s : State) (n : Nat) (x : Tenant) : (setTenant s n x).fabric = s.fabric := rfl
@[simp] theorem setTenant_funcs (s : State) (n : Nat) (x : Tenant) : (setTenant s n x).funcs = s.funcs := rfl
@[simp] theorem setTenant_grid (s : State) (n : Nat) (x : Tenant) : (setTenant s n x).grid = s.grid := rfl
@[simp] theorem setTenant_far (s : State) (n : Nat) (x : Tenant) : (setTenant s n x).far = s.far := rfl
@[simp] theorem setTenant_fuses (s : State) (n : Nat) (x : Tenant) : (setTenant s n x).fuses = s.fuses := rfl
@[simp] theorem setTenant_plover (s : State) (n : Nat) (x : Tenant) : (setTenant s n x).plover = s.plover := rfl
@[simp] theorem setTenant_drover (s : State) (n : Nat) (x : Tenant) : (setTenant s n x).drover = s.drover := rfl
@[simp] theorem setTenant_bands (s : State) (n : Nat) (x : Tenant) : (setTenant s n x).bands = s.bands := rfl
@[simp] theorem setTenant_power (s : State) (n : Nat) (x : Tenant) : (setTenant s n x).power = s.power := rfl
@[simp] theorem setTenant_pcie (s : State) (n : Nat) (x : Tenant) : (setTenant s n x).pcie = s.pcie := rfl
@[simp] theorem setTenant_side (s : State) (n : Nat) (x : Tenant) : (setTenant s n x).side = s.side := rfl
@[simp] theorem setTenant_telem (s : State) (n : Nat) (x : Tenant) : (setTenant s n x).telem = s.telem := rfl
@[simp] theorem setTenant_hostReads (s : State) (n : Nat) (x : Tenant) : (setTenant s n x).hostReads = s.hostReads := rfl

@[simp] theorem setLeaf_pending (s : State) (n va : Nat) (b : Bool) (l : Leaf) : (setLeaf s n va b l).pending = s.pending := rfl
@[simp] theorem setLeaf_free (s : State) (n va : Nat) (b : Bool) (l : Leaf) : (setLeaf s n va b l).free = s.free := rfl
@[simp] theorem setLeaf_nextId (s : State) (n va : Nat) (b : Bool) (l : Leaf) : (setLeaf s n va b l).nextId = s.nextId := rfl
@[simp] theorem setLeaf_ftime (s : State) (n va : Nat) (b : Bool) (l : Leaf) : (setLeaf s n va b l).ftime = s.ftime := rfl
@[simp] theorem setLeaf_cores (s : State) (n va : Nat) (b : Bool) (l : Leaf) : (setLeaf s n va b l).cores = s.cores := rfl
@[simp] theorem setLeaf_folds (s : State) (n va : Nat) (b : Bool) (l : Leaf) : (setLeaf s n va b l).folds = s.folds := rfl
@[simp] theorem setLeaf_mem (s : State) (n va : Nat) (b : Bool) (l : Leaf) : (setLeaf s n va b l).mem = s.mem := rfl
@[simp] theorem setLeaf_badWords (s : State) (n va : Nat) (b : Bool) (l : Leaf) : (setLeaf s n va b l).badWords = s.badWords := rfl
@[simp] theorem setLeaf_badSectors (s : State) (n va : Nat) (b : Bool) (l : Leaf) : (setLeaf s n va b l).badSectors = s.badSectors := rfl
@[simp] theorem setLeaf_badUnits (s : State) (n va : Nat) (b : Bool) (l : Leaf) : (setLeaf s n va b l).badUnits = s.badUnits := rfl
@[simp] theorem setLeaf_frames (s : State) (n va : Nat) (b : Bool) (l : Leaf) : (setLeaf s n va b l).frames = s.frames := rfl
@[simp] theorem setLeaf_reqs (s : State) (n va : Nat) (b : Bool) (l : Leaf) : (setLeaf s n va b l).reqs = s.reqs := rfl
@[simp] theorem setLeaf_jobsPg (s : State) (n va : Nat) (b : Bool) (l : Leaf) : (setLeaf s n va b l).jobsPg = s.jobsPg := rfl
@[simp] theorem setLeaf_invals (s : State) (n va : Nat) (b : Bool) (l : Leaf) : (setLeaf s n va b l).invals = s.invals := rfl
@[simp] theorem setLeaf_hostWait (s : State) (n va : Nat) (b : Bool) (l : Leaf) : (setLeaf s n va b l).hostWait = s.hostWait := rfl
@[simp] theorem setLeaf_sigs (s : State) (n va : Nat) (b : Bool) (l : Leaf) : (setLeaf s n va b l).sigs = s.sigs := rfl
@[simp] theorem setLeaf_dma (s : State) (n va : Nat) (b : Bool) (l : Leaf) : (setLeaf s n va b l).dma = s.dma := rfl
@[simp] theorem setLeaf_dmaLast (s : State) (n va : Nat) (b : Bool) (l : Leaf) : (setLeaf s n va b l).dmaLast = s.dmaLast := rfl
@[simp] theorem setLeaf_planes (s : State) (n va : Nat) (b : Bool) (l : Leaf) : (setLeaf s n va b l).planes = s.planes := rfl
@[simp] theorem setLeaf_links (s : State) (n va : Nat) (b : Bool) (l : Leaf) : (setLeaf s n va b l).links = s.links := rfl
@[simp] theorem setLeaf_dies (s : State) (n va : Nat) (b : Bool) (l : Leaf) : (setLeaf s n va b l).dies = s.dies := rfl
@[simp] theorem setLeaf_chans (s : State) (n va : Nat) (b : Bool) (l : Leaf) : (setLeaf s n va b l).chans = s.chans := rfl
@[simp] theorem setLeaf_setups (s : State) (n va : Nat) (b : Bool) (l : Leaf) : (setLeaf s n va b l).setups = s.setups := rfl
@[simp] theorem setLeaf_fabric (s : State) (n va : Nat) (b : Bool) (l : Leaf) : (setLeaf s n va b l).fabric = s.fabric := rfl
@[simp] theorem setLeaf_funcs (s : State) (n va : Nat) (b : Bool) (l : Leaf) : (setLeaf s n va b l).funcs = s.funcs := rfl
@[simp] theorem setLeaf_grid (s : State) (n va : Nat) (b : Bool) (l : Leaf) : (setLeaf s n va b l).grid = s.grid := rfl
@[simp] theorem setLeaf_far (s : State) (n va : Nat) (b : Bool) (l : Leaf) : (setLeaf s n va b l).far = s.far := rfl
@[simp] theorem setLeaf_fuses (s : State) (n va : Nat) (b : Bool) (l : Leaf) : (setLeaf s n va b l).fuses = s.fuses := rfl
@[simp] theorem setLeaf_plover (s : State) (n va : Nat) (b : Bool) (l : Leaf) : (setLeaf s n va b l).plover = s.plover := rfl
@[simp] theorem setLeaf_drover (s : State) (n va : Nat) (b : Bool) (l : Leaf) : (setLeaf s n va b l).drover = s.drover := rfl
@[simp] theorem setLeaf_bands (s : State) (n va : Nat) (b : Bool) (l : Leaf) : (setLeaf s n va b l).bands = s.bands := rfl
@[simp] theorem setLeaf_power (s : State) (n va : Nat) (b : Bool) (l : Leaf) : (setLeaf s n va b l).power = s.power := rfl
@[simp] theorem setLeaf_pcie (s : State) (n va : Nat) (b : Bool) (l : Leaf) : (setLeaf s n va b l).pcie = s.pcie := rfl
@[simp] theorem setLeaf_side (s : State) (n va : Nat) (b : Bool) (l : Leaf) : (setLeaf s n va b l).side = s.side := rfl
@[simp] theorem setLeaf_telem (s : State) (n va : Nat) (b : Bool) (l : Leaf) : (setLeaf s n va b l).telem = s.telem := rfl
@[simp] theorem setLeaf_hostReads (s : State) (n va : Nat) (b : Bool) (l : Leaf) : (setLeaf s n va b l).hostReads = s.hostReads := rfl

@[simp] theorem setHandle_pending (s : State) (n h : Nat) (x : Handle) : (setHandle s n h x).pending = s.pending := rfl
@[simp] theorem setHandle_free (s : State) (n h : Nat) (x : Handle) : (setHandle s n h x).free = s.free := rfl
@[simp] theorem setHandle_nextId (s : State) (n h : Nat) (x : Handle) : (setHandle s n h x).nextId = s.nextId := rfl
@[simp] theorem setHandle_ftime (s : State) (n h : Nat) (x : Handle) : (setHandle s n h x).ftime = s.ftime := rfl
@[simp] theorem setHandle_cores (s : State) (n h : Nat) (x : Handle) : (setHandle s n h x).cores = s.cores := rfl
@[simp] theorem setHandle_folds (s : State) (n h : Nat) (x : Handle) : (setHandle s n h x).folds = s.folds := rfl
@[simp] theorem setHandle_mem (s : State) (n h : Nat) (x : Handle) : (setHandle s n h x).mem = s.mem := rfl
@[simp] theorem setHandle_badWords (s : State) (n h : Nat) (x : Handle) : (setHandle s n h x).badWords = s.badWords := rfl
@[simp] theorem setHandle_badSectors (s : State) (n h : Nat) (x : Handle) : (setHandle s n h x).badSectors = s.badSectors := rfl
@[simp] theorem setHandle_badUnits (s : State) (n h : Nat) (x : Handle) : (setHandle s n h x).badUnits = s.badUnits := rfl
@[simp] theorem setHandle_frames (s : State) (n h : Nat) (x : Handle) : (setHandle s n h x).frames = s.frames := rfl
@[simp] theorem setHandle_reqs (s : State) (n h : Nat) (x : Handle) : (setHandle s n h x).reqs = s.reqs := rfl
@[simp] theorem setHandle_jobsPg (s : State) (n h : Nat) (x : Handle) : (setHandle s n h x).jobsPg = s.jobsPg := rfl
@[simp] theorem setHandle_invals (s : State) (n h : Nat) (x : Handle) : (setHandle s n h x).invals = s.invals := rfl
@[simp] theorem setHandle_hostWait (s : State) (n h : Nat) (x : Handle) : (setHandle s n h x).hostWait = s.hostWait := rfl
@[simp] theorem setHandle_sigs (s : State) (n h : Nat) (x : Handle) : (setHandle s n h x).sigs = s.sigs := rfl
@[simp] theorem setHandle_dma (s : State) (n h : Nat) (x : Handle) : (setHandle s n h x).dma = s.dma := rfl
@[simp] theorem setHandle_dmaLast (s : State) (n h : Nat) (x : Handle) : (setHandle s n h x).dmaLast = s.dmaLast := rfl
@[simp] theorem setHandle_planes (s : State) (n h : Nat) (x : Handle) : (setHandle s n h x).planes = s.planes := rfl
@[simp] theorem setHandle_links (s : State) (n h : Nat) (x : Handle) : (setHandle s n h x).links = s.links := rfl
@[simp] theorem setHandle_dies (s : State) (n h : Nat) (x : Handle) : (setHandle s n h x).dies = s.dies := rfl
@[simp] theorem setHandle_chans (s : State) (n h : Nat) (x : Handle) : (setHandle s n h x).chans = s.chans := rfl
@[simp] theorem setHandle_setups (s : State) (n h : Nat) (x : Handle) : (setHandle s n h x).setups = s.setups := rfl
@[simp] theorem setHandle_fabric (s : State) (n h : Nat) (x : Handle) : (setHandle s n h x).fabric = s.fabric := rfl
@[simp] theorem setHandle_funcs (s : State) (n h : Nat) (x : Handle) : (setHandle s n h x).funcs = s.funcs := rfl
@[simp] theorem setHandle_grid (s : State) (n h : Nat) (x : Handle) : (setHandle s n h x).grid = s.grid := rfl
@[simp] theorem setHandle_far (s : State) (n h : Nat) (x : Handle) : (setHandle s n h x).far = s.far := rfl
@[simp] theorem setHandle_fuses (s : State) (n h : Nat) (x : Handle) : (setHandle s n h x).fuses = s.fuses := rfl
@[simp] theorem setHandle_plover (s : State) (n h : Nat) (x : Handle) : (setHandle s n h x).plover = s.plover := rfl
@[simp] theorem setHandle_drover (s : State) (n h : Nat) (x : Handle) : (setHandle s n h x).drover = s.drover := rfl
@[simp] theorem setHandle_bands (s : State) (n h : Nat) (x : Handle) : (setHandle s n h x).bands = s.bands := rfl
@[simp] theorem setHandle_power (s : State) (n h : Nat) (x : Handle) : (setHandle s n h x).power = s.power := rfl
@[simp] theorem setHandle_pcie (s : State) (n h : Nat) (x : Handle) : (setHandle s n h x).pcie = s.pcie := rfl
@[simp] theorem setHandle_side (s : State) (n h : Nat) (x : Handle) : (setHandle s n h x).side = s.side := rfl
@[simp] theorem setHandle_telem (s : State) (n h : Nat) (x : Handle) : (setHandle s n h x).telem = s.telem := rfl
@[simp] theorem setHandle_hostReads (s : State) (n h : Nat) (x : Handle) : (setHandle s n h x).hostReads = s.hostReads := rfl

@[simp] theorem setJobRec_pending (s : State) (n j : Nat) (x : Job) : (setJobRec s n j x).pending = s.pending := rfl
@[simp] theorem setJobRec_free (s : State) (n j : Nat) (x : Job) : (setJobRec s n j x).free = s.free := rfl
@[simp] theorem setJobRec_nextId (s : State) (n j : Nat) (x : Job) : (setJobRec s n j x).nextId = s.nextId := rfl
@[simp] theorem setJobRec_ftime (s : State) (n j : Nat) (x : Job) : (setJobRec s n j x).ftime = s.ftime := rfl
@[simp] theorem setJobRec_cores (s : State) (n j : Nat) (x : Job) : (setJobRec s n j x).cores = s.cores := rfl
@[simp] theorem setJobRec_folds (s : State) (n j : Nat) (x : Job) : (setJobRec s n j x).folds = s.folds := rfl
@[simp] theorem setJobRec_mem (s : State) (n j : Nat) (x : Job) : (setJobRec s n j x).mem = s.mem := rfl
@[simp] theorem setJobRec_badWords (s : State) (n j : Nat) (x : Job) : (setJobRec s n j x).badWords = s.badWords := rfl
@[simp] theorem setJobRec_badSectors (s : State) (n j : Nat) (x : Job) : (setJobRec s n j x).badSectors = s.badSectors := rfl
@[simp] theorem setJobRec_badUnits (s : State) (n j : Nat) (x : Job) : (setJobRec s n j x).badUnits = s.badUnits := rfl
@[simp] theorem setJobRec_frames (s : State) (n j : Nat) (x : Job) : (setJobRec s n j x).frames = s.frames := rfl
@[simp] theorem setJobRec_reqs (s : State) (n j : Nat) (x : Job) : (setJobRec s n j x).reqs = s.reqs := rfl
@[simp] theorem setJobRec_jobsPg (s : State) (n j : Nat) (x : Job) : (setJobRec s n j x).jobsPg = s.jobsPg := rfl
@[simp] theorem setJobRec_invals (s : State) (n j : Nat) (x : Job) : (setJobRec s n j x).invals = s.invals := rfl
@[simp] theorem setJobRec_hostWait (s : State) (n j : Nat) (x : Job) : (setJobRec s n j x).hostWait = s.hostWait := rfl
@[simp] theorem setJobRec_sigs (s : State) (n j : Nat) (x : Job) : (setJobRec s n j x).sigs = s.sigs := rfl
@[simp] theorem setJobRec_dma (s : State) (n j : Nat) (x : Job) : (setJobRec s n j x).dma = s.dma := rfl
@[simp] theorem setJobRec_dmaLast (s : State) (n j : Nat) (x : Job) : (setJobRec s n j x).dmaLast = s.dmaLast := rfl
@[simp] theorem setJobRec_planes (s : State) (n j : Nat) (x : Job) : (setJobRec s n j x).planes = s.planes := rfl
@[simp] theorem setJobRec_links (s : State) (n j : Nat) (x : Job) : (setJobRec s n j x).links = s.links := rfl
@[simp] theorem setJobRec_dies (s : State) (n j : Nat) (x : Job) : (setJobRec s n j x).dies = s.dies := rfl
@[simp] theorem setJobRec_chans (s : State) (n j : Nat) (x : Job) : (setJobRec s n j x).chans = s.chans := rfl
@[simp] theorem setJobRec_setups (s : State) (n j : Nat) (x : Job) : (setJobRec s n j x).setups = s.setups := rfl
@[simp] theorem setJobRec_fabric (s : State) (n j : Nat) (x : Job) : (setJobRec s n j x).fabric = s.fabric := rfl
@[simp] theorem setJobRec_funcs (s : State) (n j : Nat) (x : Job) : (setJobRec s n j x).funcs = s.funcs := rfl
@[simp] theorem setJobRec_grid (s : State) (n j : Nat) (x : Job) : (setJobRec s n j x).grid = s.grid := rfl
@[simp] theorem setJobRec_far (s : State) (n j : Nat) (x : Job) : (setJobRec s n j x).far = s.far := rfl
@[simp] theorem setJobRec_fuses (s : State) (n j : Nat) (x : Job) : (setJobRec s n j x).fuses = s.fuses := rfl
@[simp] theorem setJobRec_plover (s : State) (n j : Nat) (x : Job) : (setJobRec s n j x).plover = s.plover := rfl
@[simp] theorem setJobRec_drover (s : State) (n j : Nat) (x : Job) : (setJobRec s n j x).drover = s.drover := rfl
@[simp] theorem setJobRec_bands (s : State) (n j : Nat) (x : Job) : (setJobRec s n j x).bands = s.bands := rfl
@[simp] theorem setJobRec_power (s : State) (n j : Nat) (x : Job) : (setJobRec s n j x).power = s.power := rfl
@[simp] theorem setJobRec_pcie (s : State) (n j : Nat) (x : Job) : (setJobRec s n j x).pcie = s.pcie := rfl
@[simp] theorem setJobRec_side (s : State) (n j : Nat) (x : Job) : (setJobRec s n j x).side = s.side := rfl
@[simp] theorem setJobRec_telem (s : State) (n j : Nat) (x : Job) : (setJobRec s n j x).telem = s.telem := rfl
@[simp] theorem setJobRec_hostReads (s : State) (n j : Nat) (x : Job) : (setJobRec s n j x).hostReads = s.hostReads := rfl

@[simp] theorem setTable_pending (s : State) (n j : Nat) (x : Table) : (setTable s n j x).pending = s.pending := rfl
@[simp] theorem setTable_free (s : State) (n j : Nat) (x : Table) : (setTable s n j x).free = s.free := rfl
@[simp] theorem setTable_nextId (s : State) (n j : Nat) (x : Table) : (setTable s n j x).nextId = s.nextId := rfl
@[simp] theorem setTable_ftime (s : State) (n j : Nat) (x : Table) : (setTable s n j x).ftime = s.ftime := rfl
@[simp] theorem setTable_cores (s : State) (n j : Nat) (x : Table) : (setTable s n j x).cores = s.cores := rfl
@[simp] theorem setTable_folds (s : State) (n j : Nat) (x : Table) : (setTable s n j x).folds = s.folds := rfl
@[simp] theorem setTable_mem (s : State) (n j : Nat) (x : Table) : (setTable s n j x).mem = s.mem := rfl
@[simp] theorem setTable_badWords (s : State) (n j : Nat) (x : Table) : (setTable s n j x).badWords = s.badWords := rfl
@[simp] theorem setTable_badSectors (s : State) (n j : Nat) (x : Table) : (setTable s n j x).badSectors = s.badSectors := rfl
@[simp] theorem setTable_badUnits (s : State) (n j : Nat) (x : Table) : (setTable s n j x).badUnits = s.badUnits := rfl
@[simp] theorem setTable_frames (s : State) (n j : Nat) (x : Table) : (setTable s n j x).frames = s.frames := rfl
@[simp] theorem setTable_reqs (s : State) (n j : Nat) (x : Table) : (setTable s n j x).reqs = s.reqs := rfl
@[simp] theorem setTable_jobsPg (s : State) (n j : Nat) (x : Table) : (setTable s n j x).jobsPg = s.jobsPg := rfl
@[simp] theorem setTable_invals (s : State) (n j : Nat) (x : Table) : (setTable s n j x).invals = s.invals := rfl
@[simp] theorem setTable_hostWait (s : State) (n j : Nat) (x : Table) : (setTable s n j x).hostWait = s.hostWait := rfl
@[simp] theorem setTable_sigs (s : State) (n j : Nat) (x : Table) : (setTable s n j x).sigs = s.sigs := rfl
@[simp] theorem setTable_dma (s : State) (n j : Nat) (x : Table) : (setTable s n j x).dma = s.dma := rfl
@[simp] theorem setTable_dmaLast (s : State) (n j : Nat) (x : Table) : (setTable s n j x).dmaLast = s.dmaLast := rfl
@[simp] theorem setTable_planes (s : State) (n j : Nat) (x : Table) : (setTable s n j x).planes = s.planes := rfl
@[simp] theorem setTable_links (s : State) (n j : Nat) (x : Table) : (setTable s n j x).links = s.links := rfl
@[simp] theorem setTable_dies (s : State) (n j : Nat) (x : Table) : (setTable s n j x).dies = s.dies := rfl
@[simp] theorem setTable_chans (s : State) (n j : Nat) (x : Table) : (setTable s n j x).chans = s.chans := rfl
@[simp] theorem setTable_setups (s : State) (n j : Nat) (x : Table) : (setTable s n j x).setups = s.setups := rfl
@[simp] theorem setTable_fabric (s : State) (n j : Nat) (x : Table) : (setTable s n j x).fabric = s.fabric := rfl
@[simp] theorem setTable_funcs (s : State) (n j : Nat) (x : Table) : (setTable s n j x).funcs = s.funcs := rfl
@[simp] theorem setTable_grid (s : State) (n j : Nat) (x : Table) : (setTable s n j x).grid = s.grid := rfl
@[simp] theorem setTable_far (s : State) (n j : Nat) (x : Table) : (setTable s n j x).far = s.far := rfl
@[simp] theorem setTable_fuses (s : State) (n j : Nat) (x : Table) : (setTable s n j x).fuses = s.fuses := rfl
@[simp] theorem setTable_plover (s : State) (n j : Nat) (x : Table) : (setTable s n j x).plover = s.plover := rfl
@[simp] theorem setTable_drover (s : State) (n j : Nat) (x : Table) : (setTable s n j x).drover = s.drover := rfl
@[simp] theorem setTable_bands (s : State) (n j : Nat) (x : Table) : (setTable s n j x).bands = s.bands := rfl
@[simp] theorem setTable_power (s : State) (n j : Nat) (x : Table) : (setTable s n j x).power = s.power := rfl
@[simp] theorem setTable_pcie (s : State) (n j : Nat) (x : Table) : (setTable s n j x).pcie = s.pcie := rfl
@[simp] theorem setTable_side (s : State) (n j : Nat) (x : Table) : (setTable s n j x).side = s.side := rfl
@[simp] theorem setTable_telem (s : State) (n j : Nat) (x : Table) : (setTable s n j x).telem = s.telem := rfl
@[simp] theorem setTable_hostReads (s : State) (n j : Nat) (x : Table) : (setTable s n j x).hostReads = s.hostReads := rfl

@[simp] theorem setProg_pending (s : State) (n j : Nat) (x : Prog) : (setProg s n j x).pending = s.pending := rfl
@[simp] theorem setProg_free (s : State) (n j : Nat) (x : Prog) : (setProg s n j x).free = s.free := rfl
@[simp] theorem setProg_nextId (s : State) (n j : Nat) (x : Prog) : (setProg s n j x).nextId = s.nextId := rfl
@[simp] theorem setProg_ftime (s : State) (n j : Nat) (x : Prog) : (setProg s n j x).ftime = s.ftime := rfl
@[simp] theorem setProg_cores (s : State) (n j : Nat) (x : Prog) : (setProg s n j x).cores = s.cores := rfl
@[simp] theorem setProg_folds (s : State) (n j : Nat) (x : Prog) : (setProg s n j x).folds = s.folds := rfl
@[simp] theorem setProg_mem (s : State) (n j : Nat) (x : Prog) : (setProg s n j x).mem = s.mem := rfl
@[simp] theorem setProg_badWords (s : State) (n j : Nat) (x : Prog) : (setProg s n j x).badWords = s.badWords := rfl
@[simp] theorem setProg_badSectors (s : State) (n j : Nat) (x : Prog) : (setProg s n j x).badSectors = s.badSectors := rfl
@[simp] theorem setProg_badUnits (s : State) (n j : Nat) (x : Prog) : (setProg s n j x).badUnits = s.badUnits := rfl
@[simp] theorem setProg_frames (s : State) (n j : Nat) (x : Prog) : (setProg s n j x).frames = s.frames := rfl
@[simp] theorem setProg_reqs (s : State) (n j : Nat) (x : Prog) : (setProg s n j x).reqs = s.reqs := rfl
@[simp] theorem setProg_jobsPg (s : State) (n j : Nat) (x : Prog) : (setProg s n j x).jobsPg = s.jobsPg := rfl
@[simp] theorem setProg_invals (s : State) (n j : Nat) (x : Prog) : (setProg s n j x).invals = s.invals := rfl
@[simp] theorem setProg_hostWait (s : State) (n j : Nat) (x : Prog) : (setProg s n j x).hostWait = s.hostWait := rfl
@[simp] theorem setProg_sigs (s : State) (n j : Nat) (x : Prog) : (setProg s n j x).sigs = s.sigs := rfl
@[simp] theorem setProg_dma (s : State) (n j : Nat) (x : Prog) : (setProg s n j x).dma = s.dma := rfl
@[simp] theorem setProg_dmaLast (s : State) (n j : Nat) (x : Prog) : (setProg s n j x).dmaLast = s.dmaLast := rfl
@[simp] theorem setProg_planes (s : State) (n j : Nat) (x : Prog) : (setProg s n j x).planes = s.planes := rfl
@[simp] theorem setProg_links (s : State) (n j : Nat) (x : Prog) : (setProg s n j x).links = s.links := rfl
@[simp] theorem setProg_dies (s : State) (n j : Nat) (x : Prog) : (setProg s n j x).dies = s.dies := rfl
@[simp] theorem setProg_chans (s : State) (n j : Nat) (x : Prog) : (setProg s n j x).chans = s.chans := rfl
@[simp] theorem setProg_setups (s : State) (n j : Nat) (x : Prog) : (setProg s n j x).setups = s.setups := rfl
@[simp] theorem setProg_fabric (s : State) (n j : Nat) (x : Prog) : (setProg s n j x).fabric = s.fabric := rfl
@[simp] theorem setProg_funcs (s : State) (n j : Nat) (x : Prog) : (setProg s n j x).funcs = s.funcs := rfl
@[simp] theorem setProg_grid (s : State) (n j : Nat) (x : Prog) : (setProg s n j x).grid = s.grid := rfl
@[simp] theorem setProg_far (s : State) (n j : Nat) (x : Prog) : (setProg s n j x).far = s.far := rfl
@[simp] theorem setProg_fuses (s : State) (n j : Nat) (x : Prog) : (setProg s n j x).fuses = s.fuses := rfl
@[simp] theorem setProg_plover (s : State) (n j : Nat) (x : Prog) : (setProg s n j x).plover = s.plover := rfl
@[simp] theorem setProg_drover (s : State) (n j : Nat) (x : Prog) : (setProg s n j x).drover = s.drover := rfl
@[simp] theorem setProg_bands (s : State) (n j : Nat) (x : Prog) : (setProg s n j x).bands = s.bands := rfl
@[simp] theorem setProg_power (s : State) (n j : Nat) (x : Prog) : (setProg s n j x).power = s.power := rfl
@[simp] theorem setProg_pcie (s : State) (n j : Nat) (x : Prog) : (setProg s n j x).pcie = s.pcie := rfl
@[simp] theorem setProg_side (s : State) (n j : Nat) (x : Prog) : (setProg s n j x).side = s.side := rfl
@[simp] theorem setProg_telem (s : State) (n j : Nat) (x : Prog) : (setProg s n j x).telem = s.telem := rfl
@[simp] theorem setProg_hostReads (s : State) (n j : Nat) (x : Prog) : (setProg s n j x).hostReads = s.hostReads := rfl

@[simp] theorem setChan_pending (s : State) (c : Nat) (x : Chan) : (setChan s c x).pending = s.pending := rfl
@[simp] theorem setChan_free (s : State) (c : Nat) (x : Chan) : (setChan s c x).free = s.free := rfl
@[simp] theorem setChan_nextId (s : State) (c : Nat) (x : Chan) : (setChan s c x).nextId = s.nextId := rfl
@[simp] theorem setChan_ftime (s : State) (c : Nat) (x : Chan) : (setChan s c x).ftime = s.ftime := rfl
@[simp] theorem setChan_cores (s : State) (c : Nat) (x : Chan) : (setChan s c x).cores = s.cores := rfl
@[simp] theorem setChan_folds (s : State) (c : Nat) (x : Chan) : (setChan s c x).folds = s.folds := rfl
@[simp] theorem setChan_mem (s : State) (c : Nat) (x : Chan) : (setChan s c x).mem = s.mem := rfl
@[simp] theorem setChan_badWords (s : State) (c : Nat) (x : Chan) : (setChan s c x).badWords = s.badWords := rfl
@[simp] theorem setChan_badSectors (s : State) (c : Nat) (x : Chan) : (setChan s c x).badSectors = s.badSectors := rfl
@[simp] theorem setChan_badUnits (s : State) (c : Nat) (x : Chan) : (setChan s c x).badUnits = s.badUnits := rfl
@[simp] theorem setChan_frames (s : State) (c : Nat) (x : Chan) : (setChan s c x).frames = s.frames := rfl
@[simp] theorem setChan_reqs (s : State) (c : Nat) (x : Chan) : (setChan s c x).reqs = s.reqs := rfl
@[simp] theorem setChan_jobsPg (s : State) (c : Nat) (x : Chan) : (setChan s c x).jobsPg = s.jobsPg := rfl
@[simp] theorem setChan_invals (s : State) (c : Nat) (x : Chan) : (setChan s c x).invals = s.invals := rfl
@[simp] theorem setChan_hostWait (s : State) (c : Nat) (x : Chan) : (setChan s c x).hostWait = s.hostWait := rfl
@[simp] theorem setChan_sigs (s : State) (c : Nat) (x : Chan) : (setChan s c x).sigs = s.sigs := rfl
@[simp] theorem setChan_dma (s : State) (c : Nat) (x : Chan) : (setChan s c x).dma = s.dma := rfl
@[simp] theorem setChan_dmaLast (s : State) (c : Nat) (x : Chan) : (setChan s c x).dmaLast = s.dmaLast := rfl
@[simp] theorem setChan_planes (s : State) (c : Nat) (x : Chan) : (setChan s c x).planes = s.planes := rfl
@[simp] theorem setChan_links (s : State) (c : Nat) (x : Chan) : (setChan s c x).links = s.links := rfl
@[simp] theorem setChan_dies (s : State) (c : Nat) (x : Chan) : (setChan s c x).dies = s.dies := rfl
@[simp] theorem setChan_setups (s : State) (c : Nat) (x : Chan) : (setChan s c x).setups = s.setups := rfl
@[simp] theorem setChan_fabric (s : State) (c : Nat) (x : Chan) : (setChan s c x).fabric = s.fabric := rfl
@[simp] theorem setChan_tenants (s : State) (c : Nat) (x : Chan) : (setChan s c x).tenants = s.tenants := rfl
@[simp] theorem setChan_funcs (s : State) (c : Nat) (x : Chan) : (setChan s c x).funcs = s.funcs := rfl
@[simp] theorem setChan_grid (s : State) (c : Nat) (x : Chan) : (setChan s c x).grid = s.grid := rfl
@[simp] theorem setChan_far (s : State) (c : Nat) (x : Chan) : (setChan s c x).far = s.far := rfl
@[simp] theorem setChan_fuses (s : State) (c : Nat) (x : Chan) : (setChan s c x).fuses = s.fuses := rfl
@[simp] theorem setChan_plover (s : State) (c : Nat) (x : Chan) : (setChan s c x).plover = s.plover := rfl
@[simp] theorem setChan_drover (s : State) (c : Nat) (x : Chan) : (setChan s c x).drover = s.drover := rfl
@[simp] theorem setChan_bands (s : State) (c : Nat) (x : Chan) : (setChan s c x).bands = s.bands := rfl
@[simp] theorem setChan_power (s : State) (c : Nat) (x : Chan) : (setChan s c x).power = s.power := rfl
@[simp] theorem setChan_pcie (s : State) (c : Nat) (x : Chan) : (setChan s c x).pcie = s.pcie := rfl
@[simp] theorem setChan_side (s : State) (c : Nat) (x : Chan) : (setChan s c x).side = s.side := rfl
@[simp] theorem setChan_telem (s : State) (c : Nat) (x : Chan) : (setChan s c x).telem = s.telem := rfl
@[simp] theorem setChan_hostReads (s : State) (c : Nat) (x : Chan) : (setChan s c x).hostReads = s.hostReads := rfl

@[simp] theorem setLink_pending (s : State) (l : Nat) (x : Link) : (setLink s l x).pending = s.pending := rfl
@[simp] theorem setLink_free (s : State) (l : Nat) (x : Link) : (setLink s l x).free = s.free := rfl
@[simp] theorem setLink_nextId (s : State) (l : Nat) (x : Link) : (setLink s l x).nextId = s.nextId := rfl
@[simp] theorem setLink_ftime (s : State) (l : Nat) (x : Link) : (setLink s l x).ftime = s.ftime := rfl
@[simp] theorem setLink_cores (s : State) (l : Nat) (x : Link) : (setLink s l x).cores = s.cores := rfl
@[simp] theorem setLink_folds (s : State) (l : Nat) (x : Link) : (setLink s l x).folds = s.folds := rfl
@[simp] theorem setLink_mem (s : State) (l : Nat) (x : Link) : (setLink s l x).mem = s.mem := rfl
@[simp] theorem setLink_badWords (s : State) (l : Nat) (x : Link) : (setLink s l x).badWords = s.badWords := rfl
@[simp] theorem setLink_badSectors (s : State) (l : Nat) (x : Link) : (setLink s l x).badSectors = s.badSectors := rfl
@[simp] theorem setLink_badUnits (s : State) (l : Nat) (x : Link) : (setLink s l x).badUnits = s.badUnits := rfl
@[simp] theorem setLink_frames (s : State) (l : Nat) (x : Link) : (setLink s l x).frames = s.frames := rfl
@[simp] theorem setLink_reqs (s : State) (l : Nat) (x : Link) : (setLink s l x).reqs = s.reqs := rfl
@[simp] theorem setLink_jobsPg (s : State) (l : Nat) (x : Link) : (setLink s l x).jobsPg = s.jobsPg := rfl
@[simp] theorem setLink_invals (s : State) (l : Nat) (x : Link) : (setLink s l x).invals = s.invals := rfl
@[simp] theorem setLink_hostWait (s : State) (l : Nat) (x : Link) : (setLink s l x).hostWait = s.hostWait := rfl
@[simp] theorem setLink_sigs (s : State) (l : Nat) (x : Link) : (setLink s l x).sigs = s.sigs := rfl
@[simp] theorem setLink_dma (s : State) (l : Nat) (x : Link) : (setLink s l x).dma = s.dma := rfl
@[simp] theorem setLink_dmaLast (s : State) (l : Nat) (x : Link) : (setLink s l x).dmaLast = s.dmaLast := rfl
@[simp] theorem setLink_planes (s : State) (l : Nat) (x : Link) : (setLink s l x).planes = s.planes := rfl
@[simp] theorem setLink_dies (s : State) (l : Nat) (x : Link) : (setLink s l x).dies = s.dies := rfl
@[simp] theorem setLink_chans (s : State) (l : Nat) (x : Link) : (setLink s l x).chans = s.chans := rfl
@[simp] theorem setLink_setups (s : State) (l : Nat) (x : Link) : (setLink s l x).setups = s.setups := rfl
@[simp] theorem setLink_fabric (s : State) (l : Nat) (x : Link) : (setLink s l x).fabric = s.fabric := rfl
@[simp] theorem setLink_tenants (s : State) (l : Nat) (x : Link) : (setLink s l x).tenants = s.tenants := rfl
@[simp] theorem setLink_funcs (s : State) (l : Nat) (x : Link) : (setLink s l x).funcs = s.funcs := rfl
@[simp] theorem setLink_grid (s : State) (l : Nat) (x : Link) : (setLink s l x).grid = s.grid := rfl
@[simp] theorem setLink_far (s : State) (l : Nat) (x : Link) : (setLink s l x).far = s.far := rfl
@[simp] theorem setLink_fuses (s : State) (l : Nat) (x : Link) : (setLink s l x).fuses = s.fuses := rfl
@[simp] theorem setLink_plover (s : State) (l : Nat) (x : Link) : (setLink s l x).plover = s.plover := rfl
@[simp] theorem setLink_drover (s : State) (l : Nat) (x : Link) : (setLink s l x).drover = s.drover := rfl
@[simp] theorem setLink_bands (s : State) (l : Nat) (x : Link) : (setLink s l x).bands = s.bands := rfl
@[simp] theorem setLink_power (s : State) (l : Nat) (x : Link) : (setLink s l x).power = s.power := rfl
@[simp] theorem setLink_pcie (s : State) (l : Nat) (x : Link) : (setLink s l x).pcie = s.pcie := rfl
@[simp] theorem setLink_side (s : State) (l : Nat) (x : Link) : (setLink s l x).side = s.side := rfl
@[simp] theorem setLink_telem (s : State) (l : Nat) (x : Link) : (setLink s l x).telem = s.telem := rfl
@[simp] theorem setLink_hostReads (s : State) (l : Nat) (x : Link) : (setLink s l x).hostReads = s.hostReads := rfl

@[simp] theorem setDie_pending (s : State) (b : Bool) (x : LinkDie) : (setDie s b x).pending = s.pending := rfl
@[simp] theorem setDie_free (s : State) (b : Bool) (x : LinkDie) : (setDie s b x).free = s.free := rfl
@[simp] theorem setDie_nextId (s : State) (b : Bool) (x : LinkDie) : (setDie s b x).nextId = s.nextId := rfl
@[simp] theorem setDie_ftime (s : State) (b : Bool) (x : LinkDie) : (setDie s b x).ftime = s.ftime := rfl
@[simp] theorem setDie_cores (s : State) (b : Bool) (x : LinkDie) : (setDie s b x).cores = s.cores := rfl
@[simp] theorem setDie_folds (s : State) (b : Bool) (x : LinkDie) : (setDie s b x).folds = s.folds := rfl
@[simp] theorem setDie_mem (s : State) (b : Bool) (x : LinkDie) : (setDie s b x).mem = s.mem := rfl
@[simp] theorem setDie_badWords (s : State) (b : Bool) (x : LinkDie) : (setDie s b x).badWords = s.badWords := rfl
@[simp] theorem setDie_badSectors (s : State) (b : Bool) (x : LinkDie) : (setDie s b x).badSectors = s.badSectors := rfl
@[simp] theorem setDie_badUnits (s : State) (b : Bool) (x : LinkDie) : (setDie s b x).badUnits = s.badUnits := rfl
@[simp] theorem setDie_frames (s : State) (b : Bool) (x : LinkDie) : (setDie s b x).frames = s.frames := rfl
@[simp] theorem setDie_reqs (s : State) (b : Bool) (x : LinkDie) : (setDie s b x).reqs = s.reqs := rfl
@[simp] theorem setDie_jobsPg (s : State) (b : Bool) (x : LinkDie) : (setDie s b x).jobsPg = s.jobsPg := rfl
@[simp] theorem setDie_invals (s : State) (b : Bool) (x : LinkDie) : (setDie s b x).invals = s.invals := rfl
@[simp] theorem setDie_hostWait (s : State) (b : Bool) (x : LinkDie) : (setDie s b x).hostWait = s.hostWait := rfl
@[simp] theorem setDie_sigs (s : State) (b : Bool) (x : LinkDie) : (setDie s b x).sigs = s.sigs := rfl
@[simp] theorem setDie_dma (s : State) (b : Bool) (x : LinkDie) : (setDie s b x).dma = s.dma := rfl
@[simp] theorem setDie_dmaLast (s : State) (b : Bool) (x : LinkDie) : (setDie s b x).dmaLast = s.dmaLast := rfl
@[simp] theorem setDie_planes (s : State) (b : Bool) (x : LinkDie) : (setDie s b x).planes = s.planes := rfl
@[simp] theorem setDie_links (s : State) (b : Bool) (x : LinkDie) : (setDie s b x).links = s.links := rfl
@[simp] theorem setDie_chans (s : State) (b : Bool) (x : LinkDie) : (setDie s b x).chans = s.chans := rfl
@[simp] theorem setDie_setups (s : State) (b : Bool) (x : LinkDie) : (setDie s b x).setups = s.setups := rfl
@[simp] theorem setDie_fabric (s : State) (b : Bool) (x : LinkDie) : (setDie s b x).fabric = s.fabric := rfl
@[simp] theorem setDie_tenants (s : State) (b : Bool) (x : LinkDie) : (setDie s b x).tenants = s.tenants := rfl
@[simp] theorem setDie_funcs (s : State) (b : Bool) (x : LinkDie) : (setDie s b x).funcs = s.funcs := rfl
@[simp] theorem setDie_grid (s : State) (b : Bool) (x : LinkDie) : (setDie s b x).grid = s.grid := rfl
@[simp] theorem setDie_far (s : State) (b : Bool) (x : LinkDie) : (setDie s b x).far = s.far := rfl
@[simp] theorem setDie_fuses (s : State) (b : Bool) (x : LinkDie) : (setDie s b x).fuses = s.fuses := rfl
@[simp] theorem setDie_plover (s : State) (b : Bool) (x : LinkDie) : (setDie s b x).plover = s.plover := rfl
@[simp] theorem setDie_drover (s : State) (b : Bool) (x : LinkDie) : (setDie s b x).drover = s.drover := rfl
@[simp] theorem setDie_bands (s : State) (b : Bool) (x : LinkDie) : (setDie s b x).bands = s.bands := rfl
@[simp] theorem setDie_power (s : State) (b : Bool) (x : LinkDie) : (setDie s b x).power = s.power := rfl
@[simp] theorem setDie_pcie (s : State) (b : Bool) (x : LinkDie) : (setDie s b x).pcie = s.pcie := rfl
@[simp] theorem setDie_side (s : State) (b : Bool) (x : LinkDie) : (setDie s b x).side = s.side := rfl
@[simp] theorem setDie_telem (s : State) (b : Bool) (x : LinkDie) : (setDie s b x).telem = s.telem := rfl
@[simp] theorem setDie_hostReads (s : State) (b : Bool) (x : LinkDie) : (setDie s b x).hostReads = s.hostReads := rfl

@[simp] theorem setDma_pending (s : State) (c : Nat) (x : DmaChan) : (setDma s c x).pending = s.pending := rfl
@[simp] theorem setDma_free (s : State) (c : Nat) (x : DmaChan) : (setDma s c x).free = s.free := rfl
@[simp] theorem setDma_nextId (s : State) (c : Nat) (x : DmaChan) : (setDma s c x).nextId = s.nextId := rfl
@[simp] theorem setDma_ftime (s : State) (c : Nat) (x : DmaChan) : (setDma s c x).ftime = s.ftime := rfl
@[simp] theorem setDma_cores (s : State) (c : Nat) (x : DmaChan) : (setDma s c x).cores = s.cores := rfl
@[simp] theorem setDma_folds (s : State) (c : Nat) (x : DmaChan) : (setDma s c x).folds = s.folds := rfl
@[simp] theorem setDma_mem (s : State) (c : Nat) (x : DmaChan) : (setDma s c x).mem = s.mem := rfl
@[simp] theorem setDma_badWords (s : State) (c : Nat) (x : DmaChan) : (setDma s c x).badWords = s.badWords := rfl
@[simp] theorem setDma_badSectors (s : State) (c : Nat) (x : DmaChan) : (setDma s c x).badSectors = s.badSectors := rfl
@[simp] theorem setDma_badUnits (s : State) (c : Nat) (x : DmaChan) : (setDma s c x).badUnits = s.badUnits := rfl
@[simp] theorem setDma_frames (s : State) (c : Nat) (x : DmaChan) : (setDma s c x).frames = s.frames := rfl
@[simp] theorem setDma_reqs (s : State) (c : Nat) (x : DmaChan) : (setDma s c x).reqs = s.reqs := rfl
@[simp] theorem setDma_jobsPg (s : State) (c : Nat) (x : DmaChan) : (setDma s c x).jobsPg = s.jobsPg := rfl
@[simp] theorem setDma_invals (s : State) (c : Nat) (x : DmaChan) : (setDma s c x).invals = s.invals := rfl
@[simp] theorem setDma_hostWait (s : State) (c : Nat) (x : DmaChan) : (setDma s c x).hostWait = s.hostWait := rfl
@[simp] theorem setDma_sigs (s : State) (c : Nat) (x : DmaChan) : (setDma s c x).sigs = s.sigs := rfl
@[simp] theorem setDma_dmaLast (s : State) (c : Nat) (x : DmaChan) : (setDma s c x).dmaLast = s.dmaLast := rfl
@[simp] theorem setDma_planes (s : State) (c : Nat) (x : DmaChan) : (setDma s c x).planes = s.planes := rfl
@[simp] theorem setDma_links (s : State) (c : Nat) (x : DmaChan) : (setDma s c x).links = s.links := rfl
@[simp] theorem setDma_dies (s : State) (c : Nat) (x : DmaChan) : (setDma s c x).dies = s.dies := rfl
@[simp] theorem setDma_chans (s : State) (c : Nat) (x : DmaChan) : (setDma s c x).chans = s.chans := rfl
@[simp] theorem setDma_setups (s : State) (c : Nat) (x : DmaChan) : (setDma s c x).setups = s.setups := rfl
@[simp] theorem setDma_fabric (s : State) (c : Nat) (x : DmaChan) : (setDma s c x).fabric = s.fabric := rfl
@[simp] theorem setDma_tenants (s : State) (c : Nat) (x : DmaChan) : (setDma s c x).tenants = s.tenants := rfl
@[simp] theorem setDma_funcs (s : State) (c : Nat) (x : DmaChan) : (setDma s c x).funcs = s.funcs := rfl
@[simp] theorem setDma_grid (s : State) (c : Nat) (x : DmaChan) : (setDma s c x).grid = s.grid := rfl
@[simp] theorem setDma_far (s : State) (c : Nat) (x : DmaChan) : (setDma s c x).far = s.far := rfl
@[simp] theorem setDma_fuses (s : State) (c : Nat) (x : DmaChan) : (setDma s c x).fuses = s.fuses := rfl
@[simp] theorem setDma_plover (s : State) (c : Nat) (x : DmaChan) : (setDma s c x).plover = s.plover := rfl
@[simp] theorem setDma_drover (s : State) (c : Nat) (x : DmaChan) : (setDma s c x).drover = s.drover := rfl
@[simp] theorem setDma_bands (s : State) (c : Nat) (x : DmaChan) : (setDma s c x).bands = s.bands := rfl
@[simp] theorem setDma_power (s : State) (c : Nat) (x : DmaChan) : (setDma s c x).power = s.power := rfl
@[simp] theorem setDma_pcie (s : State) (c : Nat) (x : DmaChan) : (setDma s c x).pcie = s.pcie := rfl
@[simp] theorem setDma_side (s : State) (c : Nat) (x : DmaChan) : (setDma s c x).side = s.side := rfl
@[simp] theorem setDma_telem (s : State) (c : Nat) (x : DmaChan) : (setDma s c x).telem = s.telem := rfl
@[simp] theorem setDma_hostReads (s : State) (c : Nat) (x : DmaChan) : (setDma s c x).hostReads = s.hostReads := rfl

@[simp] theorem setFunc_pending (s : State) (fn : Nat) (x : Func) : (setFunc s fn x).pending = s.pending := rfl
@[simp] theorem setFunc_free (s : State) (fn : Nat) (x : Func) : (setFunc s fn x).free = s.free := rfl
@[simp] theorem setFunc_nextId (s : State) (fn : Nat) (x : Func) : (setFunc s fn x).nextId = s.nextId := rfl
@[simp] theorem setFunc_ftime (s : State) (fn : Nat) (x : Func) : (setFunc s fn x).ftime = s.ftime := rfl
@[simp] theorem setFunc_cores (s : State) (fn : Nat) (x : Func) : (setFunc s fn x).cores = s.cores := rfl
@[simp] theorem setFunc_folds (s : State) (fn : Nat) (x : Func) : (setFunc s fn x).folds = s.folds := rfl
@[simp] theorem setFunc_mem (s : State) (fn : Nat) (x : Func) : (setFunc s fn x).mem = s.mem := rfl
@[simp] theorem setFunc_badWords (s : State) (fn : Nat) (x : Func) : (setFunc s fn x).badWords = s.badWords := rfl
@[simp] theorem setFunc_badSectors (s : State) (fn : Nat) (x : Func) : (setFunc s fn x).badSectors = s.badSectors := rfl
@[simp] theorem setFunc_badUnits (s : State) (fn : Nat) (x : Func) : (setFunc s fn x).badUnits = s.badUnits := rfl
@[simp] theorem setFunc_frames (s : State) (fn : Nat) (x : Func) : (setFunc s fn x).frames = s.frames := rfl
@[simp] theorem setFunc_reqs (s : State) (fn : Nat) (x : Func) : (setFunc s fn x).reqs = s.reqs := rfl
@[simp] theorem setFunc_jobsPg (s : State) (fn : Nat) (x : Func) : (setFunc s fn x).jobsPg = s.jobsPg := rfl
@[simp] theorem setFunc_invals (s : State) (fn : Nat) (x : Func) : (setFunc s fn x).invals = s.invals := rfl
@[simp] theorem setFunc_hostWait (s : State) (fn : Nat) (x : Func) : (setFunc s fn x).hostWait = s.hostWait := rfl
@[simp] theorem setFunc_sigs (s : State) (fn : Nat) (x : Func) : (setFunc s fn x).sigs = s.sigs := rfl
@[simp] theorem setFunc_dma (s : State) (fn : Nat) (x : Func) : (setFunc s fn x).dma = s.dma := rfl
@[simp] theorem setFunc_dmaLast (s : State) (fn : Nat) (x : Func) : (setFunc s fn x).dmaLast = s.dmaLast := rfl
@[simp] theorem setFunc_planes (s : State) (fn : Nat) (x : Func) : (setFunc s fn x).planes = s.planes := rfl
@[simp] theorem setFunc_links (s : State) (fn : Nat) (x : Func) : (setFunc s fn x).links = s.links := rfl
@[simp] theorem setFunc_dies (s : State) (fn : Nat) (x : Func) : (setFunc s fn x).dies = s.dies := rfl
@[simp] theorem setFunc_chans (s : State) (fn : Nat) (x : Func) : (setFunc s fn x).chans = s.chans := rfl
@[simp] theorem setFunc_setups (s : State) (fn : Nat) (x : Func) : (setFunc s fn x).setups = s.setups := rfl
@[simp] theorem setFunc_fabric (s : State) (fn : Nat) (x : Func) : (setFunc s fn x).fabric = s.fabric := rfl
@[simp] theorem setFunc_tenants (s : State) (fn : Nat) (x : Func) : (setFunc s fn x).tenants = s.tenants := rfl
@[simp] theorem setFunc_grid (s : State) (fn : Nat) (x : Func) : (setFunc s fn x).grid = s.grid := rfl
@[simp] theorem setFunc_far (s : State) (fn : Nat) (x : Func) : (setFunc s fn x).far = s.far := rfl
@[simp] theorem setFunc_fuses (s : State) (fn : Nat) (x : Func) : (setFunc s fn x).fuses = s.fuses := rfl
@[simp] theorem setFunc_plover (s : State) (fn : Nat) (x : Func) : (setFunc s fn x).plover = s.plover := rfl
@[simp] theorem setFunc_drover (s : State) (fn : Nat) (x : Func) : (setFunc s fn x).drover = s.drover := rfl
@[simp] theorem setFunc_bands (s : State) (fn : Nat) (x : Func) : (setFunc s fn x).bands = s.bands := rfl
@[simp] theorem setFunc_power (s : State) (fn : Nat) (x : Func) : (setFunc s fn x).power = s.power := rfl
@[simp] theorem setFunc_pcie (s : State) (fn : Nat) (x : Func) : (setFunc s fn x).pcie = s.pcie := rfl
@[simp] theorem setFunc_side (s : State) (fn : Nat) (x : Func) : (setFunc s fn x).side = s.side := rfl
@[simp] theorem setFunc_telem (s : State) (fn : Nat) (x : Func) : (setFunc s fn x).telem = s.telem := rfl
@[simp] theorem setFunc_hostReads (s : State) (fn : Nat) (x : Func) : (setFunc s fn x).hostReads = s.hostReads := rfl

@[simp] theorem setFoldRec_pending (s : State) (f : Nat) (x : Fold) : (setFoldRec s f x).pending = s.pending := rfl
@[simp] theorem setFoldRec_free (s : State) (f : Nat) (x : Fold) : (setFoldRec s f x).free = s.free := rfl
@[simp] theorem setFoldRec_nextId (s : State) (f : Nat) (x : Fold) : (setFoldRec s f x).nextId = s.nextId := rfl
@[simp] theorem setFoldRec_ftime (s : State) (f : Nat) (x : Fold) : (setFoldRec s f x).ftime = s.ftime := rfl
@[simp] theorem setFoldRec_cores (s : State) (f : Nat) (x : Fold) : (setFoldRec s f x).cores = s.cores := rfl
@[simp] theorem setFoldRec_mem (s : State) (f : Nat) (x : Fold) : (setFoldRec s f x).mem = s.mem := rfl
@[simp] theorem setFoldRec_badWords (s : State) (f : Nat) (x : Fold) : (setFoldRec s f x).badWords = s.badWords := rfl
@[simp] theorem setFoldRec_badSectors (s : State) (f : Nat) (x : Fold) : (setFoldRec s f x).badSectors = s.badSectors := rfl
@[simp] theorem setFoldRec_badUnits (s : State) (f : Nat) (x : Fold) : (setFoldRec s f x).badUnits = s.badUnits := rfl
@[simp] theorem setFoldRec_frames (s : State) (f : Nat) (x : Fold) : (setFoldRec s f x).frames = s.frames := rfl
@[simp] theorem setFoldRec_reqs (s : State) (f : Nat) (x : Fold) : (setFoldRec s f x).reqs = s.reqs := rfl
@[simp] theorem setFoldRec_jobsPg (s : State) (f : Nat) (x : Fold) : (setFoldRec s f x).jobsPg = s.jobsPg := rfl
@[simp] theorem setFoldRec_invals (s : State) (f : Nat) (x : Fold) : (setFoldRec s f x).invals = s.invals := rfl
@[simp] theorem setFoldRec_hostWait (s : State) (f : Nat) (x : Fold) : (setFoldRec s f x).hostWait = s.hostWait := rfl
@[simp] theorem setFoldRec_sigs (s : State) (f : Nat) (x : Fold) : (setFoldRec s f x).sigs = s.sigs := rfl
@[simp] theorem setFoldRec_dma (s : State) (f : Nat) (x : Fold) : (setFoldRec s f x).dma = s.dma := rfl
@[simp] theorem setFoldRec_dmaLast (s : State) (f : Nat) (x : Fold) : (setFoldRec s f x).dmaLast = s.dmaLast := rfl
@[simp] theorem setFoldRec_planes (s : State) (f : Nat) (x : Fold) : (setFoldRec s f x).planes = s.planes := rfl
@[simp] theorem setFoldRec_links (s : State) (f : Nat) (x : Fold) : (setFoldRec s f x).links = s.links := rfl
@[simp] theorem setFoldRec_dies (s : State) (f : Nat) (x : Fold) : (setFoldRec s f x).dies = s.dies := rfl
@[simp] theorem setFoldRec_chans (s : State) (f : Nat) (x : Fold) : (setFoldRec s f x).chans = s.chans := rfl
@[simp] theorem setFoldRec_setups (s : State) (f : Nat) (x : Fold) : (setFoldRec s f x).setups = s.setups := rfl
@[simp] theorem setFoldRec_fabric (s : State) (f : Nat) (x : Fold) : (setFoldRec s f x).fabric = s.fabric := rfl
@[simp] theorem setFoldRec_tenants (s : State) (f : Nat) (x : Fold) : (setFoldRec s f x).tenants = s.tenants := rfl
@[simp] theorem setFoldRec_funcs (s : State) (f : Nat) (x : Fold) : (setFoldRec s f x).funcs = s.funcs := rfl
@[simp] theorem setFoldRec_grid (s : State) (f : Nat) (x : Fold) : (setFoldRec s f x).grid = s.grid := rfl
@[simp] theorem setFoldRec_far (s : State) (f : Nat) (x : Fold) : (setFoldRec s f x).far = s.far := rfl
@[simp] theorem setFoldRec_fuses (s : State) (f : Nat) (x : Fold) : (setFoldRec s f x).fuses = s.fuses := rfl
@[simp] theorem setFoldRec_plover (s : State) (f : Nat) (x : Fold) : (setFoldRec s f x).plover = s.plover := rfl
@[simp] theorem setFoldRec_drover (s : State) (f : Nat) (x : Fold) : (setFoldRec s f x).drover = s.drover := rfl
@[simp] theorem setFoldRec_bands (s : State) (f : Nat) (x : Fold) : (setFoldRec s f x).bands = s.bands := rfl
@[simp] theorem setFoldRec_power (s : State) (f : Nat) (x : Fold) : (setFoldRec s f x).power = s.power := rfl
@[simp] theorem setFoldRec_pcie (s : State) (f : Nat) (x : Fold) : (setFoldRec s f x).pcie = s.pcie := rfl
@[simp] theorem setFoldRec_side (s : State) (f : Nat) (x : Fold) : (setFoldRec s f x).side = s.side := rfl
@[simp] theorem setFoldRec_telem (s : State) (f : Nat) (x : Fold) : (setFoldRec s f x).telem = s.telem := rfl
@[simp] theorem setFoldRec_hostReads (s : State) (f : Nat) (x : Fold) : (setFoldRec s f x).hostReads = s.hostReads := rfl

@[simp] theorem setPlane_pending (s : State) (p : Bool) (x : Plane) : (setPlane s p x).pending = s.pending := rfl
@[simp] theorem setPlane_free (s : State) (p : Bool) (x : Plane) : (setPlane s p x).free = s.free := rfl
@[simp] theorem setPlane_nextId (s : State) (p : Bool) (x : Plane) : (setPlane s p x).nextId = s.nextId := rfl
@[simp] theorem setPlane_ftime (s : State) (p : Bool) (x : Plane) : (setPlane s p x).ftime = s.ftime := rfl
@[simp] theorem setPlane_cores (s : State) (p : Bool) (x : Plane) : (setPlane s p x).cores = s.cores := rfl
@[simp] theorem setPlane_folds (s : State) (p : Bool) (x : Plane) : (setPlane s p x).folds = s.folds := rfl
@[simp] theorem setPlane_mem (s : State) (p : Bool) (x : Plane) : (setPlane s p x).mem = s.mem := rfl
@[simp] theorem setPlane_badWords (s : State) (p : Bool) (x : Plane) : (setPlane s p x).badWords = s.badWords := rfl
@[simp] theorem setPlane_badSectors (s : State) (p : Bool) (x : Plane) : (setPlane s p x).badSectors = s.badSectors := rfl
@[simp] theorem setPlane_badUnits (s : State) (p : Bool) (x : Plane) : (setPlane s p x).badUnits = s.badUnits := rfl
@[simp] theorem setPlane_frames (s : State) (p : Bool) (x : Plane) : (setPlane s p x).frames = s.frames := rfl
@[simp] theorem setPlane_reqs (s : State) (p : Bool) (x : Plane) : (setPlane s p x).reqs = s.reqs := rfl
@[simp] theorem setPlane_jobsPg (s : State) (p : Bool) (x : Plane) : (setPlane s p x).jobsPg = s.jobsPg := rfl
@[simp] theorem setPlane_invals (s : State) (p : Bool) (x : Plane) : (setPlane s p x).invals = s.invals := rfl
@[simp] theorem setPlane_hostWait (s : State) (p : Bool) (x : Plane) : (setPlane s p x).hostWait = s.hostWait := rfl
@[simp] theorem setPlane_sigs (s : State) (p : Bool) (x : Plane) : (setPlane s p x).sigs = s.sigs := rfl
@[simp] theorem setPlane_dma (s : State) (p : Bool) (x : Plane) : (setPlane s p x).dma = s.dma := rfl
@[simp] theorem setPlane_dmaLast (s : State) (p : Bool) (x : Plane) : (setPlane s p x).dmaLast = s.dmaLast := rfl
@[simp] theorem setPlane_links (s : State) (p : Bool) (x : Plane) : (setPlane s p x).links = s.links := rfl
@[simp] theorem setPlane_dies (s : State) (p : Bool) (x : Plane) : (setPlane s p x).dies = s.dies := rfl
@[simp] theorem setPlane_chans (s : State) (p : Bool) (x : Plane) : (setPlane s p x).chans = s.chans := rfl
@[simp] theorem setPlane_setups (s : State) (p : Bool) (x : Plane) : (setPlane s p x).setups = s.setups := rfl
@[simp] theorem setPlane_fabric (s : State) (p : Bool) (x : Plane) : (setPlane s p x).fabric = s.fabric := rfl
@[simp] theorem setPlane_tenants (s : State) (p : Bool) (x : Plane) : (setPlane s p x).tenants = s.tenants := rfl
@[simp] theorem setPlane_funcs (s : State) (p : Bool) (x : Plane) : (setPlane s p x).funcs = s.funcs := rfl
@[simp] theorem setPlane_grid (s : State) (p : Bool) (x : Plane) : (setPlane s p x).grid = s.grid := rfl
@[simp] theorem setPlane_far (s : State) (p : Bool) (x : Plane) : (setPlane s p x).far = s.far := rfl
@[simp] theorem setPlane_fuses (s : State) (p : Bool) (x : Plane) : (setPlane s p x).fuses = s.fuses := rfl
@[simp] theorem setPlane_plover (s : State) (p : Bool) (x : Plane) : (setPlane s p x).plover = s.plover := rfl
@[simp] theorem setPlane_drover (s : State) (p : Bool) (x : Plane) : (setPlane s p x).drover = s.drover := rfl
@[simp] theorem setPlane_bands (s : State) (p : Bool) (x : Plane) : (setPlane s p x).bands = s.bands := rfl
@[simp] theorem setPlane_power (s : State) (p : Bool) (x : Plane) : (setPlane s p x).power = s.power := rfl
@[simp] theorem setPlane_pcie (s : State) (p : Bool) (x : Plane) : (setPlane s p x).pcie = s.pcie := rfl
@[simp] theorem setPlane_side (s : State) (p : Bool) (x : Plane) : (setPlane s p x).side = s.side := rfl
@[simp] theorem setPlane_telem (s : State) (p : Bool) (x : Plane) : (setPlane s p x).telem = s.telem := rfl
@[simp] theorem setPlane_hostReads (s : State) (p : Bool) (x : Plane) : (setPlane s p x).hostReads = s.hostReads := rfl

@[simp] theorem setRouter_pending (s : State) (p : Bool) (r : Nat) (x : Router) : (setRouter s p r x).pending = s.pending := rfl
@[simp] theorem setRouter_free (s : State) (p : Bool) (r : Nat) (x : Router) : (setRouter s p r x).free = s.free := rfl
@[simp] theorem setRouter_nextId (s : State) (p : Bool) (r : Nat) (x : Router) : (setRouter s p r x).nextId = s.nextId := rfl
@[simp] theorem setRouter_ftime (s : State) (p : Bool) (r : Nat) (x : Router) : (setRouter s p r x).ftime = s.ftime := rfl
@[simp] theorem setRouter_cores (s : State) (p : Bool) (r : Nat) (x : Router) : (setRouter s p r x).cores = s.cores := rfl
@[simp] theorem setRouter_folds (s : State) (p : Bool) (r : Nat) (x : Router) : (setRouter s p r x).folds = s.folds := rfl
@[simp] theorem setRouter_mem (s : State) (p : Bool) (r : Nat) (x : Router) : (setRouter s p r x).mem = s.mem := rfl
@[simp] theorem setRouter_badWords (s : State) (p : Bool) (r : Nat) (x : Router) : (setRouter s p r x).badWords = s.badWords := rfl
@[simp] theorem setRouter_badSectors (s : State) (p : Bool) (r : Nat) (x : Router) : (setRouter s p r x).badSectors = s.badSectors := rfl
@[simp] theorem setRouter_badUnits (s : State) (p : Bool) (r : Nat) (x : Router) : (setRouter s p r x).badUnits = s.badUnits := rfl
@[simp] theorem setRouter_frames (s : State) (p : Bool) (r : Nat) (x : Router) : (setRouter s p r x).frames = s.frames := rfl
@[simp] theorem setRouter_reqs (s : State) (p : Bool) (r : Nat) (x : Router) : (setRouter s p r x).reqs = s.reqs := rfl
@[simp] theorem setRouter_jobsPg (s : State) (p : Bool) (r : Nat) (x : Router) : (setRouter s p r x).jobsPg = s.jobsPg := rfl
@[simp] theorem setRouter_invals (s : State) (p : Bool) (r : Nat) (x : Router) : (setRouter s p r x).invals = s.invals := rfl
@[simp] theorem setRouter_hostWait (s : State) (p : Bool) (r : Nat) (x : Router) : (setRouter s p r x).hostWait = s.hostWait := rfl
@[simp] theorem setRouter_sigs (s : State) (p : Bool) (r : Nat) (x : Router) : (setRouter s p r x).sigs = s.sigs := rfl
@[simp] theorem setRouter_dma (s : State) (p : Bool) (r : Nat) (x : Router) : (setRouter s p r x).dma = s.dma := rfl
@[simp] theorem setRouter_dmaLast (s : State) (p : Bool) (r : Nat) (x : Router) : (setRouter s p r x).dmaLast = s.dmaLast := rfl
@[simp] theorem setRouter_links (s : State) (p : Bool) (r : Nat) (x : Router) : (setRouter s p r x).links = s.links := rfl
@[simp] theorem setRouter_dies (s : State) (p : Bool) (r : Nat) (x : Router) : (setRouter s p r x).dies = s.dies := rfl
@[simp] theorem setRouter_chans (s : State) (p : Bool) (r : Nat) (x : Router) : (setRouter s p r x).chans = s.chans := rfl
@[simp] theorem setRouter_setups (s : State) (p : Bool) (r : Nat) (x : Router) : (setRouter s p r x).setups = s.setups := rfl
@[simp] theorem setRouter_fabric (s : State) (p : Bool) (r : Nat) (x : Router) : (setRouter s p r x).fabric = s.fabric := rfl
@[simp] theorem setRouter_tenants (s : State) (p : Bool) (r : Nat) (x : Router) : (setRouter s p r x).tenants = s.tenants := rfl
@[simp] theorem setRouter_funcs (s : State) (p : Bool) (r : Nat) (x : Router) : (setRouter s p r x).funcs = s.funcs := rfl
@[simp] theorem setRouter_grid (s : State) (p : Bool) (r : Nat) (x : Router) : (setRouter s p r x).grid = s.grid := rfl
@[simp] theorem setRouter_far (s : State) (p : Bool) (r : Nat) (x : Router) : (setRouter s p r x).far = s.far := rfl
@[simp] theorem setRouter_fuses (s : State) (p : Bool) (r : Nat) (x : Router) : (setRouter s p r x).fuses = s.fuses := rfl
@[simp] theorem setRouter_plover (s : State) (p : Bool) (r : Nat) (x : Router) : (setRouter s p r x).plover = s.plover := rfl
@[simp] theorem setRouter_drover (s : State) (p : Bool) (r : Nat) (x : Router) : (setRouter s p r x).drover = s.drover := rfl
@[simp] theorem setRouter_bands (s : State) (p : Bool) (r : Nat) (x : Router) : (setRouter s p r x).bands = s.bands := rfl
@[simp] theorem setRouter_power (s : State) (p : Bool) (r : Nat) (x : Router) : (setRouter s p r x).power = s.power := rfl
@[simp] theorem setRouter_pcie (s : State) (p : Bool) (r : Nat) (x : Router) : (setRouter s p r x).pcie = s.pcie := rfl
@[simp] theorem setRouter_side (s : State) (p : Bool) (r : Nat) (x : Router) : (setRouter s p r x).side = s.side := rfl
@[simp] theorem setRouter_telem (s : State) (p : Bool) (r : Nat) (x : Router) : (setRouter s p r x).telem = s.telem := rfl
@[simp] theorem setRouter_hostReads (s : State) (p : Bool) (r : Nat) (x : Router) : (setRouter s p r x).hostReads = s.hostReads := rfl

@[simp] theorem setFrame_pending (s : State) (pa : Nat) (x : Frame) : (setFrame s pa x).pending = s.pending := rfl
@[simp] theorem setFrame_free (s : State) (pa : Nat) (x : Frame) : (setFrame s pa x).free = s.free := rfl
@[simp] theorem setFrame_nextId (s : State) (pa : Nat) (x : Frame) : (setFrame s pa x).nextId = s.nextId := rfl
@[simp] theorem setFrame_ftime (s : State) (pa : Nat) (x : Frame) : (setFrame s pa x).ftime = s.ftime := rfl
@[simp] theorem setFrame_cores (s : State) (pa : Nat) (x : Frame) : (setFrame s pa x).cores = s.cores := rfl
@[simp] theorem setFrame_folds (s : State) (pa : Nat) (x : Frame) : (setFrame s pa x).folds = s.folds := rfl
@[simp] theorem setFrame_mem (s : State) (pa : Nat) (x : Frame) : (setFrame s pa x).mem = s.mem := rfl
@[simp] theorem setFrame_badWords (s : State) (pa : Nat) (x : Frame) : (setFrame s pa x).badWords = s.badWords := rfl
@[simp] theorem setFrame_badSectors (s : State) (pa : Nat) (x : Frame) : (setFrame s pa x).badSectors = s.badSectors := rfl
@[simp] theorem setFrame_badUnits (s : State) (pa : Nat) (x : Frame) : (setFrame s pa x).badUnits = s.badUnits := rfl
@[simp] theorem setFrame_reqs (s : State) (pa : Nat) (x : Frame) : (setFrame s pa x).reqs = s.reqs := rfl
@[simp] theorem setFrame_jobsPg (s : State) (pa : Nat) (x : Frame) : (setFrame s pa x).jobsPg = s.jobsPg := rfl
@[simp] theorem setFrame_invals (s : State) (pa : Nat) (x : Frame) : (setFrame s pa x).invals = s.invals := rfl
@[simp] theorem setFrame_hostWait (s : State) (pa : Nat) (x : Frame) : (setFrame s pa x).hostWait = s.hostWait := rfl
@[simp] theorem setFrame_sigs (s : State) (pa : Nat) (x : Frame) : (setFrame s pa x).sigs = s.sigs := rfl
@[simp] theorem setFrame_dma (s : State) (pa : Nat) (x : Frame) : (setFrame s pa x).dma = s.dma := rfl
@[simp] theorem setFrame_dmaLast (s : State) (pa : Nat) (x : Frame) : (setFrame s pa x).dmaLast = s.dmaLast := rfl
@[simp] theorem setFrame_planes (s : State) (pa : Nat) (x : Frame) : (setFrame s pa x).planes = s.planes := rfl
@[simp] theorem setFrame_links (s : State) (pa : Nat) (x : Frame) : (setFrame s pa x).links = s.links := rfl
@[simp] theorem setFrame_dies (s : State) (pa : Nat) (x : Frame) : (setFrame s pa x).dies = s.dies := rfl
@[simp] theorem setFrame_chans (s : State) (pa : Nat) (x : Frame) : (setFrame s pa x).chans = s.chans := rfl
@[simp] theorem setFrame_setups (s : State) (pa : Nat) (x : Frame) : (setFrame s pa x).setups = s.setups := rfl
@[simp] theorem setFrame_fabric (s : State) (pa : Nat) (x : Frame) : (setFrame s pa x).fabric = s.fabric := rfl
@[simp] theorem setFrame_tenants (s : State) (pa : Nat) (x : Frame) : (setFrame s pa x).tenants = s.tenants := rfl
@[simp] theorem setFrame_funcs (s : State) (pa : Nat) (x : Frame) : (setFrame s pa x).funcs = s.funcs := rfl
@[simp] theorem setFrame_grid (s : State) (pa : Nat) (x : Frame) : (setFrame s pa x).grid = s.grid := rfl
@[simp] theorem setFrame_far (s : State) (pa : Nat) (x : Frame) : (setFrame s pa x).far = s.far := rfl
@[simp] theorem setFrame_fuses (s : State) (pa : Nat) (x : Frame) : (setFrame s pa x).fuses = s.fuses := rfl
@[simp] theorem setFrame_plover (s : State) (pa : Nat) (x : Frame) : (setFrame s pa x).plover = s.plover := rfl
@[simp] theorem setFrame_drover (s : State) (pa : Nat) (x : Frame) : (setFrame s pa x).drover = s.drover := rfl
@[simp] theorem setFrame_bands (s : State) (pa : Nat) (x : Frame) : (setFrame s pa x).bands = s.bands := rfl
@[simp] theorem setFrame_power (s : State) (pa : Nat) (x : Frame) : (setFrame s pa x).power = s.power := rfl
@[simp] theorem setFrame_pcie (s : State) (pa : Nat) (x : Frame) : (setFrame s pa x).pcie = s.pcie := rfl
@[simp] theorem setFrame_side (s : State) (pa : Nat) (x : Frame) : (setFrame s pa x).side = s.side := rfl
@[simp] theorem setFrame_telem (s : State) (pa : Nat) (x : Frame) : (setFrame s pa x).telem = s.telem := rfl
@[simp] theorem setFrame_hostReads (s : State) (pa : Nat) (x : Frame) : (setFrame s pa x).hostReads = s.hostReads := rfl

@[simp] theorem setReq_pending (s : State) (i : Nat) (x : ReqState) : (setReq s i x).pending = s.pending := rfl
@[simp] theorem setReq_free (s : State) (i : Nat) (x : ReqState) : (setReq s i x).free = s.free := rfl
@[simp] theorem setReq_nextId (s : State) (i : Nat) (x : ReqState) : (setReq s i x).nextId = s.nextId := rfl
@[simp] theorem setReq_ftime (s : State) (i : Nat) (x : ReqState) : (setReq s i x).ftime = s.ftime := rfl
@[simp] theorem setReq_cores (s : State) (i : Nat) (x : ReqState) : (setReq s i x).cores = s.cores := rfl
@[simp] theorem setReq_folds (s : State) (i : Nat) (x : ReqState) : (setReq s i x).folds = s.folds := rfl
@[simp] theorem setReq_mem (s : State) (i : Nat) (x : ReqState) : (setReq s i x).mem = s.mem := rfl
@[simp] theorem setReq_badWords (s : State) (i : Nat) (x : ReqState) : (setReq s i x).badWords = s.badWords := rfl
@[simp] theorem setReq_badSectors (s : State) (i : Nat) (x : ReqState) : (setReq s i x).badSectors = s.badSectors := rfl
@[simp] theorem setReq_badUnits (s : State) (i : Nat) (x : ReqState) : (setReq s i x).badUnits = s.badUnits := rfl
@[simp] theorem setReq_frames (s : State) (i : Nat) (x : ReqState) : (setReq s i x).frames = s.frames := rfl
@[simp] theorem setReq_jobsPg (s : State) (i : Nat) (x : ReqState) : (setReq s i x).jobsPg = s.jobsPg := rfl
@[simp] theorem setReq_invals (s : State) (i : Nat) (x : ReqState) : (setReq s i x).invals = s.invals := rfl
@[simp] theorem setReq_hostWait (s : State) (i : Nat) (x : ReqState) : (setReq s i x).hostWait = s.hostWait := rfl
@[simp] theorem setReq_sigs (s : State) (i : Nat) (x : ReqState) : (setReq s i x).sigs = s.sigs := rfl
@[simp] theorem setReq_dma (s : State) (i : Nat) (x : ReqState) : (setReq s i x).dma = s.dma := rfl
@[simp] theorem setReq_dmaLast (s : State) (i : Nat) (x : ReqState) : (setReq s i x).dmaLast = s.dmaLast := rfl
@[simp] theorem setReq_planes (s : State) (i : Nat) (x : ReqState) : (setReq s i x).planes = s.planes := rfl
@[simp] theorem setReq_links (s : State) (i : Nat) (x : ReqState) : (setReq s i x).links = s.links := rfl
@[simp] theorem setReq_dies (s : State) (i : Nat) (x : ReqState) : (setReq s i x).dies = s.dies := rfl
@[simp] theorem setReq_chans (s : State) (i : Nat) (x : ReqState) : (setReq s i x).chans = s.chans := rfl
@[simp] theorem setReq_setups (s : State) (i : Nat) (x : ReqState) : (setReq s i x).setups = s.setups := rfl
@[simp] theorem setReq_fabric (s : State) (i : Nat) (x : ReqState) : (setReq s i x).fabric = s.fabric := rfl
@[simp] theorem setReq_tenants (s : State) (i : Nat) (x : ReqState) : (setReq s i x).tenants = s.tenants := rfl
@[simp] theorem setReq_funcs (s : State) (i : Nat) (x : ReqState) : (setReq s i x).funcs = s.funcs := rfl
@[simp] theorem setReq_grid (s : State) (i : Nat) (x : ReqState) : (setReq s i x).grid = s.grid := rfl
@[simp] theorem setReq_far (s : State) (i : Nat) (x : ReqState) : (setReq s i x).far = s.far := rfl
@[simp] theorem setReq_fuses (s : State) (i : Nat) (x : ReqState) : (setReq s i x).fuses = s.fuses := rfl
@[simp] theorem setReq_plover (s : State) (i : Nat) (x : ReqState) : (setReq s i x).plover = s.plover := rfl
@[simp] theorem setReq_drover (s : State) (i : Nat) (x : ReqState) : (setReq s i x).drover = s.drover := rfl
@[simp] theorem setReq_bands (s : State) (i : Nat) (x : ReqState) : (setReq s i x).bands = s.bands := rfl
@[simp] theorem setReq_power (s : State) (i : Nat) (x : ReqState) : (setReq s i x).power = s.power := rfl
@[simp] theorem setReq_pcie (s : State) (i : Nat) (x : ReqState) : (setReq s i x).pcie = s.pcie := rfl
@[simp] theorem setReq_side (s : State) (i : Nat) (x : ReqState) : (setReq s i x).side = s.side := rfl
@[simp] theorem setReq_telem (s : State) (i : Nat) (x : ReqState) : (setReq s i x).telem = s.telem := rfl
@[simp] theorem setReq_hostReads (s : State) (i : Nat) (x : ReqState) : (setReq s i x).hostReads = s.hostReads := rfl

@[simp] theorem addReq_pending (s : State) (r : MemReq) : (addReq s r).pending = s.pending := rfl
@[simp] theorem addReq_free (s : State) (r : MemReq) : (addReq s r).free = s.free := rfl
@[simp] theorem addReq_ftime (s : State) (r : MemReq) : (addReq s r).ftime = s.ftime := rfl
@[simp] theorem addReq_cores (s : State) (r : MemReq) : (addReq s r).cores = s.cores := rfl
@[simp] theorem addReq_folds (s : State) (r : MemReq) : (addReq s r).folds = s.folds := rfl
@[simp] theorem addReq_mem (s : State) (r : MemReq) : (addReq s r).mem = s.mem := rfl
@[simp] theorem addReq_badWords (s : State) (r : MemReq) : (addReq s r).badWords = s.badWords := rfl
@[simp] theorem addReq_badSectors (s : State) (r : MemReq) : (addReq s r).badSectors = s.badSectors := rfl
@[simp] theorem addReq_badUnits (s : State) (r : MemReq) : (addReq s r).badUnits = s.badUnits := rfl
@[simp] theorem addReq_frames (s : State) (r : MemReq) : (addReq s r).frames = s.frames := rfl
@[simp] theorem addReq_jobsPg (s : State) (r : MemReq) : (addReq s r).jobsPg = s.jobsPg := rfl
@[simp] theorem addReq_invals (s : State) (r : MemReq) : (addReq s r).invals = s.invals := rfl
@[simp] theorem addReq_hostWait (s : State) (r : MemReq) : (addReq s r).hostWait = s.hostWait := rfl
@[simp] theorem addReq_sigs (s : State) (r : MemReq) : (addReq s r).sigs = s.sigs := rfl
@[simp] theorem addReq_dma (s : State) (r : MemReq) : (addReq s r).dma = s.dma := rfl
@[simp] theorem addReq_dmaLast (s : State) (r : MemReq) : (addReq s r).dmaLast = s.dmaLast := rfl
@[simp] theorem addReq_planes (s : State) (r : MemReq) : (addReq s r).planes = s.planes := rfl
@[simp] theorem addReq_links (s : State) (r : MemReq) : (addReq s r).links = s.links := rfl
@[simp] theorem addReq_dies (s : State) (r : MemReq) : (addReq s r).dies = s.dies := rfl
@[simp] theorem addReq_chans (s : State) (r : MemReq) : (addReq s r).chans = s.chans := rfl
@[simp] theorem addReq_setups (s : State) (r : MemReq) : (addReq s r).setups = s.setups := rfl
@[simp] theorem addReq_fabric (s : State) (r : MemReq) : (addReq s r).fabric = s.fabric := rfl
@[simp] theorem addReq_tenants (s : State) (r : MemReq) : (addReq s r).tenants = s.tenants := rfl
@[simp] theorem addReq_funcs (s : State) (r : MemReq) : (addReq s r).funcs = s.funcs := rfl
@[simp] theorem addReq_grid (s : State) (r : MemReq) : (addReq s r).grid = s.grid := rfl
@[simp] theorem addReq_far (s : State) (r : MemReq) : (addReq s r).far = s.far := rfl
@[simp] theorem addReq_fuses (s : State) (r : MemReq) : (addReq s r).fuses = s.fuses := rfl
@[simp] theorem addReq_plover (s : State) (r : MemReq) : (addReq s r).plover = s.plover := rfl
@[simp] theorem addReq_drover (s : State) (r : MemReq) : (addReq s r).drover = s.drover := rfl
@[simp] theorem addReq_bands (s : State) (r : MemReq) : (addReq s r).bands = s.bands := rfl
@[simp] theorem addReq_power (s : State) (r : MemReq) : (addReq s r).power = s.power := rfl
@[simp] theorem addReq_pcie (s : State) (r : MemReq) : (addReq s r).pcie = s.pcie := rfl
@[simp] theorem addReq_side (s : State) (r : MemReq) : (addReq s r).side = s.side := rfl
@[simp] theorem addReq_telem (s : State) (r : MemReq) : (addReq s r).telem = s.telem := rfl
@[simp] theorem addReq_hostReads (s : State) (r : MemReq) : (addReq s r).hostReads = s.hostReads := rfl

@[simp] theorem healRange_pending (s : State) (a n : Nat) : (healRange s a n).pending = s.pending := rfl
@[simp] theorem healRange_free (s : State) (a n : Nat) : (healRange s a n).free = s.free := rfl
@[simp] theorem healRange_nextId (s : State) (a n : Nat) : (healRange s a n).nextId = s.nextId := rfl
@[simp] theorem healRange_ftime (s : State) (a n : Nat) : (healRange s a n).ftime = s.ftime := rfl
@[simp] theorem healRange_cores (s : State) (a n : Nat) : (healRange s a n).cores = s.cores := rfl
@[simp] theorem healRange_folds (s : State) (a n : Nat) : (healRange s a n).folds = s.folds := rfl
@[simp] theorem healRange_mem (s : State) (a n : Nat) : (healRange s a n).mem = s.mem := rfl
@[simp] theorem healRange_badWords (s : State) (a n : Nat) : (healRange s a n).badWords = s.badWords := rfl
@[simp] theorem healRange_frames (s : State) (a n : Nat) : (healRange s a n).frames = s.frames := rfl
@[simp] theorem healRange_reqs (s : State) (a n : Nat) : (healRange s a n).reqs = s.reqs := rfl
@[simp] theorem healRange_jobsPg (s : State) (a n : Nat) : (healRange s a n).jobsPg = s.jobsPg := rfl
@[simp] theorem healRange_invals (s : State) (a n : Nat) : (healRange s a n).invals = s.invals := rfl
@[simp] theorem healRange_hostWait (s : State) (a n : Nat) : (healRange s a n).hostWait = s.hostWait := rfl
@[simp] theorem healRange_sigs (s : State) (a n : Nat) : (healRange s a n).sigs = s.sigs := rfl
@[simp] theorem healRange_dma (s : State) (a n : Nat) : (healRange s a n).dma = s.dma := rfl
@[simp] theorem healRange_dmaLast (s : State) (a n : Nat) : (healRange s a n).dmaLast = s.dmaLast := rfl
@[simp] theorem healRange_planes (s : State) (a n : Nat) : (healRange s a n).planes = s.planes := rfl
@[simp] theorem healRange_links (s : State) (a n : Nat) : (healRange s a n).links = s.links := rfl
@[simp] theorem healRange_dies (s : State) (a n : Nat) : (healRange s a n).dies = s.dies := rfl
@[simp] theorem healRange_chans (s : State) (a n : Nat) : (healRange s a n).chans = s.chans := rfl
@[simp] theorem healRange_setups (s : State) (a n : Nat) : (healRange s a n).setups = s.setups := rfl
@[simp] theorem healRange_fabric (s : State) (a n : Nat) : (healRange s a n).fabric = s.fabric := rfl
@[simp] theorem healRange_tenants (s : State) (a n : Nat) : (healRange s a n).tenants = s.tenants := rfl
@[simp] theorem healRange_funcs (s : State) (a n : Nat) : (healRange s a n).funcs = s.funcs := rfl
@[simp] theorem healRange_grid (s : State) (a n : Nat) : (healRange s a n).grid = s.grid := rfl
@[simp] theorem healRange_far (s : State) (a n : Nat) : (healRange s a n).far = s.far := rfl
@[simp] theorem healRange_fuses (s : State) (a n : Nat) : (healRange s a n).fuses = s.fuses := rfl
@[simp] theorem healRange_plover (s : State) (a n : Nat) : (healRange s a n).plover = s.plover := rfl
@[simp] theorem healRange_drover (s : State) (a n : Nat) : (healRange s a n).drover = s.drover := rfl
@[simp] theorem healRange_bands (s : State) (a n : Nat) : (healRange s a n).bands = s.bands := rfl
@[simp] theorem healRange_power (s : State) (a n : Nat) : (healRange s a n).power = s.power := rfl
@[simp] theorem healRange_pcie (s : State) (a n : Nat) : (healRange s a n).pcie = s.pcie := rfl
@[simp] theorem healRange_side (s : State) (a n : Nat) : (healRange s a n).side = s.side := rfl
@[simp] theorem healRange_telem (s : State) (a n : Nat) : (healRange s a n).telem = s.telem := rfl
@[simp] theorem healRange_hostReads (s : State) (a n : Nat) : (healRange s a n).hostReads = s.hostReads := rfl

@[simp] theorem lsWrite_pending (s : State) (pa : Nat) (bs : List Byte) : (lsWrite s pa bs).pending = s.pending := rfl
@[simp] theorem lsWrite_free (s : State) (pa : Nat) (bs : List Byte) : (lsWrite s pa bs).free = s.free := rfl
@[simp] theorem lsWrite_nextId (s : State) (pa : Nat) (bs : List Byte) : (lsWrite s pa bs).nextId = s.nextId := rfl
@[simp] theorem lsWrite_ftime (s : State) (pa : Nat) (bs : List Byte) : (lsWrite s pa bs).ftime = s.ftime := rfl
@[simp] theorem lsWrite_cores (s : State) (pa : Nat) (bs : List Byte) : (lsWrite s pa bs).cores = s.cores := rfl
@[simp] theorem lsWrite_folds (s : State) (pa : Nat) (bs : List Byte) : (lsWrite s pa bs).folds = s.folds := rfl
@[simp] theorem lsWrite_badSectors (s : State) (pa : Nat) (bs : List Byte) : (lsWrite s pa bs).badSectors = s.badSectors := rfl
@[simp] theorem lsWrite_badUnits (s : State) (pa : Nat) (bs : List Byte) : (lsWrite s pa bs).badUnits = s.badUnits := rfl
@[simp] theorem lsWrite_frames (s : State) (pa : Nat) (bs : List Byte) : (lsWrite s pa bs).frames = s.frames := rfl
@[simp] theorem lsWrite_reqs (s : State) (pa : Nat) (bs : List Byte) : (lsWrite s pa bs).reqs = s.reqs := rfl
@[simp] theorem lsWrite_jobsPg (s : State) (pa : Nat) (bs : List Byte) : (lsWrite s pa bs).jobsPg = s.jobsPg := rfl
@[simp] theorem lsWrite_invals (s : State) (pa : Nat) (bs : List Byte) : (lsWrite s pa bs).invals = s.invals := rfl
@[simp] theorem lsWrite_hostWait (s : State) (pa : Nat) (bs : List Byte) : (lsWrite s pa bs).hostWait = s.hostWait := rfl
@[simp] theorem lsWrite_sigs (s : State) (pa : Nat) (bs : List Byte) : (lsWrite s pa bs).sigs = s.sigs := rfl
@[simp] theorem lsWrite_dma (s : State) (pa : Nat) (bs : List Byte) : (lsWrite s pa bs).dma = s.dma := rfl
@[simp] theorem lsWrite_dmaLast (s : State) (pa : Nat) (bs : List Byte) : (lsWrite s pa bs).dmaLast = s.dmaLast := rfl
@[simp] theorem lsWrite_planes (s : State) (pa : Nat) (bs : List Byte) : (lsWrite s pa bs).planes = s.planes := rfl
@[simp] theorem lsWrite_links (s : State) (pa : Nat) (bs : List Byte) : (lsWrite s pa bs).links = s.links := rfl
@[simp] theorem lsWrite_dies (s : State) (pa : Nat) (bs : List Byte) : (lsWrite s pa bs).dies = s.dies := rfl
@[simp] theorem lsWrite_chans (s : State) (pa : Nat) (bs : List Byte) : (lsWrite s pa bs).chans = s.chans := rfl
@[simp] theorem lsWrite_setups (s : State) (pa : Nat) (bs : List Byte) : (lsWrite s pa bs).setups = s.setups := rfl
@[simp] theorem lsWrite_fabric (s : State) (pa : Nat) (bs : List Byte) : (lsWrite s pa bs).fabric = s.fabric := rfl
@[simp] theorem lsWrite_tenants (s : State) (pa : Nat) (bs : List Byte) : (lsWrite s pa bs).tenants = s.tenants := rfl
@[simp] theorem lsWrite_funcs (s : State) (pa : Nat) (bs : List Byte) : (lsWrite s pa bs).funcs = s.funcs := rfl
@[simp] theorem lsWrite_grid (s : State) (pa : Nat) (bs : List Byte) : (lsWrite s pa bs).grid = s.grid := rfl
@[simp] theorem lsWrite_far (s : State) (pa : Nat) (bs : List Byte) : (lsWrite s pa bs).far = s.far := rfl
@[simp] theorem lsWrite_fuses (s : State) (pa : Nat) (bs : List Byte) : (lsWrite s pa bs).fuses = s.fuses := rfl
@[simp] theorem lsWrite_plover (s : State) (pa : Nat) (bs : List Byte) : (lsWrite s pa bs).plover = s.plover := rfl
@[simp] theorem lsWrite_drover (s : State) (pa : Nat) (bs : List Byte) : (lsWrite s pa bs).drover = s.drover := rfl
@[simp] theorem lsWrite_bands (s : State) (pa : Nat) (bs : List Byte) : (lsWrite s pa bs).bands = s.bands := rfl
@[simp] theorem lsWrite_power (s : State) (pa : Nat) (bs : List Byte) : (lsWrite s pa bs).power = s.power := rfl
@[simp] theorem lsWrite_pcie (s : State) (pa : Nat) (bs : List Byte) : (lsWrite s pa bs).pcie = s.pcie := rfl
@[simp] theorem lsWrite_side (s : State) (pa : Nat) (bs : List Byte) : (lsWrite s pa bs).side = s.side := rfl
@[simp] theorem lsWrite_telem (s : State) (pa : Nat) (bs : List Byte) : (lsWrite s pa bs).telem = s.telem := rfl
@[simp] theorem lsWrite_hostReads (s : State) (pa : Nat) (bs : List Byte) : (lsWrite s pa bs).hostReads = s.hostReads := rfl

/-! ## Updates of a core -/

@[simp] theorem setCtx_tenant (k : Core) (n : Nat) (x : Ctx) : (setCtx k n x).tenant = k.tenant := rfl
@[simp] theorem setCtx_scrubbed (k : Core) (n : Nat) (x : Ctx) : (setCtx k n x).scrubbed = k.scrubbed := rfl
@[simp] theorem setCtx_running (k : Core) (n : Nat) (x : Ctx) : (setCtx k n x).running = k.running := rfl
@[simp] theorem setCtx_lastRun (k : Core) (n : Nat) (x : Ctx) : (setCtx k n x).lastRun = k.lastRun := rfl
@[simp] theorem setCtx_tiles (k : Core) (n : Nat) (x : Ctx) : (setCtx k n x).tiles = k.tiles := rfl
@[simp] theorem setCtx_banks (k : Core) (n : Nat) (x : Ctx) : (setCtx k n x).banks = k.banks := rfl
@[simp] theorem setCtx_vregs (k : Core) (n : Nat) (x : Ctx) : (setCtx k n x).vregs = k.vregs := rfl
@[simp] theorem setCtx_sems (k : Core) (n : Nat) (x : Ctx) : (setCtx k n x).sems = k.sems := rfl
@[simp] theorem setCtx_sets (k : Core) (n : Nat) (x : Ctx) : (setCtx k n x).sets = k.sets := rfl
@[simp] theorem setCtx_lastMap (k : Core) (n : Nat) (x : Ctx) : (setCtx k n x).lastMap = k.lastMap := rfl
@[simp] theorem setCtx_arrIdle (k : Core) (n : Nat) (x : Ctx) : (setCtx k n x).arrIdle = k.arrIdle := rfl
@[simp] theorem setCtx_arrLeft (k : Core) (n : Nat) (x : Ctx) : (setCtx k n x).arrLeft = k.arrLeft := rfl
@[simp] theorem setCtx_colsOff (k : Core) (n : Nat) (x : Ctx) : (setCtx k n x).colsOff = k.colsOff := rfl
@[simp] theorem setCtx_aq (k : Core) (n : Nat) (x : Ctx) : (setCtx k n x).aq = k.aq := rfl
@[simp] theorem setCtx_vq (k : Core) (n : Nat) (x : Ctx) : (setCtx k n x).vq = k.vq := rfl
@[simp] theorem setCtx_vrun (k : Core) (n : Nat) (x : Ctx) : (setCtx k n x).vrun = k.vrun := rfl
@[simp] theorem setCtx_moves (k : Core) (n : Nat) (x : Ctx) : (setCtx k n x).moves = k.moves := rfl
@[simp] theorem setCtx_eq (k : Core) (n : Nat) (x : Ctx) : (setCtx k n x).eq = k.eq := rfl
@[simp] theorem setCtx_engOpen (k : Core) (n : Nat) (x : Ctx) : (setCtx k n x).engOpen = k.engOpen := rfl
@[simp] theorem setCtx_held (k : Core) (n : Nat) (x : Ctx) : (setCtx k n x).held = k.held := rfl
@[simp] theorem setCtx_divide (k : Core) (n : Nat) (x : Ctx) : (setCtx k n x).divide = k.divide := rfl
@[simp] theorem setCtx_rsrq (k : Core) (n : Nat) (x : Ctx) : (setCtx k n x).rsrq = k.rsrq := rfl
@[simp] theorem setCtx_icache (k : Core) (n : Nat) (x : Ctx) : (setCtx k n x).icache = k.icache := rfl
@[simp] theorem setCtx_tlb (k : Core) (n : Nat) (x : Ctx) : (setCtx k n x).tlb = k.tlb := rfl
@[simp] theorem setCtx_opc (k : Core) (n : Nat) (x : Ctx) : (setCtx k n x).opc = k.opc := rfl
@[simp] theorem setCtx_latches (k : Core) (n : Nat) (x : Ctx) : (setCtx k n x).latches = k.latches := rfl
@[simp] theorem setCtx_pf (k : Core) (n : Nat) (x : Ctx) : (setCtx k n x).pf = k.pf := rfl
@[simp] theorem setCtx_counters (k : Core) (n : Nat) (x : Ctx) : (setCtx k n x).counters = k.counters := rfl
@[simp] theorem setCtx_readTags (k : Core) (n : Nat) (x : Ctx) : (setCtx k n x).readTags = k.readTags := rfl
@[simp] theorem setCtx_writeTags (k : Core) (n : Nat) (x : Ctx) : (setCtx k n x).writeTags = k.writeTags := rfl
@[simp] theorem setCtx_tagQueue (k : Core) (n : Nat) (x : Ctx) : (setCtx k n x).tagQueue = k.tagQueue := rfl
@[simp] theorem setCtx_saved (k : Core) (n : Nat) (x : Ctx) : (setCtx k n x).saved = k.saved := rfl
@[simp] theorem setCtx_saving (k : Core) (n : Nat) (x : Ctx) : (setCtx k n x).saving = k.saving := rfl
@[simp] theorem setCtx_waiting (k : Core) (n : Nat) (x : Ctx) : (setCtx k n x).waiting = k.waiting := rfl
@[simp] theorem setCtx_resetAt (k : Core) (n : Nat) (x : Ctx) : (setCtx k n x).resetAt = k.resetAt := rfl
@[simp] theorem setCtx_lasting (k : Core) (n : Nat) (x : Ctx) : (setCtx k n x).lasting = k.lasting := rfl
@[simp] theorem setCtx_probed (k : Core) (n : Nat) (x : Ctx) : (setCtx k n x).probed = k.probed := rfl
@[simp] theorem setCtx_fenced (k : Core) (n : Nat) (x : Ctx) : (setCtx k n x).fenced = k.fenced := rfl
@[simp] theorem setCtx_fill (k : Core) (n : Nat) (x : Ctx) : (setCtx k n x).fill = k.fill := rfl

@[simp] theorem setTile_ctxs (k : Core) (n : Nat) (x : Tile) : (setTile k n x).ctxs = k.ctxs := rfl
@[simp] theorem setTile_tenant (k : Core) (n : Nat) (x : Tile) : (setTile k n x).tenant = k.tenant := rfl
@[simp] theorem setTile_scrubbed (k : Core) (n : Nat) (x : Tile) : (setTile k n x).scrubbed = k.scrubbed := rfl
@[simp] theorem setTile_running (k : Core) (n : Nat) (x : Tile) : (setTile k n x).running = k.running := rfl
@[simp] theorem setTile_lastRun (k : Core) (n : Nat) (x : Tile) : (setTile k n x).lastRun = k.lastRun := rfl
@[simp] theorem setTile_banks (k : Core) (n : Nat) (x : Tile) : (setTile k n x).banks = k.banks := rfl
@[simp] theorem setTile_vregs (k : Core) (n : Nat) (x : Tile) : (setTile k n x).vregs = k.vregs := rfl
@[simp] theorem setTile_sems (k : Core) (n : Nat) (x : Tile) : (setTile k n x).sems = k.sems := rfl
@[simp] theorem setTile_sets (k : Core) (n : Nat) (x : Tile) : (setTile k n x).sets = k.sets := rfl
@[simp] theorem setTile_lastMap (k : Core) (n : Nat) (x : Tile) : (setTile k n x).lastMap = k.lastMap := rfl
@[simp] theorem setTile_arrIdle (k : Core) (n : Nat) (x : Tile) : (setTile k n x).arrIdle = k.arrIdle := rfl
@[simp] theorem setTile_arrLeft (k : Core) (n : Nat) (x : Tile) : (setTile k n x).arrLeft = k.arrLeft := rfl
@[simp] theorem setTile_colsOff (k : Core) (n : Nat) (x : Tile) : (setTile k n x).colsOff = k.colsOff := rfl
@[simp] theorem setTile_aq (k : Core) (n : Nat) (x : Tile) : (setTile k n x).aq = k.aq := rfl
@[simp] theorem setTile_vq (k : Core) (n : Nat) (x : Tile) : (setTile k n x).vq = k.vq := rfl
@[simp] theorem setTile_vrun (k : Core) (n : Nat) (x : Tile) : (setTile k n x).vrun = k.vrun := rfl
@[simp] theorem setTile_moves (k : Core) (n : Nat) (x : Tile) : (setTile k n x).moves = k.moves := rfl
@[simp] theorem setTile_eq (k : Core) (n : Nat) (x : Tile) : (setTile k n x).eq = k.eq := rfl
@[simp] theorem setTile_engOpen (k : Core) (n : Nat) (x : Tile) : (setTile k n x).engOpen = k.engOpen := rfl
@[simp] theorem setTile_held (k : Core) (n : Nat) (x : Tile) : (setTile k n x).held = k.held := rfl
@[simp] theorem setTile_divide (k : Core) (n : Nat) (x : Tile) : (setTile k n x).divide = k.divide := rfl
@[simp] theorem setTile_rsrq (k : Core) (n : Nat) (x : Tile) : (setTile k n x).rsrq = k.rsrq := rfl
@[simp] theorem setTile_icache (k : Core) (n : Nat) (x : Tile) : (setTile k n x).icache = k.icache := rfl
@[simp] theorem setTile_tlb (k : Core) (n : Nat) (x : Tile) : (setTile k n x).tlb = k.tlb := rfl
@[simp] theorem setTile_opc (k : Core) (n : Nat) (x : Tile) : (setTile k n x).opc = k.opc := rfl
@[simp] theorem setTile_latches (k : Core) (n : Nat) (x : Tile) : (setTile k n x).latches = k.latches := rfl
@[simp] theorem setTile_pf (k : Core) (n : Nat) (x : Tile) : (setTile k n x).pf = k.pf := rfl
@[simp] theorem setTile_counters (k : Core) (n : Nat) (x : Tile) : (setTile k n x).counters = k.counters := rfl
@[simp] theorem setTile_readTags (k : Core) (n : Nat) (x : Tile) : (setTile k n x).readTags = k.readTags := rfl
@[simp] theorem setTile_writeTags (k : Core) (n : Nat) (x : Tile) : (setTile k n x).writeTags = k.writeTags := rfl
@[simp] theorem setTile_tagQueue (k : Core) (n : Nat) (x : Tile) : (setTile k n x).tagQueue = k.tagQueue := rfl
@[simp] theorem setTile_saved (k : Core) (n : Nat) (x : Tile) : (setTile k n x).saved = k.saved := rfl
@[simp] theorem setTile_saving (k : Core) (n : Nat) (x : Tile) : (setTile k n x).saving = k.saving := rfl
@[simp] theorem setTile_waiting (k : Core) (n : Nat) (x : Tile) : (setTile k n x).waiting = k.waiting := rfl
@[simp] theorem setTile_resetAt (k : Core) (n : Nat) (x : Tile) : (setTile k n x).resetAt = k.resetAt := rfl
@[simp] theorem setTile_lasting (k : Core) (n : Nat) (x : Tile) : (setTile k n x).lasting = k.lasting := rfl
@[simp] theorem setTile_probed (k : Core) (n : Nat) (x : Tile) : (setTile k n x).probed = k.probed := rfl
@[simp] theorem setTile_fenced (k : Core) (n : Nat) (x : Tile) : (setTile k n x).fenced = k.fenced := rfl
@[simp] theorem setTile_fill (k : Core) (n : Nat) (x : Tile) : (setTile k n x).fill = k.fill := rfl

@[simp] theorem setBank_ctxs (k : Core) (n : Nat) (x : Bank) : (setBank k n x).ctxs = k.ctxs := rfl
@[simp] theorem setBank_tenant (k : Core) (n : Nat) (x : Bank) : (setBank k n x).tenant = k.tenant := rfl
@[simp] theorem setBank_scrubbed (k : Core) (n : Nat) (x : Bank) : (setBank k n x).scrubbed = k.scrubbed := rfl
@[simp] theorem setBank_running (k : Core) (n : Nat) (x : Bank) : (setBank k n x).running = k.running := rfl
@[simp] theorem setBank_lastRun (k : Core) (n : Nat) (x : Bank) : (setBank k n x).lastRun = k.lastRun := rfl
@[simp] theorem setBank_tiles (k : Core) (n : Nat) (x : Bank) : (setBank k n x).tiles = k.tiles := rfl
@[simp] theorem setBank_vregs (k : Core) (n : Nat) (x : Bank) : (setBank k n x).vregs = k.vregs := rfl
@[simp] theorem setBank_sems (k : Core) (n : Nat) (x : Bank) : (setBank k n x).sems = k.sems := rfl
@[simp] theorem setBank_sets (k : Core) (n : Nat) (x : Bank) : (setBank k n x).sets = k.sets := rfl
@[simp] theorem setBank_lastMap (k : Core) (n : Nat) (x : Bank) : (setBank k n x).lastMap = k.lastMap := rfl
@[simp] theorem setBank_arrIdle (k : Core) (n : Nat) (x : Bank) : (setBank k n x).arrIdle = k.arrIdle := rfl
@[simp] theorem setBank_arrLeft (k : Core) (n : Nat) (x : Bank) : (setBank k n x).arrLeft = k.arrLeft := rfl
@[simp] theorem setBank_colsOff (k : Core) (n : Nat) (x : Bank) : (setBank k n x).colsOff = k.colsOff := rfl
@[simp] theorem setBank_aq (k : Core) (n : Nat) (x : Bank) : (setBank k n x).aq = k.aq := rfl
@[simp] theorem setBank_vq (k : Core) (n : Nat) (x : Bank) : (setBank k n x).vq = k.vq := rfl
@[simp] theorem setBank_vrun (k : Core) (n : Nat) (x : Bank) : (setBank k n x).vrun = k.vrun := rfl
@[simp] theorem setBank_moves (k : Core) (n : Nat) (x : Bank) : (setBank k n x).moves = k.moves := rfl
@[simp] theorem setBank_eq (k : Core) (n : Nat) (x : Bank) : (setBank k n x).eq = k.eq := rfl
@[simp] theorem setBank_engOpen (k : Core) (n : Nat) (x : Bank) : (setBank k n x).engOpen = k.engOpen := rfl
@[simp] theorem setBank_held (k : Core) (n : Nat) (x : Bank) : (setBank k n x).held = k.held := rfl
@[simp] theorem setBank_divide (k : Core) (n : Nat) (x : Bank) : (setBank k n x).divide = k.divide := rfl
@[simp] theorem setBank_rsrq (k : Core) (n : Nat) (x : Bank) : (setBank k n x).rsrq = k.rsrq := rfl
@[simp] theorem setBank_icache (k : Core) (n : Nat) (x : Bank) : (setBank k n x).icache = k.icache := rfl
@[simp] theorem setBank_tlb (k : Core) (n : Nat) (x : Bank) : (setBank k n x).tlb = k.tlb := rfl
@[simp] theorem setBank_opc (k : Core) (n : Nat) (x : Bank) : (setBank k n x).opc = k.opc := rfl
@[simp] theorem setBank_latches (k : Core) (n : Nat) (x : Bank) : (setBank k n x).latches = k.latches := rfl
@[simp] theorem setBank_pf (k : Core) (n : Nat) (x : Bank) : (setBank k n x).pf = k.pf := rfl
@[simp] theorem setBank_counters (k : Core) (n : Nat) (x : Bank) : (setBank k n x).counters = k.counters := rfl
@[simp] theorem setBank_readTags (k : Core) (n : Nat) (x : Bank) : (setBank k n x).readTags = k.readTags := rfl
@[simp] theorem setBank_writeTags (k : Core) (n : Nat) (x : Bank) : (setBank k n x).writeTags = k.writeTags := rfl
@[simp] theorem setBank_tagQueue (k : Core) (n : Nat) (x : Bank) : (setBank k n x).tagQueue = k.tagQueue := rfl
@[simp] theorem setBank_saved (k : Core) (n : Nat) (x : Bank) : (setBank k n x).saved = k.saved := rfl
@[simp] theorem setBank_saving (k : Core) (n : Nat) (x : Bank) : (setBank k n x).saving = k.saving := rfl
@[simp] theorem setBank_waiting (k : Core) (n : Nat) (x : Bank) : (setBank k n x).waiting = k.waiting := rfl
@[simp] theorem setBank_resetAt (k : Core) (n : Nat) (x : Bank) : (setBank k n x).resetAt = k.resetAt := rfl
@[simp] theorem setBank_lasting (k : Core) (n : Nat) (x : Bank) : (setBank k n x).lasting = k.lasting := rfl
@[simp] theorem setBank_probed (k : Core) (n : Nat) (x : Bank) : (setBank k n x).probed = k.probed := rfl
@[simp] theorem setBank_fenced (k : Core) (n : Nat) (x : Bank) : (setBank k n x).fenced = k.fenced := rfl
@[simp] theorem setBank_fill (k : Core) (n : Nat) (x : Bank) : (setBank k n x).fill = k.fill := rfl

@[simp] theorem setVreg_ctxs (k : Core) (n : Nat) (x : VReg) : (setVreg k n x).ctxs = k.ctxs := rfl
@[simp] theorem setVreg_tenant (k : Core) (n : Nat) (x : VReg) : (setVreg k n x).tenant = k.tenant := rfl
@[simp] theorem setVreg_scrubbed (k : Core) (n : Nat) (x : VReg) : (setVreg k n x).scrubbed = k.scrubbed := rfl
@[simp] theorem setVreg_running (k : Core) (n : Nat) (x : VReg) : (setVreg k n x).running = k.running := rfl
@[simp] theorem setVreg_lastRun (k : Core) (n : Nat) (x : VReg) : (setVreg k n x).lastRun = k.lastRun := rfl
@[simp] theorem setVreg_tiles (k : Core) (n : Nat) (x : VReg) : (setVreg k n x).tiles = k.tiles := rfl
@[simp] theorem setVreg_banks (k : Core) (n : Nat) (x : VReg) : (setVreg k n x).banks = k.banks := rfl
@[simp] theorem setVreg_sems (k : Core) (n : Nat) (x : VReg) : (setVreg k n x).sems = k.sems := rfl
@[simp] theorem setVreg_sets (k : Core) (n : Nat) (x : VReg) : (setVreg k n x).sets = k.sets := rfl
@[simp] theorem setVreg_lastMap (k : Core) (n : Nat) (x : VReg) : (setVreg k n x).lastMap = k.lastMap := rfl
@[simp] theorem setVreg_arrIdle (k : Core) (n : Nat) (x : VReg) : (setVreg k n x).arrIdle = k.arrIdle := rfl
@[simp] theorem setVreg_arrLeft (k : Core) (n : Nat) (x : VReg) : (setVreg k n x).arrLeft = k.arrLeft := rfl
@[simp] theorem setVreg_colsOff (k : Core) (n : Nat) (x : VReg) : (setVreg k n x).colsOff = k.colsOff := rfl
@[simp] theorem setVreg_aq (k : Core) (n : Nat) (x : VReg) : (setVreg k n x).aq = k.aq := rfl
@[simp] theorem setVreg_vq (k : Core) (n : Nat) (x : VReg) : (setVreg k n x).vq = k.vq := rfl
@[simp] theorem setVreg_vrun (k : Core) (n : Nat) (x : VReg) : (setVreg k n x).vrun = k.vrun := rfl
@[simp] theorem setVreg_moves (k : Core) (n : Nat) (x : VReg) : (setVreg k n x).moves = k.moves := rfl
@[simp] theorem setVreg_eq (k : Core) (n : Nat) (x : VReg) : (setVreg k n x).eq = k.eq := rfl
@[simp] theorem setVreg_engOpen (k : Core) (n : Nat) (x : VReg) : (setVreg k n x).engOpen = k.engOpen := rfl
@[simp] theorem setVreg_held (k : Core) (n : Nat) (x : VReg) : (setVreg k n x).held = k.held := rfl
@[simp] theorem setVreg_divide (k : Core) (n : Nat) (x : VReg) : (setVreg k n x).divide = k.divide := rfl
@[simp] theorem setVreg_rsrq (k : Core) (n : Nat) (x : VReg) : (setVreg k n x).rsrq = k.rsrq := rfl
@[simp] theorem setVreg_icache (k : Core) (n : Nat) (x : VReg) : (setVreg k n x).icache = k.icache := rfl
@[simp] theorem setVreg_tlb (k : Core) (n : Nat) (x : VReg) : (setVreg k n x).tlb = k.tlb := rfl
@[simp] theorem setVreg_opc (k : Core) (n : Nat) (x : VReg) : (setVreg k n x).opc = k.opc := rfl
@[simp] theorem setVreg_latches (k : Core) (n : Nat) (x : VReg) : (setVreg k n x).latches = k.latches := rfl
@[simp] theorem setVreg_pf (k : Core) (n : Nat) (x : VReg) : (setVreg k n x).pf = k.pf := rfl
@[simp] theorem setVreg_counters (k : Core) (n : Nat) (x : VReg) : (setVreg k n x).counters = k.counters := rfl
@[simp] theorem setVreg_readTags (k : Core) (n : Nat) (x : VReg) : (setVreg k n x).readTags = k.readTags := rfl
@[simp] theorem setVreg_writeTags (k : Core) (n : Nat) (x : VReg) : (setVreg k n x).writeTags = k.writeTags := rfl
@[simp] theorem setVreg_tagQueue (k : Core) (n : Nat) (x : VReg) : (setVreg k n x).tagQueue = k.tagQueue := rfl
@[simp] theorem setVreg_saved (k : Core) (n : Nat) (x : VReg) : (setVreg k n x).saved = k.saved := rfl
@[simp] theorem setVreg_saving (k : Core) (n : Nat) (x : VReg) : (setVreg k n x).saving = k.saving := rfl
@[simp] theorem setVreg_waiting (k : Core) (n : Nat) (x : VReg) : (setVreg k n x).waiting = k.waiting := rfl
@[simp] theorem setVreg_resetAt (k : Core) (n : Nat) (x : VReg) : (setVreg k n x).resetAt = k.resetAt := rfl
@[simp] theorem setVreg_lasting (k : Core) (n : Nat) (x : VReg) : (setVreg k n x).lasting = k.lasting := rfl
@[simp] theorem setVreg_probed (k : Core) (n : Nat) (x : VReg) : (setVreg k n x).probed = k.probed := rfl
@[simp] theorem setVreg_fenced (k : Core) (n : Nat) (x : VReg) : (setVreg k n x).fenced = k.fenced := rfl
@[simp] theorem setVreg_fill (k : Core) (n : Nat) (x : VReg) : (setVreg k n x).fill = k.fill := rfl

@[simp] theorem setSem_ctxs (k : Core) (n : Nat) (x : Sem) : (setSem k n x).ctxs = k.ctxs := rfl
@[simp] theorem setSem_tenant (k : Core) (n : Nat) (x : Sem) : (setSem k n x).tenant = k.tenant := rfl
@[simp] theorem setSem_scrubbed (k : Core) (n : Nat) (x : Sem) : (setSem k n x).scrubbed = k.scrubbed := rfl
@[simp] theorem setSem_running (k : Core) (n : Nat) (x : Sem) : (setSem k n x).running = k.running := rfl
@[simp] theorem setSem_lastRun (k : Core) (n : Nat) (x : Sem) : (setSem k n x).lastRun = k.lastRun := rfl
@[simp] theorem setSem_tiles (k : Core) (n : Nat) (x : Sem) : (setSem k n x).tiles = k.tiles := rfl
@[simp] theorem setSem_banks (k : Core) (n : Nat) (x : Sem) : (setSem k n x).banks = k.banks := rfl
@[simp] theorem setSem_vregs (k : Core) (n : Nat) (x : Sem) : (setSem k n x).vregs = k.vregs := rfl
@[simp] theorem setSem_sets (k : Core) (n : Nat) (x : Sem) : (setSem k n x).sets = k.sets := rfl
@[simp] theorem setSem_lastMap (k : Core) (n : Nat) (x : Sem) : (setSem k n x).lastMap = k.lastMap := rfl
@[simp] theorem setSem_arrIdle (k : Core) (n : Nat) (x : Sem) : (setSem k n x).arrIdle = k.arrIdle := rfl
@[simp] theorem setSem_arrLeft (k : Core) (n : Nat) (x : Sem) : (setSem k n x).arrLeft = k.arrLeft := rfl
@[simp] theorem setSem_colsOff (k : Core) (n : Nat) (x : Sem) : (setSem k n x).colsOff = k.colsOff := rfl
@[simp] theorem setSem_aq (k : Core) (n : Nat) (x : Sem) : (setSem k n x).aq = k.aq := rfl
@[simp] theorem setSem_vq (k : Core) (n : Nat) (x : Sem) : (setSem k n x).vq = k.vq := rfl
@[simp] theorem setSem_vrun (k : Core) (n : Nat) (x : Sem) : (setSem k n x).vrun = k.vrun := rfl
@[simp] theorem setSem_moves (k : Core) (n : Nat) (x : Sem) : (setSem k n x).moves = k.moves := rfl
@[simp] theorem setSem_eq (k : Core) (n : Nat) (x : Sem) : (setSem k n x).eq = k.eq := rfl
@[simp] theorem setSem_engOpen (k : Core) (n : Nat) (x : Sem) : (setSem k n x).engOpen = k.engOpen := rfl
@[simp] theorem setSem_held (k : Core) (n : Nat) (x : Sem) : (setSem k n x).held = k.held := rfl
@[simp] theorem setSem_divide (k : Core) (n : Nat) (x : Sem) : (setSem k n x).divide = k.divide := rfl
@[simp] theorem setSem_rsrq (k : Core) (n : Nat) (x : Sem) : (setSem k n x).rsrq = k.rsrq := rfl
@[simp] theorem setSem_icache (k : Core) (n : Nat) (x : Sem) : (setSem k n x).icache = k.icache := rfl
@[simp] theorem setSem_tlb (k : Core) (n : Nat) (x : Sem) : (setSem k n x).tlb = k.tlb := rfl
@[simp] theorem setSem_opc (k : Core) (n : Nat) (x : Sem) : (setSem k n x).opc = k.opc := rfl
@[simp] theorem setSem_latches (k : Core) (n : Nat) (x : Sem) : (setSem k n x).latches = k.latches := rfl
@[simp] theorem setSem_pf (k : Core) (n : Nat) (x : Sem) : (setSem k n x).pf = k.pf := rfl
@[simp] theorem setSem_counters (k : Core) (n : Nat) (x : Sem) : (setSem k n x).counters = k.counters := rfl
@[simp] theorem setSem_readTags (k : Core) (n : Nat) (x : Sem) : (setSem k n x).readTags = k.readTags := rfl
@[simp] theorem setSem_writeTags (k : Core) (n : Nat) (x : Sem) : (setSem k n x).writeTags = k.writeTags := rfl
@[simp] theorem setSem_tagQueue (k : Core) (n : Nat) (x : Sem) : (setSem k n x).tagQueue = k.tagQueue := rfl
@[simp] theorem setSem_saved (k : Core) (n : Nat) (x : Sem) : (setSem k n x).saved = k.saved := rfl
@[simp] theorem setSem_saving (k : Core) (n : Nat) (x : Sem) : (setSem k n x).saving = k.saving := rfl
@[simp] theorem setSem_waiting (k : Core) (n : Nat) (x : Sem) : (setSem k n x).waiting = k.waiting := rfl
@[simp] theorem setSem_resetAt (k : Core) (n : Nat) (x : Sem) : (setSem k n x).resetAt = k.resetAt := rfl
@[simp] theorem setSem_lasting (k : Core) (n : Nat) (x : Sem) : (setSem k n x).lasting = k.lasting := rfl
@[simp] theorem setSem_probed (k : Core) (n : Nat) (x : Sem) : (setSem k n x).probed = k.probed := rfl
@[simp] theorem setSem_fenced (k : Core) (n : Nat) (x : Sem) : (setSem k n x).fenced = k.fenced := rfl
@[simp] theorem setSem_fill (k : Core) (n : Nat) (x : Sem) : (setSem k n x).fill = k.fill := rfl

@[simp] theorem setStatSet_ctxs (k : Core) (b : Bool) (x : StatSet) : (setStatSet k b x).ctxs = k.ctxs := rfl
@[simp] theorem setStatSet_tenant (k : Core) (b : Bool) (x : StatSet) : (setStatSet k b x).tenant = k.tenant := rfl
@[simp] theorem setStatSet_scrubbed (k : Core) (b : Bool) (x : StatSet) : (setStatSet k b x).scrubbed = k.scrubbed := rfl
@[simp] theorem setStatSet_running (k : Core) (b : Bool) (x : StatSet) : (setStatSet k b x).running = k.running := rfl
@[simp] theorem setStatSet_lastRun (k : Core) (b : Bool) (x : StatSet) : (setStatSet k b x).lastRun = k.lastRun := rfl
@[simp] theorem setStatSet_tiles (k : Core) (b : Bool) (x : StatSet) : (setStatSet k b x).tiles = k.tiles := rfl
@[simp] theorem setStatSet_banks (k : Core) (b : Bool) (x : StatSet) : (setStatSet k b x).banks = k.banks := rfl
@[simp] theorem setStatSet_vregs (k : Core) (b : Bool) (x : StatSet) : (setStatSet k b x).vregs = k.vregs := rfl
@[simp] theorem setStatSet_sems (k : Core) (b : Bool) (x : StatSet) : (setStatSet k b x).sems = k.sems := rfl
@[simp] theorem setStatSet_lastMap (k : Core) (b : Bool) (x : StatSet) : (setStatSet k b x).lastMap = k.lastMap := rfl
@[simp] theorem setStatSet_arrIdle (k : Core) (b : Bool) (x : StatSet) : (setStatSet k b x).arrIdle = k.arrIdle := rfl
@[simp] theorem setStatSet_arrLeft (k : Core) (b : Bool) (x : StatSet) : (setStatSet k b x).arrLeft = k.arrLeft := rfl
@[simp] theorem setStatSet_colsOff (k : Core) (b : Bool) (x : StatSet) : (setStatSet k b x).colsOff = k.colsOff := rfl
@[simp] theorem setStatSet_aq (k : Core) (b : Bool) (x : StatSet) : (setStatSet k b x).aq = k.aq := rfl
@[simp] theorem setStatSet_vq (k : Core) (b : Bool) (x : StatSet) : (setStatSet k b x).vq = k.vq := rfl
@[simp] theorem setStatSet_vrun (k : Core) (b : Bool) (x : StatSet) : (setStatSet k b x).vrun = k.vrun := rfl
@[simp] theorem setStatSet_moves (k : Core) (b : Bool) (x : StatSet) : (setStatSet k b x).moves = k.moves := rfl
@[simp] theorem setStatSet_eq (k : Core) (b : Bool) (x : StatSet) : (setStatSet k b x).eq = k.eq := rfl
@[simp] theorem setStatSet_engOpen (k : Core) (b : Bool) (x : StatSet) : (setStatSet k b x).engOpen = k.engOpen := rfl
@[simp] theorem setStatSet_held (k : Core) (b : Bool) (x : StatSet) : (setStatSet k b x).held = k.held := rfl
@[simp] theorem setStatSet_divide (k : Core) (b : Bool) (x : StatSet) : (setStatSet k b x).divide = k.divide := rfl
@[simp] theorem setStatSet_rsrq (k : Core) (b : Bool) (x : StatSet) : (setStatSet k b x).rsrq = k.rsrq := rfl
@[simp] theorem setStatSet_icache (k : Core) (b : Bool) (x : StatSet) : (setStatSet k b x).icache = k.icache := rfl
@[simp] theorem setStatSet_tlb (k : Core) (b : Bool) (x : StatSet) : (setStatSet k b x).tlb = k.tlb := rfl
@[simp] theorem setStatSet_opc (k : Core) (b : Bool) (x : StatSet) : (setStatSet k b x).opc = k.opc := rfl
@[simp] theorem setStatSet_latches (k : Core) (b : Bool) (x : StatSet) : (setStatSet k b x).latches = k.latches := rfl
@[simp] theorem setStatSet_pf (k : Core) (b : Bool) (x : StatSet) : (setStatSet k b x).pf = k.pf := rfl
@[simp] theorem setStatSet_counters (k : Core) (b : Bool) (x : StatSet) : (setStatSet k b x).counters = k.counters := rfl
@[simp] theorem setStatSet_readTags (k : Core) (b : Bool) (x : StatSet) : (setStatSet k b x).readTags = k.readTags := rfl
@[simp] theorem setStatSet_writeTags (k : Core) (b : Bool) (x : StatSet) : (setStatSet k b x).writeTags = k.writeTags := rfl
@[simp] theorem setStatSet_tagQueue (k : Core) (b : Bool) (x : StatSet) : (setStatSet k b x).tagQueue = k.tagQueue := rfl
@[simp] theorem setStatSet_saved (k : Core) (b : Bool) (x : StatSet) : (setStatSet k b x).saved = k.saved := rfl
@[simp] theorem setStatSet_saving (k : Core) (b : Bool) (x : StatSet) : (setStatSet k b x).saving = k.saving := rfl
@[simp] theorem setStatSet_waiting (k : Core) (b : Bool) (x : StatSet) : (setStatSet k b x).waiting = k.waiting := rfl
@[simp] theorem setStatSet_resetAt (k : Core) (b : Bool) (x : StatSet) : (setStatSet k b x).resetAt = k.resetAt := rfl
@[simp] theorem setStatSet_lasting (k : Core) (b : Bool) (x : StatSet) : (setStatSet k b x).lasting = k.lasting := rfl
@[simp] theorem setStatSet_probed (k : Core) (b : Bool) (x : StatSet) : (setStatSet k b x).probed = k.probed := rfl
@[simp] theorem setStatSet_fenced (k : Core) (b : Bool) (x : StatSet) : (setStatSet k b x).fenced = k.fenced := rfl
@[simp] theorem setStatSet_fill (k : Core) (b : Bool) (x : StatSet) : (setStatSet k b x).fill = k.fill := rfl

@[simp] theorem coreBump_ctxs (k : Core) (r m : Nat) : (coreBump k r m).ctxs = k.ctxs := rfl
@[simp] theorem coreBump_tenant (k : Core) (r m : Nat) : (coreBump k r m).tenant = k.tenant := rfl
@[simp] theorem coreBump_scrubbed (k : Core) (r m : Nat) : (coreBump k r m).scrubbed = k.scrubbed := rfl
@[simp] theorem coreBump_running (k : Core) (r m : Nat) : (coreBump k r m).running = k.running := rfl
@[simp] theorem coreBump_lastRun (k : Core) (r m : Nat) : (coreBump k r m).lastRun = k.lastRun := rfl
@[simp] theorem coreBump_tiles (k : Core) (r m : Nat) : (coreBump k r m).tiles = k.tiles := rfl
@[simp] theorem coreBump_banks (k : Core) (r m : Nat) : (coreBump k r m).banks = k.banks := rfl
@[simp] theorem coreBump_vregs (k : Core) (r m : Nat) : (coreBump k r m).vregs = k.vregs := rfl
@[simp] theorem coreBump_sems (k : Core) (r m : Nat) : (coreBump k r m).sems = k.sems := rfl
@[simp] theorem coreBump_sets (k : Core) (r m : Nat) : (coreBump k r m).sets = k.sets := rfl
@[simp] theorem coreBump_lastMap (k : Core) (r m : Nat) : (coreBump k r m).lastMap = k.lastMap := rfl
@[simp] theorem coreBump_arrIdle (k : Core) (r m : Nat) : (coreBump k r m).arrIdle = k.arrIdle := rfl
@[simp] theorem coreBump_arrLeft (k : Core) (r m : Nat) : (coreBump k r m).arrLeft = k.arrLeft := rfl
@[simp] theorem coreBump_colsOff (k : Core) (r m : Nat) : (coreBump k r m).colsOff = k.colsOff := rfl
@[simp] theorem coreBump_aq (k : Core) (r m : Nat) : (coreBump k r m).aq = k.aq := rfl
@[simp] theorem coreBump_vq (k : Core) (r m : Nat) : (coreBump k r m).vq = k.vq := rfl
@[simp] theorem coreBump_vrun (k : Core) (r m : Nat) : (coreBump k r m).vrun = k.vrun := rfl
@[simp] theorem coreBump_moves (k : Core) (r m : Nat) : (coreBump k r m).moves = k.moves := rfl
@[simp] theorem coreBump_eq (k : Core) (r m : Nat) : (coreBump k r m).eq = k.eq := rfl
@[simp] theorem coreBump_engOpen (k : Core) (r m : Nat) : (coreBump k r m).engOpen = k.engOpen := rfl
@[simp] theorem coreBump_held (k : Core) (r m : Nat) : (coreBump k r m).held = k.held := rfl
@[simp] theorem coreBump_divide (k : Core) (r m : Nat) : (coreBump k r m).divide = k.divide := rfl
@[simp] theorem coreBump_rsrq (k : Core) (r m : Nat) : (coreBump k r m).rsrq = k.rsrq := rfl
@[simp] theorem coreBump_icache (k : Core) (r m : Nat) : (coreBump k r m).icache = k.icache := rfl
@[simp] theorem coreBump_tlb (k : Core) (r m : Nat) : (coreBump k r m).tlb = k.tlb := rfl
@[simp] theorem coreBump_opc (k : Core) (r m : Nat) : (coreBump k r m).opc = k.opc := rfl
@[simp] theorem coreBump_latches (k : Core) (r m : Nat) : (coreBump k r m).latches = k.latches := rfl
@[simp] theorem coreBump_pf (k : Core) (r m : Nat) : (coreBump k r m).pf = k.pf := rfl
@[simp] theorem coreBump_readTags (k : Core) (r m : Nat) : (coreBump k r m).readTags = k.readTags := rfl
@[simp] theorem coreBump_writeTags (k : Core) (r m : Nat) : (coreBump k r m).writeTags = k.writeTags := rfl
@[simp] theorem coreBump_tagQueue (k : Core) (r m : Nat) : (coreBump k r m).tagQueue = k.tagQueue := rfl
@[simp] theorem coreBump_saved (k : Core) (r m : Nat) : (coreBump k r m).saved = k.saved := rfl
@[simp] theorem coreBump_saving (k : Core) (r m : Nat) : (coreBump k r m).saving = k.saving := rfl
@[simp] theorem coreBump_waiting (k : Core) (r m : Nat) : (coreBump k r m).waiting = k.waiting := rfl
@[simp] theorem coreBump_resetAt (k : Core) (r m : Nat) : (coreBump k r m).resetAt = k.resetAt := rfl
@[simp] theorem coreBump_lasting (k : Core) (r m : Nat) : (coreBump k r m).lasting = k.lasting := rfl
@[simp] theorem coreBump_probed (k : Core) (r m : Nat) : (coreBump k r m).probed = k.probed := rfl
@[simp] theorem coreBump_fenced (k : Core) (r m : Nat) : (coreBump k r m).fenced = k.fenced := rfl
@[simp] theorem coreBump_fill (k : Core) (r m : Nat) : (coreBump k r m).fill = k.fill := rfl

/-! ## Writes of a context's registers -/

@[simp] theorem writeG_st (x : Ctx) (r : Nat) (v : Word64) : (writeG x r v).st = x.st := by unfold writeG; split <;> rfl
@[simp] theorem writeG_wait (x : Ctx) (r : Nat) (v : Word64) : (writeG x r v).wait = x.wait := by unfold writeG; split <;> rfl
@[simp] theorem writeG_preds (x : Ctx) (r : Nat) (v : Word64) : (writeG x r v).preds = x.preds := by unfold writeG; split <;> rfl
@[simp] theorem writeG_pc (x : Ctx) (r : Nat) (v : Word64) : (writeG x r v).pc = x.pc := by unfold writeG; split <;> rfl
@[simp] theorem writeG_srow (x : Ctx) (r : Nat) (v : Word64) : (writeG x r v).srow = x.srow := by unfold writeG; split <;> rfl
@[simp] theorem writeG_cause (x : Ctx) (r : Nat) (v : Word64) : (writeG x r v).cause = x.cause := by unfold writeG; split <;> rfl
@[simp] theorem writeG_imprecise (x : Ctx) (r : Nat) (v : Word64) : (writeG x r v).imprecise = x.imprecise := by unfold writeG; split <;> rfl
@[simp] theorem writeG_multi (x : Ctx) (r : Nat) (v : Word64) : (writeG x r v).multi = x.multi := by unfold writeG; split <;> rfl
@[simp] theorem writeG_tenant (x : Ctx) (r : Nat) (v : Word64) : (writeG x r v).tenant = x.tenant := by unfold writeG; split <;> rfl
@[simp] theorem writeG_taskSeq (x : Ctx) (r : Nat) (v : Word64) : (writeG x r v).taskSeq = x.taskSeq := by unfold writeG; split <;> rfl
@[simp] theorem writeG_res0 (x : Ctx) (r : Nat) (v : Word64) : (writeG x r v).res0 = x.res0 := by unfold writeG; split <;> rfl
@[simp] theorem writeG_res1 (x : Ctx) (r : Nat) (v : Word64) : (writeG x r v).res1 = x.res1 := by unfold writeG; split <;> rfl
@[simp] theorem writeG_faultPc (x : Ctx) (r : Nat) (v : Word64) : (writeG x r v).faultPc = x.faultPc := by unfold writeG; split <;> rfl
@[simp] theorem writeG_faultAddr (x : Ctx) (r : Nat) (v : Word64) : (writeG x r v).faultAddr = x.faultAddr := by unfold writeG; split <;> rfl
@[simp] theorem writeG_pageAt (x : Ctx) (r : Nat) (v : Word64) : (writeG x r v).pageAt = x.pageAt := by unfold writeG; split <;> rfl
@[simp] theorem writeG_yieldTimer (x : Ctx) (r : Nat) (v : Word64) : (writeG x r v).yieldTimer = x.yieldTimer := by unfold writeG; split <;> rfl
@[simp] theorem writeG_counters (x : Ctx) (r : Nat) (v : Word64) : (writeG x r v).counters = x.counters := by unfold writeG; split <;> rfl
@[simp] theorem writeG_pendRegs (x : Ctx) (r : Nat) (v : Word64) : (writeG x r v).pendRegs = x.pendRegs := by unfold writeG; split <;> rfl
@[simp] theorem writeG_pendPreds (x : Ctx) (r : Nat) (v : Word64) : (writeG x r v).pendPreds = x.pendPreds := by unfold writeG; split <;> rfl
@[simp] theorem writeG_granted (x : Ctx) (r : Nat) (v : Word64) : (writeG x r v).granted = x.granted := by unfold writeG; split <;> rfl
@[simp] theorem writeG_absent (x : Ctx) (r : Nat) (v : Word64) : (writeG x r v).absent = x.absent := by unfold writeG; split <;> rfl
@[simp] theorem writeG_resume (x : Ctx) (r : Nat) (v : Word64) : (writeG x r v).resume = x.resume := by unfold writeG; split <;> rfl
@[simp] theorem writeG_backP (x : Ctx) (r : Nat) (v : Word64) : (writeG x r v).backP = x.backP := by unfold writeG; split <;> rfl
@[simp] theorem writeG_backV (x : Ctx) (r : Nat) (v : Word64) : (writeG x r v).backV = x.backV := by unfold writeG; split <;> rfl
@[simp] theorem writeG_order (x : Ctx) (r : Nat) (v : Word64) : (writeG x r v).order = x.order := by unfold writeG; split <;> rfl
@[simp] theorem writeG_task (x : Ctx) (r : Nat) (v : Word64) : (writeG x r v).task = x.task := by unfold writeG; split <;> rfl

@[simp] theorem writeP_st (x : Ctx) (p : Nat) (v : Bool) : (writeP x p v).st = x.st := by unfold writeP; split <;> rfl
@[simp] theorem writeP_wait (x : Ctx) (p : Nat) (v : Bool) : (writeP x p v).wait = x.wait := by unfold writeP; split <;> rfl
@[simp] theorem writeP_regs (x : Ctx) (p : Nat) (v : Bool) : (writeP x p v).regs = x.regs := by unfold writeP; split <;> rfl
@[simp] theorem writeP_pc (x : Ctx) (p : Nat) (v : Bool) : (writeP x p v).pc = x.pc := by unfold writeP; split <;> rfl
@[simp] theorem writeP_srow (x : Ctx) (p : Nat) (v : Bool) : (writeP x p v).srow = x.srow := by unfold writeP; split <;> rfl
@[simp] theorem writeP_cause (x : Ctx) (p : Nat) (v : Bool) : (writeP x p v).cause = x.cause := by unfold writeP; split <;> rfl
@[simp] theorem writeP_imprecise (x : Ctx) (p : Nat) (v : Bool) : (writeP x p v).imprecise = x.imprecise := by unfold writeP; split <;> rfl
@[simp] theorem writeP_multi (x : Ctx) (p : Nat) (v : Bool) : (writeP x p v).multi = x.multi := by unfold writeP; split <;> rfl
@[simp] theorem writeP_tenant (x : Ctx) (p : Nat) (v : Bool) : (writeP x p v).tenant = x.tenant := by unfold writeP; split <;> rfl
@[simp] theorem writeP_taskSeq (x : Ctx) (p : Nat) (v : Bool) : (writeP x p v).taskSeq = x.taskSeq := by unfold writeP; split <;> rfl
@[simp] theorem writeP_res0 (x : Ctx) (p : Nat) (v : Bool) : (writeP x p v).res0 = x.res0 := by unfold writeP; split <;> rfl
@[simp] theorem writeP_res1 (x : Ctx) (p : Nat) (v : Bool) : (writeP x p v).res1 = x.res1 := by unfold writeP; split <;> rfl
@[simp] theorem writeP_faultPc (x : Ctx) (p : Nat) (v : Bool) : (writeP x p v).faultPc = x.faultPc := by unfold writeP; split <;> rfl
@[simp] theorem writeP_faultAddr (x : Ctx) (p : Nat) (v : Bool) : (writeP x p v).faultAddr = x.faultAddr := by unfold writeP; split <;> rfl
@[simp] theorem writeP_pageAt (x : Ctx) (p : Nat) (v : Bool) : (writeP x p v).pageAt = x.pageAt := by unfold writeP; split <;> rfl
@[simp] theorem writeP_yieldTimer (x : Ctx) (p : Nat) (v : Bool) : (writeP x p v).yieldTimer = x.yieldTimer := by unfold writeP; split <;> rfl
@[simp] theorem writeP_counters (x : Ctx) (p : Nat) (v : Bool) : (writeP x p v).counters = x.counters := by unfold writeP; split <;> rfl
@[simp] theorem writeP_pendRegs (x : Ctx) (p : Nat) (v : Bool) : (writeP x p v).pendRegs = x.pendRegs := by unfold writeP; split <;> rfl
@[simp] theorem writeP_pendPreds (x : Ctx) (p : Nat) (v : Bool) : (writeP x p v).pendPreds = x.pendPreds := by unfold writeP; split <;> rfl
@[simp] theorem writeP_granted (x : Ctx) (p : Nat) (v : Bool) : (writeP x p v).granted = x.granted := by unfold writeP; split <;> rfl
@[simp] theorem writeP_absent (x : Ctx) (p : Nat) (v : Bool) : (writeP x p v).absent = x.absent := by unfold writeP; split <;> rfl
@[simp] theorem writeP_resume (x : Ctx) (p : Nat) (v : Bool) : (writeP x p v).resume = x.resume := by unfold writeP; split <;> rfl
@[simp] theorem writeP_backP (x : Ctx) (p : Nat) (v : Bool) : (writeP x p v).backP = x.backP := by unfold writeP; split <;> rfl
@[simp] theorem writeP_backV (x : Ctx) (p : Nat) (v : Bool) : (writeP x p v).backV = x.backV := by unfold writeP; split <;> rfl
@[simp] theorem writeP_order (x : Ctx) (p : Nat) (v : Bool) : (writeP x p v).order = x.order := by unfold writeP; split <;> rfl
@[simp] theorem writeP_task (x : Ctx) (p : Nat) (v : Bool) : (writeP x p v).task = x.task := by unfold writeP; split <;> rfl

/-! ## Reading back what an update wrote -/

@[simp] theorem tenantOf_setTenant_same (s : State) (n : Nat) (x : Tenant) : tenantOf (setTenant s n x) n = x := by simp [tenantOf, setTenant]
theorem tenantOf_setTenant_other (s : State) {n j : Nat} (x : Tenant) (h : j ≠ n) : tenantOf (setTenant s n x) j = tenantOf s j := by
  simp [tenantOf, setTenant, look_put_other _ _ _ h]
@[simp] theorem chanOf_setChan_same (s : State) (n : Nat) (x : Chan) : chanOf (setChan s n x) n = x := by simp [chanOf, setChan]
theorem chanOf_setChan_other (s : State) {n j : Nat} (x : Chan) (h : j ≠ n) : chanOf (setChan s n x) j = chanOf s j := by
  simp [chanOf, setChan, look_put_other _ _ _ h]
@[simp] theorem linkOf_setLink_same (s : State) (n : Nat) (x : Link) : linkOf (setLink s n x) n = x := by simp [linkOf, setLink]
theorem linkOf_setLink_other (s : State) {n j : Nat} (x : Link) (h : j ≠ n) : linkOf (setLink s n x) j = linkOf s j := by
  simp [linkOf, setLink, look_put_other _ _ _ h]
@[simp] theorem dmaOf_setDma_same (s : State) (n : Nat) (x : DmaChan) : dmaOf (setDma s n x) n = x := by simp [dmaOf, setDma]
theorem dmaOf_setDma_other (s : State) {n j : Nat} (x : DmaChan) (h : j ≠ n) : dmaOf (setDma s n x) j = dmaOf s j := by
  simp [dmaOf, setDma, look_put_other _ _ _ h]
@[simp] theorem funcOf_setFunc_same (s : State) (n : Nat) (x : Func) : funcOf (setFunc s n x) n = x := by simp [funcOf, setFunc]
theorem funcOf_setFunc_other (s : State) {n j : Nat} (x : Func) (h : j ≠ n) : funcOf (setFunc s n x) j = funcOf s j := by
  simp [funcOf, setFunc, look_put_other _ _ _ h]

end Sys2Proof.Machine
end

