-- ==== Sys2Proof/Laws/Memory.lean ====
section
/-! SUPPORT. Every operation on the bytes of the module keeps them in their canonical form, and what a range operation
leaves in each byte. -/

namespace Sys2Proof.Machine
open Sys2Proof

/-! ## Ranges -/

theorem wf_zeroRange (m : List Host.Cell) (a n : Nat) (h : Memory.wf m = true) : Memory.wf (zeroRange m a n) = true :=
  wf_filter m _ h

theorem wf_foldl_setByte {α : Type} (ps : List α) (k : α → Nat) (v : α → Byte) (m : List Host.Cell)
    (h : Memory.wf m = true) : Memory.wf (ps.foldl (fun m p => setByte m (k p) (v p)) m) = true := by
  induction ps generalizing m with
  | nil => exact h
  | cons p ps ih => exact ih _ (wf_setByte m _ _ h)

theorem wf_foldl_setBytes {α : Type} (ps : List α) (k : α → Nat) (v : α → List Byte) (m : List Host.Cell)
    (h : Memory.wf m = true) : Memory.wf (ps.foldl (fun m p => setBytes m (k p) (v p)) m) = true := by
  induction ps generalizing m with
  | nil => exact h
  | cons p ps ih => exact ih _ (wf_setBytes m _ _ h)

theorem wf_copyRange (m : List Host.Cell) (src dst n : Nat) (h : Memory.wf m = true) :
    Memory.wf (copyRange m src dst n) = true :=
  wf_foldl_setByte _ _ _ _ (wf_zeroRange m dst n h)

/-- The canonical form, read as an order on the addresses and a fact about each byte. -/
theorem wf_iff (m : List Host.Cell) :
    Memory.wf m = true ↔ m.Pairwise (fun a b => a.1 < b.1) ∧ ∀ c ∈ m, c.2 ≠ 0 := by
  induction m with
  | nil => simp [Memory.wf]
  | cons e m ih =>
    obtain ⟨k, v⟩ := e
    rw [wf_cons, ih, List.pairwise_cons]
    constructor
    · rintro ⟨hv, hk, hp, hz⟩
      refine ⟨⟨?_, hp⟩, by simpa using ⟨hv, fun a b hb => hz (a, b) hb⟩⟩
      cases m with
      | nil => simp
      | cons f m =>
        have h1 : k < f.1 := hk f (by simp)
        intro c hc
        rcases List.mem_cons.1 hc with rfl | hc
        · exact h1
        · exact Nat.lt_trans h1 ((List.pairwise_cons.1 hp).1 c hc)
    · rintro ⟨⟨hk, hp⟩, hz⟩
      exact ⟨hz (k, v) (by simp), fun c hc => hk c (List.mem_of_mem_head? hc), hp,
        fun c hc => hz c (List.mem_cons_of_mem _ hc)⟩

theorem wf_writeBlock (m : List Host.Cell) (a : Nat) (bs : List Byte) (h : Memory.wf m = true) :
    Memory.wf (writeBlock m a bs) = true := by
  rw [wf_iff] at h ⊢
  obtain ⟨hp, hz⟩ := h
  have hmid : ∀ c ∈ ((bs.zipIdx.filter fun b => b.1 != 0).map fun b => (a + b.2, b.1) : List Host.Cell),
      a ≤ c.1 ∧ c.1 < a + bs.length ∧ c.2 ≠ 0 := by
    intro c hc
    simp only [List.mem_map, List.mem_filter] at hc
    obtain ⟨b, ⟨hb, hn⟩, rfl⟩ := hc
    have := List.mem_zipIdx hb
    refine ⟨by simp, ?_, by simpa using hn⟩
    have h2 := this.2.1
    simp only
    omega
  have hsort : ((bs.zipIdx.filter fun b => b.1 != 0).map fun b => (a + b.2, b.1) : List Host.Cell).Pairwise
      (fun x y => x.1 < y.1) := by
    rw [List.pairwise_map]
    refine List.Pairwise.filter _ ?_
    have : (bs.zipIdx.map Prod.snd).Pairwise (· < ·) := by
      rw [List.zipIdx_map_snd]; exact List.pairwise_lt_range'
    rw [List.pairwise_map] at this
    exact this.imp (fun h => by simpa using h)
  unfold writeBlock
  refine ⟨?_, ?_⟩
  · rw [List.pairwise_append, List.pairwise_append]
    refine ⟨⟨hp.filter _, hsort, ?_⟩, hp.filter _, ?_⟩
    · intro x hx y hy
      have h1 : x.1 < a := by simpa using (List.mem_filter.1 hx).2
      exact Nat.lt_of_lt_of_le h1 (hmid y hy).1
    · intro x hx y hy
      have hy' : a + bs.length ≤ y.1 := by simpa using (List.mem_filter.1 hy).2
      rcases List.mem_append.1 hx with hx | hx
      · have h1 : x.1 < a := by simpa using (List.mem_filter.1 hx).2
        omega
      · exact Nat.lt_of_lt_of_le (hmid x hx).2.1 hy'
  · intro c hc
    rcases List.mem_append.1 hc with hc | hc
    · rcases List.mem_append.1 hc with hc | hc
      · exact hz c (List.mem_filter.1 hc).1
      · exact (hmid c hc).2.2
    · exact hz c (List.mem_filter.1 hc).1

/-! ## The operations that write bytes -/

theorem wf_lsWrite (s : State) (pa : Nat) (bs : List Byte) (h : Memory.wf s.mem = true) :
    Memory.wf (lsWrite s pa bs).mem = true := wf_setBytes _ _ _ h

theorem byteAt_lsWrite_other (s : State) (pa : Nat) (bs : List Byte) (j : Nat) (h : j < pa ∨ pa + bs.length ≤ j) :
    byteAt (lsWrite s pa bs).mem j = byteAt s.mem j := byteAt_setBytes_other _ _ _ _ h

theorem byteAt_lsWrite_same (s : State) (pa : Nat) (bs : List Byte) (i : Nat) (h : i < bs.length) :
    byteAt (lsWrite s pa bs).mem (pa + i) = bs[i] := byteAt_setBytes_same _ _ _ _ h

/-- The invariant holds right after reset. -/
theorem reset_mem : State.reset.mem = [] := rfl

end Sys2Proof.Machine
end

