-- ==== Sys2Proof/Laws/Queue.lean ====
section
/-! SUPPORT. The shared operations that leave the queue of commands as it is: one lemma each, and the lemmas for a list of them. -/

namespace Sys2Proof.Machine
open Sys2Proof
/-- The state that an instruction's body ends in. -/
def actState : Act → State
  | .next s => s | .goto _ s => s | .wait _ _ s => s | .fault _ _ s => s | .give s => s | .hold s => s
@[simp] theorem actState_next (s) : actState (.next s) = s := rfl
@[simp] theorem actState_goto (a s) : actState (.goto a s) = s := rfl
@[simp] theorem actState_wait (a b s) : actState (.wait a b s) = s := rfl
@[simp] theorem actState_fault (a b s) : actState (.fault a b s) = s := rfl
@[simp] theorem actState_give (s) : actState (.give s) = s := rfl
@[simp] theorem actState_hold (s) : actState (.hold s) = s := rfl
theorem foldl_keep {α β γ : Type} (v : β → γ) (g : β → α → β) (l : List α) (b : β) (h : ∀ b x, v (g b x) = v b) :
    v (l.foldl g b) = v b := by
  induction l generalizing b with
  | nil => rfl
  | cons a l ih => rw [List.foldl_cons, ih, h]
@[simp] theorem foldl_pending {α : Type} (g : State → α → State) (l : List α) (s : State) (h : ∀ s x, (g s x).pending = s.pending) : (l.foldl g s).pending = s.pending :=
  foldl_keep State.pending g l s h
theorem foldl_eq_pending {α : Type} (g : State → α → State) (l : List α) (s : State) (h : ∀ s x t, g s x = t → t.pending = s.pending) : (l.foldl g s).pending = s.pending :=
  foldl_pending g l s fun s x => h s x _ rfl
@[simp] theorem foldl1_pending {α β : Type} (g : State × β → α → State × β) (l : List α) (s : State × β) (h : ∀ s x, (g s x).1.pending = s.1.pending) : (l.foldl g s).1.pending = s.1.pending :=
  foldl_keep (fun p => p.1.pending) g l s h
@[simp] theorem foldl2_pending {α β : Type} (g : β × State → α → β × State) (l : List α) (s : β × State) (h : ∀ s x, (g s x).2.pending = s.2.pending) : (l.foldl g s).2.pending = s.2.pending :=
  foldl_keep (fun p => p.2.pending) g l s h
theorem getD_pending {o : Option State} {d s : State} (h : ∀ t, o = some t → t.pending = s.pending) (hd : d.pending = s.pending) : (o.getD d).pending = s.pending := by
  cases o with
  | none => exact hd
  | some t => exact h t rfl
@[simp] theorem sendTagged_pending (s : State) (c : Nat) (k : Core) (m : Move) (p : MovePart) : (sendTagged s c k m p).pending = s.pending := by
  rfl
@[simp] theorem pumpMoves_pending (c n : Nat) (s : State) : (pumpMoves c n s).pending = s.pending := by
  induction n generalizing s with
  | zero => rfl
  | succ n ih => unfold pumpMoves; dsimp only; (repeat' split) <;> simp [ih]
@[simp] theorem pumpUnit_pending (s : State) (c : Nat) : (pumpUnit s c).pending = s.pending := by
  simp [pumpUnit]
@[simp] theorem pgBump_pending (s : State) (t : Nat) (i : Nat) (m : Nat) : (pgBump s t i m).pending = s.pending := by
  rfl
@[simp] theorem wakeCtx_pending (s : State) (c : Nat) (n : Nat) : (wakeCtx s c n).pending = s.pending := by
  unfold wakeCtx; dsimp only; (repeat' split) <;> simp_all
@[simp] theorem settle_pending (s : State) (c : Nat) : (settle s c).pending = s.pending := by
  simp [settle]
@[simp] theorem faultCtx_pending (s : State) (c : Nat) (n : Nat) (cause : Cause) (addr : Word64) (imprecise : Bool) (pc : Word64) (o : Nat) : (faultCtx s c n cause addr imprecise pc o).pending = s.pending := by
  unfold faultCtx; dsimp only; (repeat' split) <;> simp_all
@[simp] theorem addWalk_pending (s : State) (c : Nat) (t : Nat) (va : Nat) : (addWalk s c t va).pending = s.pending := by
  unfold addWalk; dsimp only; (repeat' split) <;> simp_all
@[simp] theorem fetchMiss_pending (s : State) (c : Nat) (n : Nat) : (fetchMiss s c n).pending = s.pending := by
  unfold fetchMiss; dsimp only; (repeat' split) <;> simp_all
@[simp] theorem countLasting_pending (s : State) (c : Nat) : (countLasting s c).pending = s.pending := by
  rfl
@[simp] theorem countTransient_pending (s : State) (c : Nat) : (countTransient s c).pending = s.pending := by
  simp [countTransient]
@[simp] theorem sramRead_pending (s : State) (c : Nat) (out : PortOutcome) : (sramRead s c out).1.pending = s.pending := by
  cases out <;> simp [sramRead]
@[simp] theorem noteMalformed_pending (s : State) (t : Nat) (va : Nat) (acc : Nat) : (noteMalformed s t va acc).pending = s.pending := by
  unfold noteMalformed; (repeat' split) <;> simp_all
@[simp] theorem noteStop_pending (s : State) (t : Nat) (va : Nat) (c : Cause) : (noteStop s t va c).pending = s.pending := by
  unfold noteStop; (repeat' split) <;> first | rfl | simp
@[simp] theorem putCmd_pending (s : State) (f : Nat) (g : GCmd) : (putCmd s f g).pending = s.pending := by
  rfl
@[simp] theorem failCmd_pending (s : State) (f : Nat) (g : GCmd) (c : Cause) (va : Nat) : (failCmd s f g c va).pending = s.pending := by
  simp [failCmd]
@[simp] theorem markBad_pending (s : State) (pa : Nat) (c : Cause) : (markBad s pa c).pending = s.pending := by
  unfold markBad; (repeat' split) <;> simp_all
@[simp] theorem onFunc_pending (s : State) (fn : Nat) (g : Func → Func) : (onFunc s fn g).pending = s.pending := by
  rfl
@[simp] theorem postEvent_pending (s : State) (fn : Nat) (code : Half) (fields : List (Nat × Nat × Nat)) : (postEvent s fn code fields).pending = s.pending := by
  unfold postEvent; (repeat' split) <;> simp_all
@[simp] theorem postPf_pending (s : State) (code : Half) (fields : List (Nat × Nat × Nat)) : (postPf s code fields).pending = s.pending := by
  rfl
@[simp] theorem reportFrame_pending (s : State) (pa : Nat) (c : Cause) : (reportFrame s pa c).pending = s.pending := by
  unfold reportFrame; (repeat' split) <;> simp_all
@[simp] theorem recordFrame_pending (s : State) (pa : Nat) (c : Cause) : (recordFrame s pa c).pending = s.pending := by
  unfold recordFrame; (repeat' split) <;> simp_all
@[simp] theorem meetError_pending (s : State) (pa : Nat) (c : Cause) : (meetError s pa c).pending = s.pending := by
  unfold meetError; (repeat' split) <;> simp_all
@[simp] theorem readCheck_pending (s : State) (pa : Nat) (n : Nat) (out : PortOutcome) : (readCheck s pa n out).1.pending = s.pending := by
  unfold readCheck; (repeat' split) <;> simp_all
@[simp] theorem writeSector_pending (out : PortOutcome) (a : State × Option Cause) (c : Nat × List Byte) : (writeSector out a c).1.pending = a.1.pending := by
  unfold writeSector; grind [readCheck_pending]
@[simp] theorem freeBits_pending (s : State) (n : Nat) : (freeBits s n).2.pending = s.pending := rfl
@[simp] theorem watchWrite_pending (s : State) (pa : Nat) (bytes : List Byte) : (watchWrite s pa bytes).pending = s.pending := by
  unfold watchWrite; dsimp only
  split
  · rfl
  · refine (foldl_pending _ _ _ fun s c => ?_).trans (freeBits_pending _ _)
    (repeat' split) <;> simp
@[simp] theorem physWrite_pending (s : State) (pa : Nat) (bytes : List Byte) (out : PortOutcome) : (physWrite s pa bytes out).1.pending = s.pending := by
  unfold physWrite
  (repeat' split) <;> first | (simp; done) | exact foldl1_pending _ _ (s, none) (fun a p => writeSector_pending out a p)
@[simp] theorem wearCheck_pending (s : State) : (wearCheck s).pending = s.pending := by
  unfold wearCheck; dsimp only; (repeat' split) <;> simp_all
@[simp] theorem mediaWrite_pending (s : State) (n : Nat) (host : Nat) : (mediaWrite s n host).pending = s.pending := by
  simp [mediaWrite]
@[simp] theorem programUnits_pending (s : State) (u : Nat) (n : Nat) (host : Nat) : (programUnits s u n host).pending = s.pending := by
  simp [programUnits]
@[simp] theorem programUnit_pending (s : State) (u : Nat) (host : Nat) : (programUnit s u host).pending = s.pending := by
  simp [programUnit]
@[simp] theorem freeValue_pending (s : State) : (freeValue s).2.pending = s.pending := by
  rfl
@[simp] theorem writeUnit_pending (s : State) (u : Nat) (ps : List (Nat × List Byte)) (out : PortOutcome) : (writeUnit s u ps out).1.pending = s.pending := by
  unfold writeUnit; grind [freeValue_pending, readCheck_pending, programUnit_pending, foldl_pending]
@[simp] theorem farWriteBytes_pending (s : State) (pa : Nat) (bytes : List Byte) (out : PortOutcome) : (farWriteBytes s pa bytes out).1.pending = s.pending := by
  unfold farWriteBytes; (repeat' split) <;> simp_all
@[simp] theorem anyWrite_pending (s : State) (pa : Nat) (bytes : List Byte) (out : PortOutcome) : (anyWrite s pa bytes out).1.pending = s.pending := by
  unfold anyWrite; (repeat' split) <;> simp_all
@[simp] theorem vaWriteGo_pending (t : Nat) (out : PortOutcome) (l : List (Nat × List Byte)) (s : State) : (vaWriteGo t out l s).1.pending = s.pending := by
  induction l generalizing s with
  | nil => rfl
  | cons e l ih => unfold vaWriteGo; (try dsimp only); grind [anyWrite_pending, setLeaf_pending]
@[simp] theorem vaWrite_pending (s : State) (t va : Nat) (bs : List Byte) (out : PortOutcome) : (vaWrite s t va bs out).1.pending = s.pending := vaWriteGo_pending _ _ _ _
@[simp] theorem writeOuts_pending (t : Nat) (out : PortOutcome) (ps : List (Nat × List Byte)) (s : State) : (writeOuts t out ps s).1.pending = s.pending :=
  foldl1_pending _ _ (s, none) (fun a p => by (try dsimp only); grind [vaWrite_pending])
@[simp] theorem writeTile_pending (t : Nat) (out : PortOutcome) (a : State × Option (Cause × Nat)) (p : Nat × List Byte) : (writeTile t out a p).1.pending = a.1.pending := by
  unfold writeTile; grind [vaWrite_pending, freeValue_pending]
@[simp] theorem writeBurst_pending (t : Nat) (out : PortOutcome) (w : BitVec 512) (ps : List (Nat × List Byte)) (s : State) : (writeBurst t out w ps s).1.pending = s.pending := by
  unfold writeBurst; split
  · exact foldl1_pending _ _ (s, none) (writeTile_pending t out)
  · exact writeOuts_pending t out ps s
@[simp] theorem writeTurn_pending (t : Nat) (ps : List (Nat × List Byte)) (s : State) : (writeTurn t ps s).1.pending = s.pending := by
  induction ps generalizing s with
  | nil => rfl
  | cons p ps ih => unfold writeTurn; grind [vaWrite_pending]
@[simp] theorem failAccess_pending (s : State) (f : Nat) (g : GCmd) (e : BadAccess) : (failAccess s f g e).pending = s.pending := by
  unfold failAccess; split <;> simp
@[simp] theorem finishOuts_pending (s : State) (f : Nat) (g : GCmd) (outs : List (Nat × List Byte)) (last : Nat × List Byte) (counts : List Nat) (adds : List (Nat × Nat)) : (finishOuts s f g outs last counts adds).pending = s.pending := by
  unfold finishOuts; grind [putCmd_pending, vaWrite_pending, writeTurn_pending, failCmd_pending, foldl_pending]
@[simp] theorem halfWrite_pending (t : Nat) (ps : List (Nat × List Byte)) (s : State) : (halfWrite t ps s).pending = s.pending := by
  unfold halfWrite; exact foldl_pending _ _ _ (by intros; (repeat' split) <;> simp_all)
@[simp] theorem someOuts_pending (s : State) (t : Nat) (outs : List (Nat × List Byte)) : (someOuts s t outs).pending = s.pending := by
  simp [someOuts]
@[simp] theorem fetchBlocks_pending (f : Nat) (g : GCmd) (err : Option BadAccess) (copies : List (Except GStop (List (Nat × List Byte)))) (others : List (Nat × List Byte)) (head : Nat × List Byte) (adds : List (Nat × Nat)) (s : State) : (fetchBlocks f g err copies others head adds s).pending = s.pending := by
  unfold fetchBlocks; dsimp only; grind [failCmd_pending, failAccess_pending, finishOuts_pending, someOuts_pending, writeTurn_pending]
@[simp] theorem linkBump_pending (s : State) (l : Nat) (i : Nat) (n : Nat) : (linkBump s l i n).pending = s.pending := by
  rfl
@[simp] theorem dieBump_pending (s : State) (b : Bool) (i : Nat) : (dieBump s b i).pending = s.pending := by
  rfl
@[simp] theorem chanBump_pending (s : State) (c : Nat) (i : Nat) : (chanBump s c i).pending = s.pending := by
  rfl
@[simp] theorem sendOn_pending (s : State) (l : Nat) (f : TxFrame) : (sendOn s l f).pending = s.pending := by
  rfl
@[simp] theorem sendOut_pending (s : State) (l : Nat) (f : TxFrame) : (sendOut s l f).pending = s.pending := by
  rfl
@[simp] theorem sendAgain_pending (s : State) (l : Nat) (f : TxFrame) : (sendAgain s l f).pending = s.pending := by
  rfl
@[simp] theorem toLinks_pending (s : State) (ls : List Nat) (f : TxFrame) : (toLinks s ls f).pending = s.pending := by
  unfold toLinks; dsimp only; (repeat' split) <;> simp_all
@[simp] theorem drainLink_pending (l n : Nat) (s : State) : (drainLink l n s).pending = s.pending := by
  induction n generalizing s with
  | zero => rfl
  | succ n ih => unfold drainLink; (try dsimp only); (repeat' split) <;> simp [ih]
@[simp] theorem mcOut_pending (s : State) (die : Bool) (key : Nat) (f : TxFrame) : (mcOut s die key f).pending = s.pending := by
  unfold mcOut; dsimp only; (repeat' split) <;> simp_all
@[simp] theorem inject_pending (s : State) (plane : Bool) (f : TxFrame) : (inject s plane f).pending = s.pending := by
  unfold inject; dsimp only; (repeat' split) <;> simp_all
@[simp] theorem chanSendTo_pending (s : State) (c : Nat) (dest : BitVec 10) (seq : Word32) (kind : BitVec 4) (vc : BitVec 2) (body : List Byte) (core : Option Nat) : (chanSendTo s c dest seq kind vc body core).pending = s.pending := by
  unfold chanSendTo; dsimp only; (repeat' split) <;> simp_all
@[simp] theorem chanSend_pending (s : State) (c : Nat) (seq : Word32) (kind : BitVec 4) (vc : BitVec 2) (body : List Byte) : (chanSend s c seq kind vc body).pending = s.pending := by
  simp [chanSend]
@[simp] theorem chanFrameTo_pending (s : State) (c : Nat) (dest : BitVec 10) (kind : BitVec 4) (vc : BitVec 2) (body : List Byte) (core : Option Nat) : (chanFrameTo s c dest kind vc body core).pending = s.pending := by
  simp [chanFrameTo]
@[simp] theorem chanFrame_pending (s : State) (c : Nat) (kind : BitVec 4) (vc : BitVec 2) (body : List Byte) (core : Option Nat) : (chanFrame s c kind vc body core).pending = s.pending := by
  simp [chanFrame]
@[simp] theorem refillChan_pending (c n : Nat) (s : State) : (refillChan c n s).pending = s.pending := by
  induction n generalizing s with
  | zero => rfl
  | succ n ih => unfold refillChan; (try dsimp only); (repeat' split) <;> simp [ih]
@[simp] theorem refillAll_pending (s : State) : (refillAll s).pending = s.pending := by
  simp [refillAll]
@[simp] theorem countFab_pending (s : State) (dest : Nat) : (countFab s dest).pending = s.pending := by
  rfl
@[simp] theorem fabSend_pending (s : State) (kind dest : Nat) (args : List Nat) : (fabSend s kind dest args).pending = s.pending := by
  unfold fabSend; (repeat' split) <;> simp_all
@[simp] theorem fabOn_pending (s : State) (l kind : Nat) (args : List Nat) : (fabOn s l kind args).pending = s.pending := by
  simp [fabOn]
@[simp] theorem fabAll_pending (s : State) (kind : Nat) (args : List Nat) : (fabAll s kind args).pending = s.pending := by
  simp [fabAll]
@[simp] theorem fabBw_pending (s : State) (kind : Nat) (args : List Nat) : (fabBw s kind args).pending = s.pending := by
  unfold fabBw; (repeat' split) <;> simp_all
@[simp] theorem fabFlush_pending (s : State) : (fabFlush s).pending = s.pending := by
  simp [fabFlush]
@[simp] theorem deliverSum_pending (s : State) (key : Nat) (q : RedSlot) : (deliverSum s key q).pending = s.pending := by
  unfold deliverSum; (repeat' split) <;> simp_all
@[simp] theorem redForward_pending (s : State) (die : Bool) (key : Nat) (vc : BitVec 2) (out : Nat) (q : RedSlot) : (redForward s die key vc out q).pending = s.pending := by
  unfold redForward; dsimp only; (repeat' split) <;> simp_all
@[simp] theorem treeOne_pending (s : State) (die : Bool) (inp : Nat) (vc : BitVec 2) (src : Option Nat) (q : RedSlot) : (treeOne s die inp vc src q).pending = s.pending := by
  unfold treeOne; dsimp only; (repeat' split) <;> simp_all
@[simp] theorem treePump_pending (die : Bool) (n : Nat) (s : State) : (treePump die n s).pending = s.pending := by
  induction n generalizing s with
  | zero => rfl
  | succ n ih => unfold treePump; (try dsimp only); (repeat' split) <;> simp [ih]
@[simp] theorem treeStep_pending (s : State) (die : Bool) (inp : Nat) (vc : BitVec 2) (src : Option Nat) (q : RedSlot) : (treeStep s die inp vc src q).pending = s.pending := by
  simp [treeStep]
@[simp] theorem redRefill_pending (die : Bool) (vc : BitVec 2) (c n : Nat) (s : State) : (redRefill die vc c n s).pending = s.pending := by
  induction n generalizing s with
  | zero => rfl
  | succ n ih => unfold redRefill; (try dsimp only); (repeat' split) <;> simp [ih]
@[simp] theorem treeAdd_pending (s : State) (die : Bool) (inp : Nat) (vc : BitVec 2) (q : RedSlot) (src : Option Nat) : (treeAdd s die inp vc q src).pending = s.pending := by
  unfold treeAdd; dsimp only; (repeat' split) <;> simp_all
@[simp] theorem injectBlock_pending (s : State) (c : Nat) (aexp : Option Int) (elems : List Int) (poison : Bool) : (injectBlock s c aexp elems poison).pending = s.pending := by
  unfold injectBlock; dsimp only; (repeat' split) <;> simp_all
@[simp] theorem sendData_pending (s : State) (c : Nat) (first : Word32) (bytes : List Byte) : (sendData s c first bytes).pending = s.pending := by
  unfold sendData; (repeat' split) <;> simp_all
@[simp] theorem drawNumbers_pending (s : State) (c : Nat) (len : Nat) : (drawNumbers s c len).pending = s.pending := by
  unfold drawNumbers; dsimp only; (repeat' split) <;> simp_all
@[simp] theorem onRouters_pending (s : State) (p : Bool) (f : Router → Router) : (onRouters s p f).pending = s.pending := by
  rfl
@[simp] theorem onMesh_pending (s : State) (g : ChanCfg) (f : Router → Router) : (onMesh s g f).pending = s.pending := by
  simp [onMesh]
@[simp] theorem dropKey_pending (s : State) (die : Bool) (key : Nat) : (dropKey s die key).pending = s.pending := by
  rfl
@[simp] theorem leaveChan_pending (s : State) (c : Nat) : (leaveChan s c).pending = s.pending := by
  unfold leaveChan; dsimp only; (repeat' split) <;> simp_all
@[simp] theorem endLocal_pending (s : State) (c : Nat) (reason : Nat) : (endLocal s c reason).pending = s.pending := by
  unfold endLocal; dsimp only; (repeat' split) <;> simp_all
@[simp] theorem endChan_pending (s : State) (c : Nat) (reason : Nat) : (endChan s c reason).pending = s.pending := by
  unfold endChan; dsimp only; (repeat' split) <;> simp_all
@[simp] theorem endChans_pending (s : State) (p : Nat → Chan → Bool) (reason : Nat) : (endChans s p reason).pending = s.pending := by
  simp [endChans]
@[simp] theorem respond_pending (s : State) (fn : Nat) (op : Nat) (seq : Half) (st : Half) (len : Nat) (body : BitVec 384) (data : Option (List Byte)) : (respond s fn op seq st len body data).pending = s.pending := by
  rfl
@[simp] theorem countFailed_pending (s : State) (st : Half) : (countFailed s st).pending = s.pending := by
  unfold countFailed; split <;> rfl
@[simp] theorem answerRes_pending (e : Entry) (op : Nat) (late : Bool) (r : Res) (s : State) : (answerRes e op late r s).pending = s.pending := by
  unfold answerRes; (repeat' split) <;> simp_all
@[simp] theorem refuse_pending (s : State) (l : Nat) (cause : Byte) : (refuse s l cause).pending = s.pending := by
  rfl
@[simp] theorem installChan_pending (s : State) (c : Nat) (cfg : ChanCfg) (job : Half) : (installChan s c cfg job).pending = s.pending := by
  rfl
theorem installDie_pending (s : State) (die : Bool) (key : Nat) (red : Bool) (mc : Bool) (ins : List Nat) (out : Nat) (outs : List Nat) (t0) (h0 : (installDie s die key red mc ins out outs) = some t0) : t0.pending = s.pending := by
  unfold installDie at h0; grind [setDie_pending, foldl_pending]
@[simp] theorem installMcast_pending (s : State) (p die : Bool) (g : Nat) (cores : List Nat) : (installMcast s p die g cores).pending = s.pending := by
  unfold installMcast; exact foldl_pending _ _ _ (by intros; (repeat' split) <;> simp_all)
theorem installTree_pending (s : State) (p die : Bool) (t : Nat) (cores : List Nat) (t0) (h0 : (installTree s p die t cores) = some t0) : t0.pending = s.pending := by
  unfold installTree at h0; grind [setRouter_pending, foldl_pending]
theorem installTrees_pending (die : Bool) (t : Nat) (cores : List Nat) (ps : List Bool) (s t0 : State)
    (h0 : installTrees die t cores ps s = some t0) : t0.pending = s.pending := by
  induction ps generalizing s with
  | nil => cases h0; rfl
  | cons p ps ih =>
    obtain ⟨s1, h1, h2⟩ := Option.bind_eq_some_iff.1 h0
    rw [ih s1 h2, installTree_pending _ _ _ _ _ _ h1]
theorem meshTree_pending (s : State) (c : Nat) (t0) (h0 : (meshTree s c) = some t0) : t0.pending = s.pending := by
  unfold meshTree at h0; grind [installTrees_pending, setChan_pending, foldl_pending]
@[simp] theorem completeObj_pending (s : State) (op : Nat) (obj : Nat) (st : Half) (len : Nat) (body : BitVec 384) : (completeObj s op obj st len body).pending = s.pending := by
  rfl
@[simp] theorem setupDone_pending (s : State) (q : Setup) (st : Half) (body : BitVec 384) : (setupDone s q st body).pending = s.pending := by
  rfl
theorem meshGroup_pending (s : State) (c : Nat) (t0 : State) (h0 : meshGroup s c = some t0) : t0.pending = s.pending := by
  unfold meshGroup at h0; dsimp only at h0
  (repeat' split at h0) <;> first | (simp at h0; done) | (cases h0; simp)
theorem installGroup_pending (s : State) (c : Nat) (cfg : ChanCfg) (job : Half) (key : Nat) (ins : List Nat) (out : Nat) (outs : List Nat) (fanin : Nat)
    (ms : List Nat) (t0 : State) (h0 : installGroup s c cfg job key ins out outs fanin ms = some t0) : t0.pending = s.pending := by
  unfold installGroup at h0
  split at h0
  · simp at h0
  · rename_i s1 h1
    obtain ⟨s3, h3, h4⟩ := Option.bind_eq_some_iff.1 h0
    rw [meshGroup_pending _ _ _ h4, meshTree_pending _ _ _ h3]
    simp [installDie_pending _ _ _ _ _ _ _ _ _ h1]
@[simp] theorem sendStatus_pending (s : State) (q : Setup) (st : Half) : (sendStatus s q st).pending = s.pending := by
  simp [sendStatus]
@[simp] theorem failGroup_pending (s : State) (q : Setup) (st : Half) : (failGroup s q st).pending = s.pending := by
  simp [failGroup]
@[simp] theorem uninstall_pending (s : State) (c : Nat) : (uninstall s c).pending = s.pending := by
  unfold uninstall; dsimp only; (repeat' split) <;> simp_all
@[simp] theorem sendInstall_pending (q : Setup) (cfg : ChanCfg) (red mc : List (Nat × Nat)) (s : State) (m : Nat × Nat) : (sendInstall q cfg red mc s m).pending = s.pending := by
  simp [sendInstall]
@[simp] theorem sendSetup_pending (s : State) (q : Setup) : (sendSetup s q).pending = s.pending := by
  simp [sendSetup]
@[simp] theorem rootInstall_pending (s : State) (q : Setup) : (rootInstall s q).pending = s.pending := by
  unfold rootInstall; dsimp only
  split
  · simp
  · split
    · split
      · simp
      · rename_i s1 h1
        have e1 := installGroup_pending (h0 := h1)
        (repeat' split) <;> simp [e1]
    · simp
@[simp] theorem joinGroup_pending (s : State) (q : Setup) (src : Nat) (srcChan : Nat) (fan : Nat) (uid : Word64) : (joinGroup s q src srcChan fan uid).pending = s.pending := by
  unfold joinGroup; dsimp only; (repeat' split) <;> simp_all
@[simp] theorem removeReq_pending (s : State) (id : Nat) : (removeReq s id).pending = s.pending := by
  rfl
@[simp] theorem freeTag_pending (s : State) (r : MemReq) : (freeTag s r).pending = s.pending := by
  unfold freeTag; (repeat' split) <;> simp_all
@[simp] theorem completeWait_pending (f : Ctx → Ctx) (s : State) (c : Nat) (n : Nat) : (completeWait f s c n).pending = s.pending := by
  rfl
@[simp] theorem deliverRead_pending (s : State) (r : MemReq) (bytes : List Byte) : (deliverRead s r bytes).pending = s.pending := by
  unfold deliverRead; (repeat' split) <;> simp_all
@[simp] theorem unitFault_pending (s : State) (c : Nat) (n : Nat) (cause : Cause) (addr : Word64) (pc : Word64) (o : Nat) : (unitFault s c n cause addr pc o).pending = s.pending := by
  unfold unitFault; dsimp only; (repeat' split) <;> simp_all
@[simp] theorem failRead_pending (s : State) (r : MemReq) (c : Cause) : (failRead s r c).pending = s.pending := by
  unfold failRead; dsimp only; (repeat' split) <;> simp_all
@[simp] theorem storeFault_pending (s : State) (c : Nat) (n : Nat) (cause : Cause) (addr : Word64) (o : Nat) : (storeFault s c n cause addr o).pending = s.pending := by
  simp [storeFault]
@[simp] theorem countPageWait_pending (s : State) (t : Nat) : (countPageWait s t).pending = s.pending := by
  rfl
@[simp] theorem touchLeaf_pending (s : State) (t : Nat) (va : Nat) (acc : Nat) (l : Leaf) (big : Bool) : (touchLeaf s t va acc l big).pending = s.pending := by
  rfl
@[simp] theorem answerWalk_pending (s : State) (c : Nat) (n : Nat) (va : Nat) (acc : Nat) (tile : Bool) (err : Option Cause) : (answerWalk s c n va acc tile err).pending = s.pending := by
  unfold answerWalk; dsimp only; (repeat' split) <;> simp_all
@[simp] theorem answerCtx_pending (w : Walk) (err : Option Cause) (c : Nat) (s : State) (n : Nat) : (answerCtx w err c s n).pending = s.pending := by
  unfold answerCtx; dsimp only; (repeat' split) <;> simp_all
@[simp] theorem answerPage_pending (t : Nat) (page : Nat) (c : Nat) (s : State) (n : Nat) : (answerPage t page c s n).pending = s.pending := by
  unfold answerPage; dsimp only; (repeat' split) <;> simp_all
@[simp] theorem answerAllPage_pending (s : State) (t : Nat) (page : Nat) : (answerAllPage s t page).pending = s.pending := by
  simp [answerAllPage]
@[simp] theorem cancelTask_pending (s : State) (t : Nat) (h : Nat) (reason : Nat) (ticket : Nat) : (cancelTask s t h reason ticket).pending = s.pending := by
  simp [cancelTask]
@[simp] theorem countTicket_pending (s : State) (t : Nat) (h : Nat) (fault : Bool) : (countTicket s t h fault).pending = s.pending := by
  unfold countTicket; (repeat' split) <;> simp_all
@[simp] theorem reportEnded_pending (c : Nat) (s : State) (e : Nat × Ctx) : (reportEnded c s e).pending = s.pending := by
  unfold reportEnded; (repeat' split) <;> simp_all
@[simp] theorem scrubCore_pending (s : State) (c : Nat) (t : Option Nat) : (scrubCore s c t).pending = s.pending := by
  rfl
@[simp] theorem wipeCore_pending (s : State) (c : Nat) : (wipeCore s c).pending = s.pending := by
  rfl
@[simp] theorem endTrees_pending (s : State) (p : Nat → Bool) : (endTrees s p).pending = s.pending := by
  simp [endTrees]
@[simp] theorem beginFill_pending (s : State) (c : Nat) : (beginFill s c).pending = s.pending := by
  simp [beginFill]
@[simp] theorem nextFill_pending (s : State) : (nextFill s).pending = s.pending := by
  unfold nextFill; (repeat' split) <;> simp_all
@[simp] theorem storeBytes_pending (s : State) (host : Nat) : (storeBytes s host).pending = s.pending := by
  simp [storeBytes]
@[simp] theorem storeRecord_pending (s : State) (far : FarRecords) (host : Nat) : (storeRecord s far host).pending = s.pending := by
  unfold storeRecord; (repeat' split) <;> simp_all
@[simp] theorem eraseSalt_pending (s : State) (t : Nat) : (eraseSalt s t).pending = s.pending := by
  unfold eraseSalt; (repeat' split) <;> simp_all
@[simp] theorem writeDist_pending (s : State) (bumpBy : Nat) : (writeDist s bumpBy).pending = s.pending := by
  unfold writeDist; dsimp only; (repeat' split) <;> simp_all
@[simp] theorem publishMap_pending (s : State) : (publishMap s).pending = s.pending := by
  simp [publishMap]
@[simp] theorem refreshWait_pending (s : State) (t : Nat) (h : Nat) : (refreshWait s t h).pending = s.pending := by
  unfold refreshWait; (repeat' split) <;> simp_all
@[simp] theorem flushHandle_pending (s : State) (t : Nat) (h : Nat) (reason : Nat) : (flushHandle s t h reason).pending = s.pending := by
  unfold flushHandle; (repeat' split) <;> simp_all
@[simp] theorem finishKill_pending (s : State) (t : Nat) (h : Nat) : (finishKill s t h).pending = s.pending := by
  unfold finishKill; (repeat' split) <;> simp_all
@[simp] theorem settleStops_pending (s : State) (t : Nat) : (settleStops s t).pending = s.pending := by
  unfold settleStops; exact foldl_pending _ _ _ (by intros; (repeat' split) <;> simp_all)
@[simp] theorem closeEngine_pending (s : State) (p : Nat → Bool) : (closeEngine s p).pending = s.pending := by
  simp [closeEngine]
@[simp] theorem sendSig_pending (s : State) (core sem n : Nat) (src : Option (Nat × Nat)) : (sendSig s core sem n src).pending = s.pending := rfl
@[simp] theorem fireCounts_pending (s : State) (c : Nat) (p : Nat → Bool) : (fireCounts s c p).pending = s.pending := by
  unfold fireCounts; dsimp only; (repeat' split) <;> (try simp_all) <;> (rw [foldl_pending] <;> (try simp_all)) <;> (intros; (repeat' split) <;> simp_all)
@[simp] theorem watchReq_pending (s : State) (c : Cause) (id : Nat) : (watchReq s c id).pending = s.pending := by
  unfold watchReq; (repeat' split) <;> simp_all
@[simp] theorem endPacket_pending (s0 : State) (p : Bool) (c : Cause) (k : Packet) : (endPacket s0 p c k).pending = s0.pending := by
  unfold endPacket; dsimp only; (repeat' split) <;> simp_all
@[simp] theorem leave_pending (s : State) (p : Bool) (r : Nat) (port : Nat) (k : Packet) : (leave s p r port k).pending = s.pending := by
  unfold leave; (repeat' split) <;> simp_all
@[simp] theorem rtrBump_pending (s : State) (p : Bool) (r : Nat) (i : Nat) (n : Nat) : (rtrBump s p r i n).pending = s.pending := by
  rfl
@[simp] theorem emit_pending (s : State) (p : Bool) (r : Nat) (inp : Nat) (port : Nat) (k : Packet) : (emit s p r inp port k).pending = s.pending := by
  unfold emit; dsimp only; (repeat' split) <;> simp_all
@[simp] theorem sendSum_pending (s : State) (p : Bool) (r : Nat) (q : RedSlot) (o : Nat) : (sendSum s p r q o).pending = s.pending := by
  simp [sendSum]
@[simp] theorem setArb_pending (s : State) (p : Bool) (r : Nat) (port : Nat) (a : Arbiter) : (setArb s p r port a).pending = s.pending := by
  rfl
@[simp] theorem passed_pending (s : State) (p : Bool) (r : Nat) (port : Nat) (i : Nat) : (passed s p r port i).pending = s.pending := by
  unfold passed; dsimp only; (repeat' split) <;> simp_all
@[simp] theorem addBlock_pending (s : State) (p : Bool) (r : Nat) (inp : Nat) (ins : List Nat) (k : Packet) : (addBlock s p r inp ins k).pending = s.pending := by
  unfold addBlock; dsimp only; (repeat' split) <;> simp_all
@[simp] theorem forward_pending (s : State) (p : Bool) (r : Nat) (inp : Nat) (k : Packet) : (forward s p r inp k).pending = s.pending := by
  unfold forward; (repeat' split) <;> simp_all
theorem moveOne_pending (s : State) (p : Bool) (r : Nat) (t0 : State) (h0 : moveOne s p r = some t0) : t0.pending = s.pending := by
  unfold moveOne at h0; dsimp only at h0
  split at h0
  · cases h0; simp
  · split at h0
    · cases h0; simp
    · obtain ⟨e, -, h⟩ := Option.map_eq_some_iff.1 h0
      rw [← h]; simp
@[simp] theorem pump_pending (p : Bool) (r n : Nat) (s : State) : (pump p r n s).pending = s.pending := by
  induction n generalizing s with
  | zero => rfl
  | succ n ih =>
    unfold pump; split
    · rename_i h1; rw [ih, moveOne_pending _ _ _ _ h1]
    · rfl
@[simp] theorem settleRouter_pending (s : State) (p : Bool) (r : Nat) : (settleRouter s p r).pending = s.pending := by
  simp [settleRouter]
@[simp] theorem enterOne_pending (s : State) (p : Bool) (r : Nat) (e : Nat × Packet) : (enterOne s p r e).pending = s.pending := by
  simp [enterOne]
@[simp] theorem enterAll_pending (p : Bool) (r n : Nat) (s : State) : (enterAll p r n s).pending = s.pending := by
  induction n generalizing s with
  | zero => rfl
  | succ n ih => unfold enterAll; split <;> simp [ih]
@[simp] theorem work_pending (s : State) (p : Bool) (r : Nat) : (work s p r).pending = s.pending := by
  simp [work]
@[simp] theorem dmaBump_pending (s : State) (c : Nat) (i : Nat) (n : Nat) : (dmaBump s c i n).pending = s.pending := by
  rfl
@[simp] theorem endWait_pending (s : State) (c : Nat) : (endWait s c).pending = s.pending := by
  unfold endWait; dsimp only; (repeat' split) <;> simp_all
@[simp] theorem noteWait_pending (s : State) (c : Nat) : (noteWait s c).pending = s.pending := by
  rfl
@[simp] theorem resetChan_pending (s : State) (c : Nat) : (resetChan s c).pending = s.pending := by
  simp [resetChan]
@[simp] theorem afterStop_pending (s : State) (c : Nat) : (afterStop s c).pending = s.pending := by
  unfold afterStop; dsimp only; (repeat' split) <;> simp_all
@[simp] theorem dmaIrq_pending (s : State) (c : Nat) : (dmaIrq s c).pending = s.pending := by
  unfold dmaIrq; dsimp only; (repeat' split) <;> simp_all
@[simp] theorem stopChan_pending (s : State) (c : Nat) (code : Nat) : (stopChan s c code).pending = s.pending := by
  simp [stopChan]
@[simp] theorem lateError_pending (s : State) (c : Nat) (i : Half) (w : BitVec 512) (e : Cause) : (lateError s c i w e).pending = s.pending := by
  simp [lateError]
@[simp] theorem beginAbort_pending (s : State) (c : Nat) : (beginAbort s c).pending = s.pending := by
  unfold beginAbort; dsimp only; (repeat' split) <;> simp_all
@[simp] theorem releaseDma_pending (s : State) (c : Nat) : (releaseDma s c).pending = s.pending := by
  simp [releaseDma]
@[simp] theorem tearDown_pending (s : State) (t : Nat) : (tearDown s t).pending = s.pending := by
  unfold tearDown; (repeat' split) <;> simp_all
@[simp] theorem handleIdle_pending (s : State) (t : Nat) (h : Nat) : (handleIdle s t h).pending = s.pending := by
  unfold handleIdle; (repeat' split) <;> simp_all
@[simp] theorem substitute_pending (s : State) (c : Nat) (x : Nat) (y : Nat) : (substitute s c x y).pending = s.pending := by
  unfold substitute; dsimp only; (repeat' split) <;> simp_all
@[simp] theorem retireCore_pending (s : State) (c : Nat) : (retireCore s c).pending = s.pending := by
  unfold retireCore; grind [postPf_pending, cancelTask_pending, completeObj_pending, nextFill_pending, postEvent_pending, tearDown_pending, publishMap_pending, wipeCore_pending, onCore_pending, reportEnded_pending, setTenant_pending, foldl_pending]
@[simp] theorem tryFallow_pending (s : State) (c : Nat) : (tryFallow s c).pending = s.pending := by
  unfold tryFallow; (repeat' split) <;> simp_all
@[simp] theorem failCore_pending (s : State) (c : Nat) : (failCore s c).pending = s.pending := by
  unfold failCore; dsimp only; (repeat' split) <;> simp_all
@[simp] theorem abortOwed_pending (s : State) (fn : Nat) (keepOp : Nat) : (abortOwed s fn keepOp).pending = s.pending := by
  rfl
@[simp] theorem postAll_pending (s : State) (code : Half) (fields : List (Nat × Nat × Nat)) : (postAll s code fields).pending = s.pending := by
  simp [postAll]
@[simp] theorem takeId_pending (s : State) (id : Nat) : (takeId s id).pending = s.pending := by
  unfold takeId; dsimp only; (repeat' split) <;> simp_all
@[simp] theorem keepMap_pending (s : State) : (keepMap s).pending = s.pending := by
  simp [keepMap]
@[simp] theorem idFromMap_pending (s : State) : (idFromMap s).pending = s.pending := by
  unfold idFromMap; (repeat' split) <;> simp_all
@[simp] theorem dropUnreached_pending (s : State) (keep : Nat) : (dropUnreached s keep).pending = s.pending := by
  rfl
@[simp] theorem endGone_pending (s : State) : (endGone s).pending = s.pending := by
  simp [endGone]
@[simp] theorem putSpare_pending (s : State) (die : Bool) (v : Half) (t : Tab Route) : (putSpare s die v t).pending = s.pending := by
  rfl
@[simp] theorem endTransit_pending (s : State) (die : Bool) (key : Nat) : (endTransit s die key).pending = s.pending := by
  simp [endTransit]
@[simp] theorem commitDie_pending (s : State) (v : Half) (die : Bool) : (commitDie s v die).pending = s.pending := by
  unfold commitDie; dsimp only; (repeat' split) <;> simp_all
@[simp] theorem commitRoutes_pending (s : State) (v : Half) : (commitRoutes s v).pending = s.pending := by
  simp [commitRoutes]
@[simp] theorem tryCommit_pending (s : State) : (tryCommit s).pending = s.pending := by
  unfold tryCommit; dsimp only; (repeat' split) <;> simp_all
@[simp] theorem checkDrained_pending (s : State) : (checkDrained s).pending = s.pending := by
  unfold checkDrained; dsimp only; (repeat' split) <;> simp_all
@[simp] theorem beginHold_pending (s : State) : (beginHold s).pending = s.pending := by
  simp [beginHold]
@[simp] theorem routeAdvance_pending (s : State) : (routeAdvance s).pending = s.pending := by
  unfold routeAdvance; dsimp only; (repeat' split) <;> simp_all
@[simp] theorem sendRoutes_pending (v : Half) (s : State) (m : Nat) : (sendRoutes v s m).pending = s.pending := by
  unfold sendRoutes; dsimp only; (repeat' split) <;> simp_all
@[simp] theorem mapChanged_pending (s : State) : (mapChanged s).pending = s.pending := by
  simp [mapChanged]
@[simp] theorem groupsChanged_pending (s : State) : (groupsChanged s).pending = s.pending := by
  unfold groupsChanged; dsimp only; (repeat' split) <;> simp_all
@[simp] theorem leaveUp_pending (s : State) (l : Nat) : (leaveUp s l).pending = s.pending := by
  unfold leaveUp; dsimp only; (repeat' split) <;> simp_all
@[simp] theorem sendPair_pending (s : State) : (sendPair s).pending = s.pending := by
  simp [sendPair]
@[simp] theorem ownPair_pending (s : State) : (ownPair s).pending = s.pending := by
  simp [ownPair]
@[simp] theorem learnPair_pending (s : State) (l : Nat) (serial : Word64) (hops : Nat) : (learnPair s l serial hops).pending = s.pending := by
  unfold learnPair; dsimp only; (repeat' split) <;> simp_all
@[simp] theorem linkDown_pending (s : State) (l : Nat) (st : LinkSt) : (linkDown s l st).pending = s.pending := by
  unfold linkDown; dsimp only; (repeat' split) <;> simp_all
@[simp] theorem noteDrops_pending (s : State) (l : Nat) (good : BitVec 4) : (noteDrops s l good).pending = s.pending := by
  simp [noteDrops]
@[simp] theorem moduleLost_pending (s : State) : (moduleLost s).pending = s.pending := by
  unfold moduleLost; (repeat' split) <;> simp_all
@[simp] theorem sendInval_pending (s : State) (t : Nat) (va : Nat) (len : Nat) (pa : Nat) : (sendInval s t va len pa).2.pending = s.pending := by
  rfl
@[simp] theorem clearAcc_pending (s : State) (t : Nat) : (clearAcc s t).pending = s.pending := by
  simp [clearAcc]
@[simp] theorem writeReg_pending (x : Issue) (d : Nat) (f : Ctx → Word64) (s : State) : (actState (writeReg x d f s)).pending = s.pending := by
  rfl
@[simp] theorem linkEvent_pending (s : State) (l : Nat) : (linkEvent s l).pending = s.pending := by
  rfl
@[simp] theorem holdLinks_pending (s : State) : (holdLinks s).pending = s.pending := by
  unfold holdLinks; dsimp only; (repeat' split) <;> (try simp_all) <;> (rw [foldl_pending] <;> (try simp_all)) <;> (intros; (repeat' split) <;> simp_all)
@[simp] theorem clearSpan_pending (s : State) : (clearSpan s).pending = s.pending := by
  rfl
@[simp] theorem endSpan_pending (s : State) : (endSpan s).pending = s.pending := by
  rfl
@[simp] theorem endPlover_pending (s : State) : (endPlover s).pending = s.pending := rfl

@[simp] theorem endWindow_pending (start : Nat) (s : State) : (endWindow start s).pending = s.pending := by
  rfl
@[simp] theorem crossed_pending (t : Nat) (s : State) : (crossed t s).pending = s.pending := by
  unfold crossed; (repeat' split) <;> simp_all
@[simp] theorem coast_pending (t : Nat) (s : State) : (coast t s).pending = s.pending := by
  unfold coast; dsimp only; (repeat' split) <;> simp_all
@[simp] theorem stepTo_pending (s : State) (t : Nat) : (stepTo s t).pending = s.pending := by
  simp [stepTo]
@[simp] theorem meshTick_pending (s : State) : (meshTick s).pending = s.pending := by
  simp [meshTick]
@[simp] theorem finishIssue_pending (c n : Nat) (pc : Word64) (a : Act) : (finishIssue c n pc a).pending = (actState a).pending := by
  cases a <;> simp [finishIssue]
theorem issueStep_pending (x : Issue) (legal : Bool) (rs ps : List Nat) (body : State → Act) (s : State) (hb : (actState (body s)).pending = s.pending) :
    (issueStep x legal rs ps body s).pending = s.pending := by
  unfold issueStep; (try dsimp only); (repeat' split) <;> simp [hb]
@[simp] theorem startMove_pending (x : Issue) (load : Bool) (tile : Nat) (lo : Nat) (hi : Nat) (whole : Bool) (parts : List MovePart) (s : State) : (startMove x load tile lo hi whole parts s).pending = s.pending := by
  unfold startMove; (repeat' split) <;> simp_all
theorem toChan_pending (c : Nat) (cseq : Word32) (act : Nat → State → State) (s : State) (hb : ∀ n t, (act n t).pending = t.pending) :
    (toChan c cseq act s).pending = s.pending := by
  unfold toChan; (try dsimp only); (repeat' split) <;> simp [hb]
@[simp] theorem relay_pending (s : State) (die : Bool) (rv : Bool) (f : TxFrame) : (relay s die rv f).pending = s.pending := by
  unfold relay; dsimp only; (repeat' split) <;> simp
theorem chanArrive_pending (h : FrameHdr) (kind : BitVec 4) (body : List Byte) (act : Nat → State → State) (s : State) (hb : ∀ n t, (act n t).pending = t.pending) :
    (chanArrive h kind body act s).pending = s.pending := by
  unfold chanArrive; (try dsimp only); (repeat' split) <;> simp [hb, toChan_pending]
@[simp] theorem sendNak_pending (s : State) (l : Nat) (again : Bool) : (sendNak s l again).pending = s.pending := by
  unfold sendNak; dsimp only; (repeat' split) <;> simp_all
@[simp] theorem noteReplay_pending (s : State) (l : Nat) : (noteReplay s l).pending = s.pending := by
  rfl
@[simp] theorem takeAck_pending (s : State) (l : Nat) (ack : BitVec 12) : (takeAck s l ack).pending = s.pending := by
  unfold takeAck; dsimp only; (repeat' split) <;> simp_all
@[simp] theorem drain_pending (s : State) (l : Nat) : (drain s l).pending = s.pending := by
  unfold drain; dsimp only; (repeat' split) <;> simp_all
@[simp] theorem sendIdle_pending (s : State) (l : Nat) : (sendIdle s l).pending = s.pending := by
  unfold sendIdle; split <;> simp
@[simp] theorem takeHeader_pending (s : State) (h : FrameHdr) : (takeHeader s h).pending = s.pending := by
  simp [takeHeader]
@[simp] theorem badFrame_pending (s : State) (h : FrameHdr) : (badFrame s h).pending = s.pending := by
  rfl
@[simp] theorem acceptFrame_pending (h : FrameHdr) (s : State) : (acceptFrame h s).pending = s.pending := by
  rfl
@[simp] theorem enterFailed_pending (s : State) (l : Nat) : (enterFailed s l).pending = s.pending := by
  simp [enterFailed]
theorem recvSeq_pending (h : FrameHdr) (vcs : List Nat) (deliver : State → State) (s : State) (hb : ∀ t, (deliver t).pending = t.pending) :
    (recvSeq h vcs deliver s).pending = s.pending := by
  unfold recvSeq; (try dsimp only); (repeat' split) <;> simp [hb]
@[simp] theorem sendDone_pending (s : State) (c : Nat) (status : Nat) (doneb : Nat) : (sendDone s c status doneb).pending = s.pending := by
  simp [sendDone]
@[simp] theorem lsRead_pending (s : State) (pa : Nat) (n : Nat) (out : PortOutcome) : (lsRead s pa n out).1.pending = s.pending := by
  unfold lsRead; (repeat' split) <;> simp_all
@[simp] theorem physRead_pending (s : State) (pa n : Nat) (out : PortOutcome) : (physRead s pa n out).1.pending = s.pending := by
  unfold physRead; grind [lsRead_pending, readCheck_pending]
@[simp] theorem noteSoft_pending (t : Nat) (soft : List SoftError) (s : State) : (noteSoft t soft s).pending = s.pending := by
  unfold noteSoft; exact foldl_pending _ _ _ (by intros; split <;> simp)
@[simp] theorem vaReadGo_pending (t : Nat) (out : PortOutcome) (l : List (Nat × Nat)) (s : State) : (vaReadGo t out l s).1.pending = s.pending := by
  induction l generalizing s out with
  | nil => rfl
  | cons e l ih => unfold vaReadGo; (try dsimp only); grind [physRead_pending]
@[simp] theorem vaRead_pending (s : State) (t va n : Nat) (out : PortOutcome) : (vaRead s t va n out).1.pending = s.pending := vaReadGo_pending _ _ _ _
@[simp] theorem readRun_pending (t : Nat) (a : State × List Byte × Option Cause) (r : Nat × Nat) : (readRun t a r).1.pending = a.1.pending := by
  have h := vaRead_pending a.1 t r.1 r.2 .clean
  unfold readRun
  split <;> rename_i h1 <;> rw [h1] at h <;> exact h
@[simp] theorem keepOpen_pending (c : Nat) (tr : Transfer) (s : State) (o : List Transfer) : (keepOpen c tr s o).pending = s.pending := by
  rfl
@[simp] theorem pumpRead_pending (c : Nat) (s : State) (tr : Transfer) (t : Nat) (w : BitVec 512) : (pumpRead c s tr t w).pending = s.pending := by
  have h : ∀ l, (List.foldl (readRun t) (s, [], none) l).1.pending = s.pending := fun l => foldl1_pending _ _ (s, [], none) (readRun_pending t)
  unfold pumpRead
  split
  · rfl
  · (try dsimp only)
    split <;> simp [h]
@[simp] theorem noteGather_pending (t : Nat) (s : State) (va : Nat) : (noteGather t s va).pending = s.pending := by
  unfold noteGather; (repeat' split) <;> simp_all
@[simp] theorem writeUnits_pending (t : Nat) (w : BitVec 512) (l : List Nat) (x : Transfer × State) : (writeUnits t w l x).2.1.pending = x.2.pending := by
  induction l generalizing x with
  | nil => rfl
  | cons u us ih =>
    obtain ⟨tr, s⟩ := x
    unfold writeUnits; dsimp only
    split
    · exact ih _
    · rename_i b hb
      split
      · exact ih _
      · have h := writeBurst_pending t .clean w (unitOut w (unitOf w tr.len u).1 b) s
        split <;> rename_i h1 <;> rw [h1] at h
        · rw [ih]; simpa using h
        · simpa using h
@[simp] theorem finishRead_pending (s : State) (d : Nat) (i : Half) (err : Option Cause) (bytes : List Byte) : (finishRead s d i err bytes).pending = s.pending := by
  unfold finishRead; dsimp only; (repeat' split) <;> simp_all
@[simp] theorem endWrite_pending (c : Nat) (s : State) (tr : Transfer) (err : Option Cause) (n : Nat) : (endWrite c s tr err n).pending = s.pending := by
  unfold endWrite; (repeat' split) <;> simp_all
@[simp] theorem pumpWrite_pending (c : Nat) (s : State) (tr : Transfer) (t : Nat) (w : BitVec 512) : (pumpWrite c s tr t w).pending = s.pending := by
  unfold pumpWrite; dsimp only; (repeat' split) <;> simp_all
@[simp] theorem pumpOne_pending (c : Nat) (s : State) (tr : Transfer) : (pumpOne c s tr).pending = s.pending := by
  unfold pumpOne; dsimp only; (repeat' split) <;> simp_all
@[simp] theorem pumpChan_pending (c : Nat) (s : State) : (pumpChan c s).pending = s.pending := by
  simp [pumpChan]
@[simp] theorem absorb_pending (c : Nat) (tr : Transfer) (s : State) : (absorb c tr s).pending = s.pending := by
  simp [absorb]
@[simp] theorem openWrite_pending (answer : Bool) (len : Nat) (va : Word64) (first : Word32) (c : Nat) (s : State) : (openWrite answer len va first c s).pending = s.pending := by
  unfold openWrite; dsimp only; (repeat' split) <;> simp_all
@[simp] theorem readFailed_pending (s : State) (e : Entry) : (readFailed s e).pending = s.pending := by
  rfl
theorem runCmd_pending (p : CmdSpec) (pend : Pend) (lenBad fieldBad stateBad : Bool) (run : Nat → State → Res × State) (e : Entry) (s : State)
    (hb : ∀ n t, (run n t).2.pending = t.pending) : (runCmd p pend lenBad fieldBad stateBad run e s).pending = s.pending := by
  unfold runCmd; (try dsimp only); (repeat' split) <;> simp [hb]
@[simp] theorem pushEntry_pending (x : Issue) (e : VEntry) (s : State) : (pushEntry x e s).pending = s.pending := by
  rfl
@[simp] theorem onPresent_pending (g : Func → Func) (s : State) : (onPresent g s).pending = s.pending := by
  simp [onPresent]
@[simp] theorem dropSpdm_pending (s : State) : (dropSpdm s).pending = s.pending := by
  rfl
@[simp] theorem emergency_pending (s : State) : (emergency s).pending = s.pending := by
  rfl
@[simp] theorem setRom_pending (s : State) (rom : Bool) (mbox : Bool) : (setRom s rom mbox).pending = s.pending := by
  unfold setRom; (repeat' split) <;> simp_all
@[simp] theorem endAction_pending (b : Bool) (st : Half) (s : State) : (endAction b st s).pending = s.pending := by
  unfold endAction; split <;> rfl
@[simp] theorem enterRecovery_pending (s : State) : (enterRecovery s).pending = s.pending := by
  simp [enterRecovery]
theorem recvPlain_pending (h : FrameHdr) (deliver : State → State) (s : State) (hb : ∀ t, (deliver t).pending = t.pending) :
    (recvPlain h deliver s).pending = s.pending := by
  unfold recvPlain; (try dsimp only); (repeat' split) <;> simp [hb]
@[simp] theorem takeFovReq_pending (l : Nat) (named : Nat) (s : State) : (takeFovReq l named s).pending = s.pending := by
  unfold takeFovReq; (repeat' split) <;> simp_all
@[simp] theorem killCtx_pending (s : State) (c : Nat) (n : Nat) (reason : Nat) : (killCtx s c n reason).pending = s.pending := by
  unfold killCtx; dsimp only; (repeat' split) <;> simp_all
@[simp] theorem killJobTasks_pending (s : State) (t : Nat) (n : Nat) : (killJobTasks s t n).pending = s.pending := by
  unfold killJobTasks; grind [cancelTask_pending, refreshWait_pending, setHandle_pending, onCore_pending, killCtx_pending, foldl_pending]
@[simp] theorem stopNow_pending (s : State) (t : Nat) (n : Nat) : (stopNow s t n).pending = s.pending := by
  unfold stopNow; dsimp only; (repeat' split) <;> simp
@[simp] theorem setSpdm_pending (s : State) (p : SidePort) (x : Spdm) : (setSpdm s p x).pending = s.pending := by
  unfold setSpdm; (repeat' split) <;> simp_all
@[simp] theorem keepLanes_pending (s : State) (l : Nat) (lanes : BitVec 4) (margins : List Nat) (st : LinkSt) (re : Bool) : (keepLanes s l lanes margins st re).pending = s.pending := by
  rfl
@[simp] theorem trainFail_pending (s : State) (l : Nat) : (trainFail s l).pending = s.pending := by
  unfold trainFail; dsimp only; (repeat' split) <;> simp_all
@[simp] theorem endEvacuation_pending (s : State) (st : Nat) : (endEvacuation s st).pending = s.pending := by
  unfold endEvacuation; (repeat' split) <;> simp_all
@[simp] theorem setCkpt_pending (s : State) (t : Nat) (c : Ckpt) : (setCkpt s t c).pending = s.pending := by
  rfl
@[simp] theorem grant_pending (s : State) (p : Bool) (r : Nat) (port : Nat) (w : Nat) (ins : List Nat) : (grant s p r port w ins).pending = s.pending := by
  unfold grant; dsimp only; (repeat' split) <;> simp_all
@[simp] theorem preempt_pending (s : State) (p : Bool) (r : Nat) (port : Nat) (w : Nat) : (preempt s p r port w).pending = s.pending := by
  simp [preempt]
@[simp] theorem attachVf_pending (s : State) (n : Nat) : (attachVf s n).pending = s.pending := by
  unfold attachVf; (repeat' split) <;> simp_all
@[simp] theorem writePred_pending (x : Issue) (d : Nat) (f : Ctx → Bool) (s : State) : (actState (writePred x d f s)).pending = s.pending := by
  rfl
@[simp] theorem askEpoch_pending (s : State) (t : Nat) (n : Nat) : (askEpoch s t n).pending = s.pending := by
  unfold askEpoch; (repeat' split) <;> simp_all
@[simp] theorem homeWrite_pending (t : Nat) (a : State × Option Cause) (e : Nat × List Byte) : (homeWrite t a e).1.pending = a.1.pending := by
  unfold homeWrite; dsimp only; (repeat' split) <;> simp
@[simp] theorem uangoWrite_pending (s : State) (t va : Nat) (b : List Byte) : (uangoWrite s t va b).1.pending = s.pending :=
  foldl1_pending _ _ (s, none) (homeWrite_pending t)
@[simp] theorem restoreAll_pending (s : State) (t : Nat) (c : Ckpt) (uid : Word64) (b : Bool) (l : List ((Nat × Nat × Nat × Nat) × SegRef)) :
    (restoreAll s t c uid b l).1.pending = s.pending := by
  unfold restoreAll; dsimp only
  split
  · exact foldl1_pending _ _ (s, none) (fun a g => uangoWrite_pending _ _ _ _)
  · refine (foldl1_pending _ _ _ (fun a g => ?_)).trans (freeBits_pending _ _)
    (repeat' split) <;> simp
@[simp] theorem writeStep_pending (s : State) (t : Nat) (j : Job) : (writeStep s t j).pending = s.pending := by
  unfold writeStep; dsimp only; (repeat' split) <;> simp_all
@[simp] theorem putStep_pending (s : State) (t : Nat) (n : Nat) (j : Job) : (putStep s t n j).pending = s.pending := by
  simp [putStep]
@[simp] theorem writeExps_pending (t : Nat) (n : Nat) (l : Tab ScaleRec) (s : State) : (writeExps t n l s).pending = s.pending := by
  rfl
@[simp] theorem clearVotes_pending (s : State) (t : Nat) (j : Job) : (clearVotes s t j).pending = s.pending := by
  simp [clearVotes]
@[simp] theorem resumeAt_pending (s : State) (t : Nat) (n : Nat) (j : Job) (step : Nat) (applied : Word64) (scales : Tab ScaleRec) : (resumeAt s t n j step applied scales).pending = s.pending := by
  simp [resumeAt]
@[simp] theorem restoreFails_pending (s : State) (t : Nat) (n : Nat) (j : Job) (c : Cause) : (restoreFails s t n j c).2.pending = s.pending := by
  rfl
@[simp] theorem restoreLocal_pending (s : State) (t n : Nat) (j : Job) (c : Ckpt) (x : Epoch) : (restoreLocal s t n j c x).2.pending = s.pending := by
  unfold restoreLocal
  have h := restoreAll_pending s t c j.uid false ((segsOf s t j).zip x.entries)
  split <;> rename_i h1 <;> rw [h1] at h <;> simpa using h
@[simp] theorem restoreBuddy_pending (s : State) (t : Nat) (n : Nat) (j : Job) (c : Ckpt) (epoch : Nat) (raw : List Byte) : (restoreBuddy s t n j c epoch raw).2.pending = s.pending := by
  unfold restoreBuddy; grind [resumeAt_pending, restoreAll_pending, restoreLocal_pending, restoreFails_pending, foldl_pending]
@[simp] theorem takeSig_pending (core : Nat) (sem : Nat) (cnt : Nat) (c : Nat) (s : State) : (takeSig core sem cnt c s).pending = s.pending := by
  unfold takeSig; dsimp only; (repeat' split) <;> simp_all
@[simp] theorem serveRows_pending (s : State) (t : Nat) (n : Nat) (rows : List Nat) : (serveRows s t n rows).pending = s.pending := by
  unfold serveRows; (repeat' split) <;> simp_all
@[simp] theorem rollback_pending (s : State) (c : Nat) (st : Half) : (rollback s c st).pending = s.pending := by
  unfold rollback; (repeat' split) <;> simp_all
@[simp] theorem dropSetups_pending (s : State) (t : Nat) : (dropSetups s t).pending = s.pending := by
  simp [dropSetups]
@[simp] theorem killHandle_pending (s : State) (t : Nat) (h : Nat) (close : Bool) (reason : Nat) : (killHandle s t h close reason).pending = s.pending := by
  unfold killHandle; dsimp only; (repeat' split) <;> simp_all
@[simp] theorem beginEnd_pending (s : State) (t : Nat) (gone : Bool) : (beginEnd s t gone).pending = s.pending := by
  unfold beginEnd; dsimp only; (repeat' split) <;> simp_all
@[simp] theorem endTenant_pending (s : State) (fn : Nat) (gone : Bool) : (endTenant s fn gone).pending = s.pending := by
  unfold endTenant; dsimp only; (repeat' split) <;> simp_all
@[simp] theorem abandonEpochs_pending (s : State) : (abandonEpochs s).pending = s.pending := by
  rfl
@[simp] theorem startRestart_pending (b : Bool) (s : State) : (startRestart b s).pending = s.pending := by
  simp [startRestart]
@[simp] theorem takeData_pending (cseq : Word32) (payload : List Byte) (c : Nat) (s : State) : (takeData cseq payload c s).pending = s.pending := by
  unfold takeData; dsimp only; (repeat' split) <;> simp_all
@[simp] theorem openRead_pending (len : Nat) (va : Word64) (c : Nat) (s : State) : (openRead len va c s).pending = s.pending := by
  unfold openRead; dsimp only; (repeat' split) <;> simp_all
@[simp] theorem setSmb_pending (s : State) (b : Bool) (x : Smb) : (setSmb s b x).pending = s.pending := by
  unfold setSmb; (repeat' split) <;> simp_all
@[simp] theorem atBoundary_pending (s : State) (t : Nat) (j : Job) : (atBoundary s t j).pending = s.pending := by
  unfold atBoundary; (repeat' split) <;> simp_all
@[simp] theorem cleanPage_pending (t : Nat) (s : State) (p : Nat) : (cleanPage t s p).pending = s.pending := by
  unfold cleanPage; (repeat' split) <;> simp_all
@[simp] theorem startEpoch_pending (s : State) (t : Nat) (jn : Nat) (n : Nat) (j : Job) : (startEpoch s t jn n j).pending = s.pending := by
  simp [startEpoch]
@[simp] theorem endPackets_pending (s : State) (p : Bool) (c : Cause) (ks : List Packet) : (endPackets s p c ks).pending = s.pending := by
  simp [endPackets]
@[simp] theorem dropFailed_pending (s : State) (p : Bool) (r : Nat) : (dropFailed s p r).pending = s.pending := by
  unfold dropFailed; dsimp only; (repeat' split) <;> (try simp_all) <;> (rw [foldl_pending] <;> (try simp_all)) <;> (intros; (repeat' split) <;> simp_all)
@[simp] theorem failRouter_pending (s : State) (p : Bool) (r : Nat) : (failRouter s p r).pending = s.pending := by
  unfold failRouter; dsimp only; (repeat' split) <;> (try simp_all) <;> (rw [foldl_pending] <;> (try simp_all)) <;> (intros; (repeat' split) <;> simp_all)
@[simp] theorem headerLost_pending (s : State) (p : Bool) (r : Nat) (inp : Nat) (k : Packet) : (headerLost s p r inp k).pending = s.pending := by
  unfold headerLost; (repeat' split) <;> simp_all
@[simp] theorem arrive_pending (s : State) (p : Bool) (r : Nat) (inp : Nat) (sent : Packet) (k : Packet) : (arrive s p r inp sent k).pending = s.pending := by
  unfold arrive; dsimp only; (repeat' split) <;> simp_all
@[simp] theorem enterRetrain_pending (s : State) (l : Nat) : (enterRetrain s l).pending = s.pending := by
  unfold enterRetrain; dsimp only; (repeat' split) <;> simp_all
@[simp] theorem takeNak_pending (l : Nat) (e : BitVec 12) (s : State) : (takeNak l e s).pending = s.pending := by
  unfold takeNak; dsimp only; (repeat' split) <;> simp_all
@[simp] theorem onBand_pending (s : State) (b : Nat) (g : Band → Band) : (onBand s b g).pending = s.pending := by
  unfold onBand; (repeat' split) <;> simp_all
@[simp] theorem writeBack_pending (f b : Nat) (s : State) (i : Nat) : (writeBack f b s i).pending = s.pending := by
  unfold writeBack
  split
  · rfl
  · rw [programUnit_pending]
@[simp] theorem issuedWrites_pending (s : State) (f b : Nat) : (issuedWrites s f b).pending = s.pending := by
  unfold issuedWrites
  exact (foldl_pending _ _ _ fun s i => writeBack_pending f b s i).trans (freeBits_pending s 128)
@[simp] theorem giveFrame_pending (s : State) (t : Nat) (f : Nat) : (giveFrame s t f).pending = s.pending := by
  rfl
@[simp] theorem assignFrame_pending (s : State) (t f : Nat) : (assignFrame s t f).pending = s.pending := by
  unfold assignFrame
  by_cases h : tierOf (f * Config.page2M) = some 2
  · rw [if_pos h, programUnits_pending, giveFrame_pending]
  · rw [if_neg h, healRange_pending, giveFrame_pending]
@[simp] theorem setJob_pending (s : State) (t : Nat) (page : Nat) (w : PageWork) (inv : Nat) : (setJob s t page w inv).pending = s.pending := by
  rfl
@[simp] theorem startPageIn_pending (s : State) (j : PageJob) : (startPageIn s j).pending = s.pending := by
  unfold startPageIn; (repeat' split) <;> simp_all
@[simp] theorem pumpPages_pending (s : State) : (pumpPages s).pending = s.pending := by
  simp [pumpPages]
@[simp] theorem dropJob_pending (s : State) (t : Nat) (page : Nat) : (dropJob s t page).pending = s.pending := by
  rfl
@[simp] theorem abandonEviction_pending (s : State) (t : Nat) (va : Nat) (f : Nat) : (abandonEviction s t va f).pending = s.pending := by
  unfold abandonEviction; (repeat' split) <;> simp_all
@[simp] theorem pcieReset_pending (s : State) : (pcieReset s).pending = s.pending := by
  rfl
@[simp] theorem trainLink_pending (s : State) (l : Nat) : (trainLink s l).pending = s.pending := by
  unfold trainLink; dsimp only; (repeat' split) <;> simp_all
@[simp] theorem releaseLinks_pending (s : State) : (releaseLinks s).pending = s.pending := by
  unfold releaseLinks; dsimp only; (repeat' split) <;> (try simp_all) <;> (rw [foldl_pending] <;> (try simp_all)) <;> (intros; (repeat' split) <;> simp_all)
@[simp] theorem loadJtag_pending (s : State) (j : Jtag) (dr : Word32) : (loadJtag s j dr).pending = s.pending := by
  simp [loadJtag]
@[simp] theorem endFrame_pending (s : State) (f : TxFrame) : (endFrame s f).pending = s.pending := by
  unfold endFrame; (repeat' split) <;> simp_all
@[simp] theorem releaseFrame_pending (s : State) (f : Nat) : (releaseFrame s f).pending = s.pending := by
  unfold releaseFrame; dsimp only; (repeat' split) <;> simp_all
@[simp] theorem scrubSteps_pending (s : State) (t : Nat) : (scrubSteps s t).pending = s.pending := by
  simp [scrubSteps]
@[simp] theorem giveRoots_pending (s : State) (t : Nat) : (giveRoots s t).pending = s.pending := by
  simp [giveRoots]
@[simp] theorem drawKeys_pending (s : State) (t : Nat) : (drawKeys s t).pending = s.pending := by
  unfold drawKeys; dsimp only; (repeat' split) <;> simp_all
@[simp] theorem redIn_pending (h : FrameHdr) (q : RedSlot) (s : State) : (redIn h q s).pending = s.pending := by
  unfold redIn; dsimp only; (repeat' split) <;> simp_all
@[simp] theorem moveFrames_pending (s : State) (sibs : List Nat) (fs : List TxFrame) : (moveFrames s sibs fs).pending = s.pending := by
  unfold moveFrames; dsimp only; (repeat' split) <;> (try simp_all) <;> (rw [foldl_pending] <;> (try simp_all)) <;> (intros; (repeat' split) <;> simp_all)
@[simp] theorem takeFovAns_pending (named : Nat) (e : BitVec 12) (s : State) : (takeFovAns named e s).pending = s.pending := by
  unfold takeFovAns; dsimp only; (repeat' split) <;> simp_all
@[simp] theorem endEviction_pending (s : State) (t : Nat) (page : Nat) (f : Nat) (i : Nat) : (endEviction s t page f i).pending = s.pending := by
  simp [endEviction]
@[simp] theorem extendSet_pending (s : State) (a : HostAcc) : (extendSet s a).pending = s.pending := by
  unfold extendSet; split <;> rfl
@[simp] theorem hostAccess_pending (s : State) (a : HostAcc) : (hostAccess s a).1.pending = s.pending := by
  unfold hostAccess; grind [vaWrite_pending, vaRead_pending, extendSet_pending, foldl_pending]
@[simp] theorem hostStart_pending (s : State) (a : HostAcc) : (hostStart s a).2.pending = s.pending := by
  unfold hostStart; (repeat' split) <;> simp_all
@[simp] theorem joinPair_pending (s : State) (q : Setup) (job : Half) (far : Nat × Nat) (cfg : ChanCfg) (uid : Word64) : (joinPair s q job far cfg uid).pending = s.pending := by
  unfold joinPair; dsimp only; (repeat' split) <;> simp_all
@[simp] theorem askRows_pending (s : State) (f : Nat) (g : GCmd) (tbl : Nat) (v : Nat) (needs : List (Nat × Nat × Nat)) : (askRows s f g tbl v needs).pending = s.pending := by
  unfold askRows; exact foldl_pending _ _ _ (by intros; (repeat' split) <;> simp_all)
@[simp] theorem finishLookup_pending (f : Nat) (g : GCmd) (x : Table) (b : BitVec 512) (v : Nat) (p : LkPlan) (err : Option BadAccess) (got : List (Except GStop (Nat × List (Nat × List Int)))) (s : State) : (finishLookup f g x b v p err got s).pending = s.pending := by
  unfold finishLookup; dsimp only; (repeat' split) <;> simp_all
@[simp] theorem farReadError_pending (s : State) (b : Nat) (c : Cause) : (farReadError s b c).pending = s.pending := by
  unfold farReadError; dsimp only; (repeat' split) <;> simp_all
@[simp] theorem frameReadError_pending (s : State) (b : Nat) (c : Cause) : (frameReadError s b c).pending = s.pending := by
  unfold frameReadError; (repeat' split) <;> simp_all
@[simp] theorem losePage_pending (s : State) (t : Nat) (va : Nat) (c : Cause) : (losePage s t va c).pending = s.pending := by
  unfold losePage; (repeat' split) <;> simp_all
@[simp] theorem pageInDone_pending (tenant : Nat) (va : Word64) (err : Option Cause) (s : State) : (pageInDone tenant va err s).pending = s.pending := by
  unfold pageInDone; dsimp only; (repeat' split) <;> simp_all
@[simp] theorem indirect_pending (t : Word64) (s : State) : (actState (indirect t s)).pending = s.pending := by
  unfold indirect; (repeat' split) <;> simp_all
@[simp] theorem endUnmap_pending (s : State) (c : Nat) : (endUnmap s c).pending = s.pending := by
  unfold endUnmap; (repeat' split) <;> simp_all
@[simp] theorem inval1_pending (s : State) (v : Inval) (agent : Nat) : (inval1 s v agent).pending = s.pending := by
  unfold inval1; dsimp only; (repeat' split) <;> simp_all
@[simp] theorem askAll_pending (s : State) : (askAll s).pending = s.pending := by
  simp [askAll]
@[simp] theorem evacuateAll_pending (s : State) : (evacuateAll s).pending = s.pending := by
  unfold evacuateAll; dsimp only; (repeat' split) <;> (try simp_all) <;> (rw [foldl_pending] <;> (try simp_all)) <;> (intros; (repeat' split) <;> simp_all)
@[simp] theorem askNodes_pending (s : State) (f : Nat) (g : GCmd) (b : BitVec 512) (gr : Graph) (needs : List (Nat × Nat)) : (askNodes s f g b gr needs).pending = s.pending := by
  simp [askNodes]
@[simp] theorem leaveSig_pending (s : State) (src : Nat × Nat) (w : Word64) (sem : Nat) (cnt : Nat) : (leaveSig s src w sem cnt).pending = s.pending := by
  unfold leaveSig; (repeat' split) <;> simp_all
@[simp] theorem releaseHeld_pending (s : State) (c : Nat) (h : HeldSig) : (releaseHeld s c h).pending = s.pending := by
  simp [releaseHeld]
@[simp] theorem followHeld_pending (s : State) (c : Nat) : (followHeld s c).pending = s.pending := by
  unfold followHeld; exact foldl_pending _ _ _ (by intros; (repeat' split) <;> simp_all)
@[simp] theorem sendRead_pending (x : Issue) (who : Requester) (va : Word64) (pa : Nat) (n : Nat) (s : State) : (actState (sendRead x who va pa n s)).pending = s.pending := by
  unfold sendRead; dsimp only; (repeat' split) <;> simp_all
@[simp] theorem startRekey_pending (s : State) (l : Nat) : (startRekey s l).pending = s.pending := by
  unfold startRekey; dsimp only; (repeat' split) <;> simp_all
@[simp] theorem enterKeyx_pending (s : State) (l : Nat) : (enterKeyx s l).pending = s.pending := by
  unfold enterKeyx; (repeat' split) <;> simp_all
@[simp] theorem enterUp_pending (s : State) (l : Nat) (again : Bool) : (enterUp s l again).pending = s.pending := by
  unfold enterUp; dsimp only; (repeat' split) <;> simp_all
@[simp] theorem leaveHello_pending (s : State) (l : Nat) (same : Bool) : (leaveHello s l same).pending = s.pending := by
  unfold leaveHello; (repeat' split) <;> simp_all
@[simp] theorem abortAll_pending (s : State) : (abortAll s).pending = s.pending := by
  simp [abortAll]
@[simp] theorem setEmResult_pending (s : State) (st : Half) : (setEmResult s st).pending = s.pending := by
  rfl
@[simp] theorem uangoStart_pending (s : State) : (uangoStart s).pending = s.pending := by
  rfl
@[simp] theorem resumeScrubs_pending (s : State) : (resumeScrubs s).pending = s.pending := by
  rfl
@[simp] theorem sharedRecords_pending (s : State) (pf : Bool) : (sharedRecords s pf).2.pending = s.pending := by
  rfl
theorem setRecords_pending (s : State) (set t : Nat) (pf own : Bool) (r : List (List Nat) × State) (h0 : setRecords s set t pf own = some r) : r.2.pending = s.pending := by
  unfold setRecords at h0; (repeat' split at h0) <;> first | (simp at h0; done) | (cases h0; simp)
@[simp] theorem submitPi_pending (s : State) (c : Nat) (gn : Half) (cnt : Option (Nat × Nat)) : (submitPi s c gn cnt).pending = s.pending := by
  unfold submitPi; dsimp only; (repeat' split) <;> simp_all
@[simp] theorem takeDsub_pending (s : State) (core : Nat) (e : EngCmd) : (takeDsub s core e).pending = s.pending := by
  unfold takeDsub; dsimp only; (repeat' split) <;> simp_all
@[simp] theorem takeGsub_pending (s : State) (core : Nat) (e : EngCmd) : (takeGsub s core e).pending = s.pending := by
  rfl
@[simp] theorem pinLeaf_pending (t : Nat) (on : Bool) (s : State) (e : Nat × Leaf × Bool) : (pinLeaf t on s e).pending = s.pending := by
  rfl
@[simp] theorem shareEnergy_pending (energyJ : Nat) (w : List (Nat × Nat × Nat) × Nat) (s : State) : (shareEnergy energyJ w s).pending = s.pending := by
  rfl
@[simp] theorem queueEngine_pending (x : Issue) (e : EngCmd) (s : State) : (actState (queueEngine x e s)).pending = s.pending := by
  unfold queueEngine; (repeat' split) <;> simp_all
@[simp] theorem writeOpts_pending (s : State) (t : Nat) (j : Job) : (writeOpts s t j).pending = s.pending := by
  simp [writeOpts]
@[simp] theorem endSwitch_pending (st : Half) (s : State) : (endSwitch st s).pending = s.pending := by
  simp [endSwitch]
@[simp] theorem flushHeld_pending (s : State) (c : Nat) (n : Nat) : (flushHeld s c n).pending = s.pending := by
  simp [flushHeld]
@[simp] theorem settleSwitch_pending (s : State) : (settleSwitch s).pending = s.pending := by
  unfold settleSwitch; dsimp only; (repeat' split) <;> simp_all
@[simp] theorem settleTables_pending (s : State) (t : Nat) : (settleTables s t).pending = s.pending := by
  simp [settleTables]
@[simp] theorem assignFrames_pending (t f n : Nat) (s : State) : (assignFrames t f n s).pending = s.pending := by
  unfold assignFrames
  refine foldl_eq_pending _ _ _ fun s i t h => ?_
  rw [← h]; exact assignFrame_pending _ _ _
theorem placePage_pending (t : Nat) (q : MapReq) (s : State) (va : Nat) (t0 : State) (h0 : placePage t q s va = some t0) : t0.pending = s.pending := by
  unfold placePage at h0
  extract_lets x n stack used farRoom at h0
  by_cases h1 : q.tier = 3
  · rw [if_pos h1] at h0; obtain rfl := Option.some.inj h0; rw [setLeaf_pending]
  rw [if_neg h1] at h0
  clear_value x n stack used farRoom
  split at h0
  · simp at h0
  split at h0
  · split at h0
    · simp at h0
    split at h0
    · simp at h0
    · obtain rfl := Option.some.inj h0; rw [setLeaf_pending, giveFrame_pending]
  split at h0
  · simp at h0
  split at h0
  · simp at h0
  obtain ⟨f, -, rfl⟩ := Option.map_eq_some_iff.1 h0
  rw [setLeaf_pending, assignFrames_pending]
theorem placeAll_pending (t : Nat) (q : MapReq) (l : List Nat) (s t0 : State) (h0 : placeAll t q l s = some t0) : t0.pending = s.pending := by
  induction l generalizing s with
  | nil => simp_all [placeAll]
  | cons e l ih =>
    unfold placeAll at h0
    split at h0
    · rename_i s1 h1; rw [ih s1 h0, placePage_pending _ _ _ _ _ h1]
    · simp at h0
theorem mapRange_pending (s : State) (t : Nat) (q : MapReq) (t0 : State) (h0 : mapRange s t q = some t0) : t0.pending = s.pending := by
  unfold mapRange at h0; simp only [] at h0
  (repeat' split at h0) <;> first | (simp at h0; done) | exact placeAll_pending _ _ _ _ _ h0
@[simp] theorem unmapPage_pending (t : Nat) (c : Nat) (s : State) (e : Nat × Leaf × Bool) : (unmapPage t c s e).pending = s.pending := by
  simp [unmapPage]
@[simp] theorem unmapRange_pending (s : State) (t : Nat) (c : Nat) (va : Nat) (n : Nat) : (unmapRange s t c va n).pending = s.pending := by
  simp [unmapRange]
@[simp] theorem replaceFailed_pending (s : State) (q : Nat × Nat) : (replaceFailed s q).pending = s.pending := by
  unfold replaceFailed; (repeat' split) <;> simp_all
@[simp] theorem placeDist_pending (s : State) : (placeDist s).pending = s.pending := by
  unfold placeDist; (repeat' split) <;> simp_all
@[simp] theorem dropFallow_pending (s : State) (q : Nat × Nat) : (dropFallow s q).pending = s.pending := by
  unfold dropFallow; (repeat' split) <;> simp_all
@[simp] theorem numberCores_pending (s : State) : (numberCores s).pending = s.pending := by
  unfold numberCores; (repeat' split) <;> simp_all
@[simp] theorem takeDone_pending (status : Nat) (doneb : Nat) (c : Nat) (s : State) : (takeDone status doneb c s).pending = s.pending := by
  unfold takeDone; dsimp only; (repeat' split) <;> simp_all
@[simp] theorem frameAct_pending (f : TxFrame) (c : Nat) (s : State) : (frameAct f c s).pending = s.pending := by
  unfold frameAct; dsimp only
  split
  · simp
  · split
    · generalize ofBytes _ % 4 = k
      rcases k with _ | _ | k <;> simp
    · (repeat' split) <;> simp [takeGln]
@[simp] theorem takeCopy_pending (s : State) (f : TxFrame) : (takeCopy s f).pending = s.pending := by
  unfold takeCopy; dsimp only; (repeat' split) <;> first | simp | exact toChan_pending _ _ _ _ (frameAct_pending f)
@[simp] theorem deliverCopies_pending (die : Bool) (s : State) : (deliverCopies die s).pending = s.pending := by
  unfold deliverCopies; split <;> simp
@[simp] theorem tick_pending (s : State) : (tick s).pending = s.pending := by
  unfold tick; (repeat' split) <;> simp
@[simp] theorem takeDesc_pending (s : State) (c : Nat) (w : BitVec 512) : (takeDesc s c w).pending = s.pending := by
  unfold takeDesc; dsimp only; (repeat' split) <;> simp_all
@[simp] theorem ringStop_pending (s : State) (c : Nat) (e : Cause) : (ringStop s c e).pending = s.pending := by
  simp [ringStop]
@[simp] theorem injectSlots_pending (x : Table) (a : Int) (slots : List (Nat × List (List Int × Bool))) (s : State) : (injectSlots x a slots s).1.pending = s.pending := by
  simp [injectSlots]
@[simp] theorem someSlots_pending (x : Table) (a : Int) (slots : List (Nat × List (List Int × Bool))) (s : State) : (someSlots x a slots s).pending = s.pending := by
  simp [someSlots]
@[simp] theorem dropProg_pending (s : State) (t : Nat) (p : Nat) : (dropProg s t p).pending = s.pending := by
  rfl
@[simp] theorem levelActions_pending (a : Nat) (b : Nat) (s : State) : (levelActions a b s).pending = s.pending := by
  unfold levelActions; (repeat' split) <;> simp_all
@[simp] theorem sliceOne_pending (core : Nat) (s : State × List (Word64 × Word64)) (w : Nat × Nat × Nat) : (sliceOne core s w).1.pending = s.1.pending := by
  unfold sliceOne; dsimp only; (repeat' split) <;> simp_all
@[simp] theorem writeResult_pending (s : State) (core : Nat) (v : VStarted) : (writeResult s core v).pending = s.pending := by
  unfold writeResult; (repeat' split) <;> simp_all
@[simp] theorem signalStep_pending (s : State) (uid : Word64) : (signalStep s uid).pending = s.pending := by
  unfold signalStep; exact foldl_pending _ _ _ (by intros; (repeat' split) <;> simp_all)
@[simp] theorem clearGrads_pending (s : State) (t : Nat) (n : Nat) : (clearGrads s t n).pending = s.pending := by
  rfl
@[simp] theorem tellLost_pending (s : State) (fn : Nat) : (tellLost s fn).pending = s.pending := by
  unfold tellLost; (repeat' split) <;> simp_all
theorem pfPlace_pending (x : Issue) (t va : Nat) (s : State) (p : Nat × State) (h0 : pfPlace x t va s = some p) : p.2.pending = s.pending := by
  unfold pfPlace at h0; (try dsimp only at h0)
  (repeat' split at h0) <;> first | (simp at h0; done) | (cases h0; simp)
theorem pfSend_pending (x : Issue) (t : Nat) (l : List Nat) (n : Nat) (s t0 : State) (h0 : pfSend x t l n s = some t0) : t0.pending = s.pending := by
  induction l generalizing s with
  | nil => simp_all [pfSend]
  | cons e l ih =>
    unfold pfSend at h0; (try dsimp only at h0)
    (repeat' split at h0) <;> first | (simp at h0; done) | (rw [ih _ h0]; simp)
theorem sendWrite_pending (x : Issue) (who : Requester) (st : ReqState) (va : Word64) (pa n : Nat) (bytes : List Byte) (go : State → Act) (s : State)
    (hb : ∀ t, (actState (go t)).pending = t.pending) : (actState (sendWrite x who st va pa n bytes go s)).pending = s.pending := by
  unfold sendWrite; (try dsimp only); (repeat' split) <;> simp [hb]
@[simp] theorem rewriteTrees_pending (s : State) (p : Bool) : (rewriteTrees s p).pending = s.pending := by
  unfold rewriteTrees
  refine foldl_pending _ _ _ fun s c => ?_
  dsimp only
  split
  · have h1 : ∀ g, (installMcast (onRouters s p fun r => { r with groups := del r.groups g }) p c.2.cfg.plane g c.2.cores).pending = s.pending := by simp
    split
    · refine getD_pending (fun t h => (installTree_pending _ _ _ _ _ _ h).trans ?_) ?_ <;> (split <;> simp)
    · split <;> simp
  · rfl
@[simp] theorem finishMark_pending (s : State) (t : Nat) : (finishMark s t).pending = s.pending := by
  simp [finishMark]
@[simp] theorem startSound_pending (s : State) (core : Nat) (e : VEntry) (out : PortOutcome) : (startSound s core e out).pending = s.pending := by
  have hl := lsRead_pending s (lsAddr core e.s0.toNat) 256 out
  unfold startSound
  extract_lets k started fails at_
  have hs : ∀ s r ov, (started s r ov).pending = s.pending := fun s r ov => by simp [started]
  have hf : ∀ s c a, (fails s c a).pending = s.pending := fun s c a => by simp [fails]
  clear_value started fails
  generalize lsRead s (lsAddr core e.s0.toNat) 256 out = q at hl ⊢
  obtain ⟨s1, o⟩ := q
  simp only at hl
  cases o <;> (repeat' split) <;> first
    | (simp [hs, hf]; done)
    | (rename_i h1; simp only [Prod.mk.injEq, Option.some.injEq, reduceCtorEq, and_false] at h1; done)
    | (rename_i h1; simp only [Prod.mk.injEq] at h1; simp [hs, hf, ← h1.1, hl])
@[simp] theorem startEntry_pending (s : State) (core : Nat) (e : VEntry) (out : PortOutcome) : (startEntry s core e out).pending = s.pending := by
  have hl := sramRead_pending s core out
  unfold startEntry
  split
  · split <;> rename_i h1 <;> rw [h1] at hl
    · dsimp only
      split <;> simpa using hl
    · simpa using hl
  · simp
theorem placeSeg_pending (t : Nat) (s : State) (g : Config.ImageSeg) (t0 : State) (h0 : placeSeg t s g = some t0) : t0.pending = s.pending := by
  unfold placeSeg at h0
  extract_lets q mine at h0
  split at h0
  · simp at h0
  · split at h0
    · simp at h0
    · rename_i s1 h1
      split at h0
      · rename_i s2 h2
        cases h0
        have := vaWrite_pending s1 t q.va g.bytes .clean
        rw [h2] at this
        rw [this, mapRange_pending _ _ _ _ h1]
      · simp at h0
theorem placeSegs_pending (t : Nat) (l : List Config.ImageSeg) (s t0 : State) (h0 : placeSegs t l s = some t0) : t0.pending = s.pending := by
  induction l generalizing s with
  | nil => simp_all [placeSegs]
  | cons e l ih =>
    unfold placeSegs at h0
    split at h0
    · rename_i s1 h1; rw [ih s1 h0, placeSeg_pending _ _ _ _ h1]
    · simp at h0
@[simp] theorem finishProg_pending (s : State) (t p : Nat) (l : List Byte) : (finishProg s t p l).2.pending = s.pending := by
  unfold finishProg
  (repeat' split) <;> first | (simp; done) | (rename_i h1; simp [placeSegs_pending _ _ _ _ h1])
@[simp] theorem sendPrefix_pending (s : State) (c : Nat) (x : DmaCur) : (sendPrefix s c x).pending = s.pending := by
  unfold sendPrefix; dsimp only; (repeat' split) <;> simp_all
@[simp] theorem stallEvents_pending (t : Nat) (n : Nat) (mask : Word64) (l : Tab ScaleRec) (s : State) : (stallEvents t n mask l s).pending = s.pending := by
  unfold stallEvents; exact foldl_pending _ _ _ (by intros; (repeat' split) <;> simp_all)
@[simp] theorem applyReading_pending (temps : List (Int × Nat)) (s : State) : (applyReading temps s).pending = s.pending := by
  rfl
@[simp] theorem coolDown_pending (temps : List (Int × Nat)) (s : State) : (coolDown temps s).pending = s.pending := by
  unfold coolDown; dsimp only; (repeat' split) <;> simp_all
@[simp] theorem rsrBody_pending (x : Issue) (d : Nat) (sys : Nat) (s : State) : (actState (rsrBody x d sys s)).pending = s.pending := by
  unfold rsrBody; dsimp only; (repeat' split) <;> simp_all
@[simp] theorem endFrameRotation_pending (s : State) (t : Nat) (f : Nat) : (endFrameRotation s t f).pending = s.pending := by
  unfold endFrameRotation; dsimp only; (repeat' split) <;> simp_all
@[simp] theorem renewChan_pending (core : Nat) (s : State) (e : Nat × ChanCfg) : (renewChan core s e).pending = s.pending := by
  unfold renewChan; dsimp only; (repeat' split) <;> simp_all
@[simp] theorem compareTask_pending (s : State) (core : Nat) (n : Nat) (r : TaskRun) : (compareTask s core n r).1.pending = s.pending := by
  simp [compareTask]
@[simp] theorem completeData_pending (s : State) (op : Nat) (obj : Nat) (st : Half) (len : Nat) (body : BitVec 384) (data : Option (List Byte)) : (completeData s op obj st len body data).pending = s.pending := by
  rfl
@[simp] theorem hostGo_pending (s : State) (a : HostAcc) : (hostGo s a).pending = s.pending := by
  unfold hostGo; dsimp only; (repeat' split) <;> simp_all
@[simp] theorem pumpHost_pending (s : State) (t : Nat) : (pumpHost s t).pending = s.pending := by
  simp [pumpHost]
@[simp] theorem ackBlock_pending (s : State) (t : Nat) (tbl : Nat) (row : Nat) (blk : Nat) : (ackBlock s t tbl row blk).pending = s.pending := by
  rfl
@[simp] theorem peekPage_pending (s : State) (t : Nat) (va : Nat) (n : Nat) : (peekPage s t va n).1.pending = s.pending := by
  unfold peekPage; (repeat' split) <;> simp_all
@[simp] theorem peek_pending (s : State) (t n va : Nat) : (peek s t n va).1.pending = s.pending := by
  induction n generalizing va with
  | zero => rfl
  | succ n ih => unfold peek; (try dsimp only); grind [peekPage_pending]
@[simp] theorem readSegs_pending (s : State) (out : PortOutcome) (l : List (Nat × Nat)) : (readSegs s out l).1.pending = s.pending := by
  induction l generalizing s out with
  | nil => rfl
  | cons e l ih => unfold readSegs; (try dsimp only); grind [physRead_pending]
@[simp] theorem moduleReset_pending (rails : Bool) (s : State) : (moduleReset rails s).pending = s.pending := by
  simp [moduleReset]
@[simp] theorem startTask_pending (t h n : Nat) (s : State) : (startTask t h n s).pending = s.pending := by
  unfold startTask; dsimp only; (repeat' split) <;> simp
@[simp] theorem setStCtx_pending (s : State) (c : Nat) (n : Nat) (x : Ctx) : (setStCtx s c n x).pending = s.pending := by
  rfl
@[simp] theorem freshId_pending (s : State) : (freshId s).2.pending = s.pending := by
  rfl
/-- The word's command stands in front. -/
theorem State.withFetchWord_pending (s : State) (nbits w : Nat) :
    (State.withFetchWord s nbits w).pending = (decodeTableWord nbits w).toList ++ s.pending := by
  unfold State.withFetchWord; split <;> simp_all
end Sys2Proof.Machine
end

