-- ==== Sys2Proof/Laws/Bytes.lean ====
section
/-! SUPPORT. The shared operations that leave the bytes of the module as it is: one lemma each, and the lemmas for a list of them. -/

namespace Sys2Proof.Machine
open Sys2Proof
@[simp] theorem foldl_mem {α : Type} (g : State → α → State) (l : List α) (s : State) (h : ∀ s x, (g s x).mem = s.mem) : (l.foldl g s).mem = s.mem :=
  foldl_keep State.mem g l s h
theorem foldl_eq_mem {α : Type} (g : State → α → State) (l : List α) (s : State) (h : ∀ s x t, g s x = t → t.mem = s.mem) : (l.foldl g s).mem = s.mem :=
  foldl_mem g l s fun s x => h s x _ rfl
@[simp] theorem foldl1_mem {α β : Type} (g : State × β → α → State × β) (l : List α) (s : State × β) (h : ∀ s x, (g s x).1.mem = s.1.mem) : (l.foldl g s).1.mem = s.1.mem :=
  foldl_keep (fun p => p.1.mem) g l s h
@[simp] theorem foldl2_mem {α β : Type} (g : β × State → α → β × State) (l : List α) (s : β × State) (h : ∀ s x, (g s x).2.mem = s.2.mem) : (l.foldl g s).2.mem = s.2.mem :=
  foldl_keep (fun p => p.2.mem) g l s h
theorem getD_mem {o : Option State} {d s : State} (h : ∀ t, o = some t → t.mem = s.mem) (hd : d.mem = s.mem) : (o.getD d).mem = s.mem := by
  cases o with
  | none => exact hd
  | some t => exact h t rfl
@[simp] theorem sendTagged_mem (s : State) (c : Nat) (k : Core) (m : Move) (p : MovePart) : (sendTagged s c k m p).mem = s.mem := by
  rfl
@[simp] theorem pumpMoves_mem (c n : Nat) (s : State) : (pumpMoves c n s).mem = s.mem := by
  induction n generalizing s with
  | zero => rfl
  | succ n ih => unfold pumpMoves; dsimp only; (repeat' split) <;> simp [ih]
@[simp] theorem pumpUnit_mem (s : State) (c : Nat) : (pumpUnit s c).mem = s.mem := by
  simp [pumpUnit]
@[simp] theorem pgBump_mem (s : State) (t : Nat) (i : Nat) (m : Nat) : (pgBump s t i m).mem = s.mem := by
  rfl
@[simp] theorem wakeCtx_mem (s : State) (c : Nat) (n : Nat) : (wakeCtx s c n).mem = s.mem := by
  unfold wakeCtx; dsimp only; (repeat' split) <;> simp_all
@[simp] theorem settle_mem (s : State) (c : Nat) : (settle s c).mem = s.mem := by
  simp [settle]
@[simp] theorem faultCtx_mem (s : State) (c : Nat) (n : Nat) (cause : Cause) (addr : Word64) (imprecise : Bool) (pc : Word64) (o : Nat) : (faultCtx s c n cause addr imprecise pc o).mem = s.mem := by
  unfold faultCtx; dsimp only; (repeat' split) <;> simp_all
@[simp] theorem addWalk_mem (s : State) (c : Nat) (t : Nat) (va : Nat) : (addWalk s c t va).mem = s.mem := by
  unfold addWalk; dsimp only; (repeat' split) <;> simp_all
@[simp] theorem fetchMiss_mem (s : State) (c : Nat) (n : Nat) : (fetchMiss s c n).mem = s.mem := by
  unfold fetchMiss; dsimp only; (repeat' split) <;> simp_all
@[simp] theorem countLasting_mem (s : State) (c : Nat) : (countLasting s c).mem = s.mem := by
  rfl
@[simp] theorem countTransient_mem (s : State) (c : Nat) : (countTransient s c).mem = s.mem := by
  simp [countTransient]
@[simp] theorem sramRead_mem (s : State) (c : Nat) (out : PortOutcome) : (sramRead s c out).1.mem = s.mem := by
  cases out <;> simp [sramRead]
@[simp] theorem noteMalformed_mem (s : State) (t : Nat) (va : Nat) (acc : Nat) : (noteMalformed s t va acc).mem = s.mem := by
  unfold noteMalformed; (repeat' split) <;> simp_all
@[simp] theorem noteStop_mem (s : State) (t : Nat) (va : Nat) (c : Cause) : (noteStop s t va c).mem = s.mem := by
  unfold noteStop; (repeat' split) <;> first | rfl | simp
@[simp] theorem putCmd_mem (s : State) (f : Nat) (g : GCmd) : (putCmd s f g).mem = s.mem := by
  rfl
@[simp] theorem failCmd_mem (s : State) (f : Nat) (g : GCmd) (c : Cause) (va : Nat) : (failCmd s f g c va).mem = s.mem := by
  simp [failCmd]
@[simp] theorem freeBits_mem (s : State) (n : Nat) : (freeBits s n).2.mem = s.mem := rfl
@[simp] theorem linkBump_mem (s : State) (l : Nat) (i : Nat) (n : Nat) : (linkBump s l i n).mem = s.mem := by
  rfl
@[simp] theorem dieBump_mem (s : State) (b : Bool) (i : Nat) : (dieBump s b i).mem = s.mem := by
  rfl
@[simp] theorem chanBump_mem (s : State) (c : Nat) (i : Nat) : (chanBump s c i).mem = s.mem := by
  rfl
@[simp] theorem onFunc_mem (s : State) (fn : Nat) (g : Func → Func) : (onFunc s fn g).mem = s.mem := by
  rfl
@[simp] theorem postEvent_mem (s : State) (fn : Nat) (code : Half) (fields : List (Nat × Nat × Nat)) : (postEvent s fn code fields).mem = s.mem := by
  unfold postEvent; (repeat' split) <;> simp_all
@[simp] theorem sendOn_mem (s : State) (l : Nat) (f : TxFrame) : (sendOn s l f).mem = s.mem := by
  rfl
@[simp] theorem sendOut_mem (s : State) (l : Nat) (f : TxFrame) : (sendOut s l f).mem = s.mem := by
  rfl
@[simp] theorem sendAgain_mem (s : State) (l : Nat) (f : TxFrame) : (sendAgain s l f).mem = s.mem := by
  rfl
@[simp] theorem toLinks_mem (s : State) (ls : List Nat) (f : TxFrame) : (toLinks s ls f).mem = s.mem := by
  unfold toLinks; dsimp only; (repeat' split) <;> simp_all
@[simp] theorem drainLink_mem (l n : Nat) (s : State) : (drainLink l n s).mem = s.mem := by
  induction n generalizing s with
  | zero => rfl
  | succ n ih => unfold drainLink; (try dsimp only); (repeat' split) <;> simp [ih]
@[simp] theorem mcOut_mem (s : State) (die : Bool) (key : Nat) (f : TxFrame) : (mcOut s die key f).mem = s.mem := by
  unfold mcOut; dsimp only; (repeat' split) <;> simp_all
@[simp] theorem inject_mem (s : State) (plane : Bool) (f : TxFrame) : (inject s plane f).mem = s.mem := by
  unfold inject; dsimp only; (repeat' split) <;> simp_all
@[simp] theorem chanSendTo_mem (s : State) (c : Nat) (dest : BitVec 10) (seq : Word32) (kind : BitVec 4) (vc : BitVec 2) (body : List Byte) (core : Option Nat) : (chanSendTo s c dest seq kind vc body core).mem = s.mem := by
  unfold chanSendTo; dsimp only; (repeat' split) <;> simp_all
@[simp] theorem chanSend_mem (s : State) (c : Nat) (seq : Word32) (kind : BitVec 4) (vc : BitVec 2) (body : List Byte) : (chanSend s c seq kind vc body).mem = s.mem := by
  simp [chanSend]
@[simp] theorem chanFrameTo_mem (s : State) (c : Nat) (dest : BitVec 10) (kind : BitVec 4) (vc : BitVec 2) (body : List Byte) (core : Option Nat) : (chanFrameTo s c dest kind vc body core).mem = s.mem := by
  simp [chanFrameTo]
@[simp] theorem chanFrame_mem (s : State) (c : Nat) (kind : BitVec 4) (vc : BitVec 2) (body : List Byte) (core : Option Nat) : (chanFrame s c kind vc body core).mem = s.mem := by
  simp [chanFrame]
@[simp] theorem refillChan_mem (c n : Nat) (s : State) : (refillChan c n s).mem = s.mem := by
  induction n generalizing s with
  | zero => rfl
  | succ n ih => unfold refillChan; (try dsimp only); (repeat' split) <;> simp [ih]
@[simp] theorem refillAll_mem (s : State) : (refillAll s).mem = s.mem := by
  simp [refillAll]
@[simp] theorem countFab_mem (s : State) (dest : Nat) : (countFab s dest).mem = s.mem := by
  rfl
@[simp] theorem fabSend_mem (s : State) (kind dest : Nat) (args : List Nat) : (fabSend s kind dest args).mem = s.mem := by
  unfold fabSend; (repeat' split) <;> simp_all
@[simp] theorem fabOn_mem (s : State) (l kind : Nat) (args : List Nat) : (fabOn s l kind args).mem = s.mem := by
  simp [fabOn]
@[simp] theorem fabAll_mem (s : State) (kind : Nat) (args : List Nat) : (fabAll s kind args).mem = s.mem := by
  simp [fabAll]
@[simp] theorem fabBw_mem (s : State) (kind : Nat) (args : List Nat) : (fabBw s kind args).mem = s.mem := by
  unfold fabBw; (repeat' split) <;> simp_all
@[simp] theorem fabFlush_mem (s : State) : (fabFlush s).mem = s.mem := by
  simp [fabFlush]
@[simp] theorem deliverSum_mem (s : State) (key : Nat) (q : RedSlot) : (deliverSum s key q).mem = s.mem := by
  unfold deliverSum; (repeat' split) <;> simp_all
@[simp] theorem redForward_mem (s : State) (die : Bool) (key : Nat) (vc : BitVec 2) (out : Nat) (q : RedSlot) : (redForward s die key vc out q).mem = s.mem := by
  unfold redForward; dsimp only; (repeat' split) <;> simp_all
@[simp] theorem treeOne_mem (s : State) (die : Bool) (inp : Nat) (vc : BitVec 2) (src : Option Nat) (q : RedSlot) : (treeOne s die inp vc src q).mem = s.mem := by
  unfold treeOne; dsimp only; (repeat' split) <;> simp_all
@[simp] theorem treePump_mem (die : Bool) (n : Nat) (s : State) : (treePump die n s).mem = s.mem := by
  induction n generalizing s with
  | zero => rfl
  | succ n ih => unfold treePump; (try dsimp only); (repeat' split) <;> simp [ih]
@[simp] theorem treeStep_mem (s : State) (die : Bool) (inp : Nat) (vc : BitVec 2) (src : Option Nat) (q : RedSlot) : (treeStep s die inp vc src q).mem = s.mem := by
  simp [treeStep]
@[simp] theorem redRefill_mem (die : Bool) (vc : BitVec 2) (c n : Nat) (s : State) : (redRefill die vc c n s).mem = s.mem := by
  induction n generalizing s with
  | zero => rfl
  | succ n ih => unfold redRefill; (try dsimp only); (repeat' split) <;> simp [ih]
@[simp] theorem treeAdd_mem (s : State) (die : Bool) (inp : Nat) (vc : BitVec 2) (q : RedSlot) (src : Option Nat) : (treeAdd s die inp vc q src).mem = s.mem := by
  unfold treeAdd; dsimp only; (repeat' split) <;> simp_all
@[simp] theorem injectBlock_mem (s : State) (c : Nat) (aexp : Option Int) (elems : List Int) (poison : Bool) : (injectBlock s c aexp elems poison).mem = s.mem := by
  unfold injectBlock; dsimp only; (repeat' split) <;> simp_all
@[simp] theorem sendData_mem (s : State) (c : Nat) (first : Word32) (bytes : List Byte) : (sendData s c first bytes).mem = s.mem := by
  unfold sendData; (repeat' split) <;> simp_all
@[simp] theorem drawNumbers_mem (s : State) (c : Nat) (len : Nat) : (drawNumbers s c len).mem = s.mem := by
  unfold drawNumbers; dsimp only; (repeat' split) <;> simp_all
@[simp] theorem onRouters_mem (s : State) (p : Bool) (f : Router → Router) : (onRouters s p f).mem = s.mem := by
  rfl
@[simp] theorem onMesh_mem (s : State) (g : ChanCfg) (f : Router → Router) : (onMesh s g f).mem = s.mem := by
  simp [onMesh]
@[simp] theorem dropKey_mem (s : State) (die : Bool) (key : Nat) : (dropKey s die key).mem = s.mem := by
  rfl
@[simp] theorem leaveChan_mem (s : State) (c : Nat) : (leaveChan s c).mem = s.mem := by
  unfold leaveChan; dsimp only; (repeat' split) <;> simp_all
@[simp] theorem endLocal_mem (s : State) (c : Nat) (reason : Nat) : (endLocal s c reason).mem = s.mem := by
  unfold endLocal; dsimp only; (repeat' split) <;> simp_all
@[simp] theorem endChan_mem (s : State) (c : Nat) (reason : Nat) : (endChan s c reason).mem = s.mem := by
  unfold endChan; dsimp only; (repeat' split) <;> simp_all
@[simp] theorem endChans_mem (s : State) (p : Nat → Chan → Bool) (reason : Nat) : (endChans s p reason).mem = s.mem := by
  simp [endChans]
@[simp] theorem respond_mem (s : State) (fn : Nat) (op : Nat) (seq : Half) (st : Half) (len : Nat) (body : BitVec 384) (data : Option (List Byte)) : (respond s fn op seq st len body data).mem = s.mem := by
  rfl
@[simp] theorem countFailed_mem (s : State) (st : Half) : (countFailed s st).mem = s.mem := by
  unfold countFailed; split <;> rfl
@[simp] theorem answerRes_mem (e : Entry) (op : Nat) (late : Bool) (r : Res) (s : State) : (answerRes e op late r s).mem = s.mem := by
  unfold answerRes; (repeat' split) <;> simp_all
@[simp] theorem postPf_mem (s : State) (code : Half) (fields : List (Nat × Nat × Nat)) : (postPf s code fields).mem = s.mem := by
  rfl
@[simp] theorem refuse_mem (s : State) (l : Nat) (cause : Byte) : (refuse s l cause).mem = s.mem := by
  rfl
@[simp] theorem installChan_mem (s : State) (c : Nat) (cfg : ChanCfg) (job : Half) : (installChan s c cfg job).mem = s.mem := by
  rfl
theorem installDie_mem (s : State) (die : Bool) (key : Nat) (red : Bool) (mc : Bool) (ins : List Nat) (out : Nat) (outs : List Nat) (t0) (h0 : (installDie s die key red mc ins out outs) = some t0) : t0.mem = s.mem := by
  unfold installDie at h0; grind [setDie_mem, foldl_mem]
@[simp] theorem installMcast_mem (s : State) (p die : Bool) (g : Nat) (cores : List Nat) : (installMcast s p die g cores).mem = s.mem := by
  unfold installMcast; exact foldl_mem _ _ _ (by intros; (repeat' split) <;> simp_all)
theorem installTree_mem (s : State) (p die : Bool) (t : Nat) (cores : List Nat) (t0) (h0 : (installTree s p die t cores) = some t0) : t0.mem = s.mem := by
  unfold installTree at h0; grind [setRouter_mem, foldl_mem]
theorem installTrees_mem (die : Bool) (t : Nat) (cores : List Nat) (ps : List Bool) (s t0 : State)
    (h0 : installTrees die t cores ps s = some t0) : t0.mem = s.mem := by
  induction ps generalizing s with
  | nil => cases h0; rfl
  | cons p ps ih =>
    obtain ⟨s1, h1, h2⟩ := Option.bind_eq_some_iff.1 h0
    rw [ih s1 h2, installTree_mem _ _ _ _ _ _ h1]
theorem meshTree_mem (s : State) (c : Nat) (t0) (h0 : (meshTree s c) = some t0) : t0.mem = s.mem := by
  unfold meshTree at h0; grind [installTrees_mem, setChan_mem, foldl_mem]
@[simp] theorem completeObj_mem (s : State) (op : Nat) (obj : Nat) (st : Half) (len : Nat) (body : BitVec 384) : (completeObj s op obj st len body).mem = s.mem := by
  rfl
@[simp] theorem setupDone_mem (s : State) (q : Setup) (st : Half) (body : BitVec 384) : (setupDone s q st body).mem = s.mem := by
  rfl
theorem meshGroup_mem (s : State) (c : Nat) (t0 : State) (h0 : meshGroup s c = some t0) : t0.mem = s.mem := by
  unfold meshGroup at h0; dsimp only at h0
  (repeat' split at h0) <;> first | (simp at h0; done) | (cases h0; simp)
theorem installGroup_mem (s : State) (c : Nat) (cfg : ChanCfg) (job : Half) (key : Nat) (ins : List Nat) (out : Nat) (outs : List Nat) (fanin : Nat)
    (ms : List Nat) (t0 : State) (h0 : installGroup s c cfg job key ins out outs fanin ms = some t0) : t0.mem = s.mem := by
  unfold installGroup at h0
  split at h0
  · simp at h0
  · rename_i s1 h1
    obtain ⟨s3, h3, h4⟩ := Option.bind_eq_some_iff.1 h0
    rw [meshGroup_mem _ _ _ h4, meshTree_mem _ _ _ h3]
    simp [installDie_mem _ _ _ _ _ _ _ _ _ h1]
@[simp] theorem sendStatus_mem (s : State) (q : Setup) (st : Half) : (sendStatus s q st).mem = s.mem := by
  simp [sendStatus]
@[simp] theorem failGroup_mem (s : State) (q : Setup) (st : Half) : (failGroup s q st).mem = s.mem := by
  simp [failGroup]
@[simp] theorem uninstall_mem (s : State) (c : Nat) : (uninstall s c).mem = s.mem := by
  unfold uninstall; dsimp only; (repeat' split) <;> simp_all
@[simp] theorem sendInstall_mem (q : Setup) (cfg : ChanCfg) (red mc : List (Nat × Nat)) (s : State) (m : Nat × Nat) : (sendInstall q cfg red mc s m).mem = s.mem := by
  simp [sendInstall]
@[simp] theorem sendSetup_mem (s : State) (q : Setup) : (sendSetup s q).mem = s.mem := by
  simp [sendSetup]
@[simp] theorem rootInstall_mem (s : State) (q : Setup) : (rootInstall s q).mem = s.mem := by
  unfold rootInstall; dsimp only
  split
  · simp
  · split
    · split
      · simp
      · rename_i s1 h1
        have e1 := installGroup_mem (h0 := h1)
        (repeat' split) <;> simp [e1]
    · simp
@[simp] theorem joinGroup_mem (s : State) (q : Setup) (src : Nat) (srcChan : Nat) (fan : Nat) (uid : Word64) : (joinGroup s q src srcChan fan uid).mem = s.mem := by
  unfold joinGroup; dsimp only; (repeat' split) <;> simp_all
@[simp] theorem removeReq_mem (s : State) (id : Nat) : (removeReq s id).mem = s.mem := by
  rfl
@[simp] theorem freeTag_mem (s : State) (r : MemReq) : (freeTag s r).mem = s.mem := by
  unfold freeTag; (repeat' split) <;> simp_all
@[simp] theorem completeWait_mem (f : Ctx → Ctx) (s : State) (c : Nat) (n : Nat) : (completeWait f s c n).mem = s.mem := by
  rfl
@[simp] theorem deliverRead_mem (s : State) (r : MemReq) (bytes : List Byte) : (deliverRead s r bytes).mem = s.mem := by
  unfold deliverRead; (repeat' split) <;> simp_all
@[simp] theorem unitFault_mem (s : State) (c : Nat) (n : Nat) (cause : Cause) (addr : Word64) (pc : Word64) (o : Nat) : (unitFault s c n cause addr pc o).mem = s.mem := by
  unfold unitFault; dsimp only; (repeat' split) <;> simp_all
@[simp] theorem failRead_mem (s : State) (r : MemReq) (c : Cause) : (failRead s r c).mem = s.mem := by
  unfold failRead; dsimp only; (repeat' split) <;> simp_all
@[simp] theorem storeFault_mem (s : State) (c : Nat) (n : Nat) (cause : Cause) (addr : Word64) (o : Nat) : (storeFault s c n cause addr o).mem = s.mem := by
  simp [storeFault]
@[simp] theorem countPageWait_mem (s : State) (t : Nat) : (countPageWait s t).mem = s.mem := by
  rfl
@[simp] theorem touchLeaf_mem (s : State) (t : Nat) (va : Nat) (acc : Nat) (l : Leaf) (big : Bool) : (touchLeaf s t va acc l big).mem = s.mem := by
  rfl
@[simp] theorem answerWalk_mem (s : State) (c : Nat) (n : Nat) (va : Nat) (acc : Nat) (tile : Bool) (err : Option Cause) : (answerWalk s c n va acc tile err).mem = s.mem := by
  unfold answerWalk; dsimp only; (repeat' split) <;> simp_all
@[simp] theorem answerCtx_mem (w : Walk) (err : Option Cause) (c : Nat) (s : State) (n : Nat) : (answerCtx w err c s n).mem = s.mem := by
  unfold answerCtx; dsimp only; (repeat' split) <;> simp_all
@[simp] theorem answerPage_mem (t : Nat) (page : Nat) (c : Nat) (s : State) (n : Nat) : (answerPage t page c s n).mem = s.mem := by
  unfold answerPage; dsimp only; (repeat' split) <;> simp_all
@[simp] theorem answerAllPage_mem (s : State) (t : Nat) (page : Nat) : (answerAllPage s t page).mem = s.mem := by
  simp [answerAllPage]
@[simp] theorem cancelTask_mem (s : State) (t : Nat) (h : Nat) (reason : Nat) (ticket : Nat) : (cancelTask s t h reason ticket).mem = s.mem := by
  simp [cancelTask]
@[simp] theorem countTicket_mem (s : State) (t : Nat) (h : Nat) (fault : Bool) : (countTicket s t h fault).mem = s.mem := by
  unfold countTicket; (repeat' split) <;> simp_all
@[simp] theorem reportEnded_mem (c : Nat) (s : State) (e : Nat × Ctx) : (reportEnded c s e).mem = s.mem := by
  unfold reportEnded; (repeat' split) <;> simp_all
@[simp] theorem endTrees_mem (s : State) (p : Nat → Bool) : (endTrees s p).mem = s.mem := by
  simp [endTrees]
@[simp] theorem beginFill_mem (s : State) (c : Nat) : (beginFill s c).mem = s.mem := by
  simp [beginFill]
@[simp] theorem nextFill_mem (s : State) : (nextFill s).mem = s.mem := by
  unfold nextFill; (repeat' split) <;> simp_all
@[simp] theorem wearCheck_mem (s : State) : (wearCheck s).mem = s.mem := by
  unfold wearCheck; dsimp only; (repeat' split) <;> simp_all
@[simp] theorem mediaWrite_mem (s : State) (n : Nat) (host : Nat) : (mediaWrite s n host).mem = s.mem := by
  simp [mediaWrite]
@[simp] theorem storeBytes_mem (s : State) (host : Nat) : (storeBytes s host).mem = s.mem := by
  simp [storeBytes]
@[simp] theorem storeRecord_mem (s : State) (far : FarRecords) (host : Nat) : (storeRecord s far host).mem = s.mem := by
  unfold storeRecord; (repeat' split) <;> simp_all
@[simp] theorem eraseSalt_mem (s : State) (t : Nat) : (eraseSalt s t).mem = s.mem := by
  unfold eraseSalt; (repeat' split) <;> simp_all
@[simp] theorem refreshWait_mem (s : State) (t : Nat) (h : Nat) : (refreshWait s t h).mem = s.mem := by
  unfold refreshWait; (repeat' split) <;> simp_all
@[simp] theorem flushHandle_mem (s : State) (t : Nat) (h : Nat) (reason : Nat) : (flushHandle s t h reason).mem = s.mem := by
  unfold flushHandle; (repeat' split) <;> simp_all
@[simp] theorem finishKill_mem (s : State) (t : Nat) (h : Nat) : (finishKill s t h).mem = s.mem := by
  unfold finishKill; (repeat' split) <;> simp_all
@[simp] theorem settleStops_mem (s : State) (t : Nat) : (settleStops s t).mem = s.mem := by
  unfold settleStops; exact foldl_mem _ _ _ (by intros; (repeat' split) <;> simp_all)
@[simp] theorem closeEngine_mem (s : State) (p : Nat → Bool) : (closeEngine s p).mem = s.mem := by
  simp [closeEngine]
@[simp] theorem sendSig_mem (s : State) (core sem n : Nat) (src : Option (Nat × Nat)) : (sendSig s core sem n src).mem = s.mem := rfl
@[simp] theorem fireCounts_mem (s : State) (c : Nat) (p : Nat → Bool) : (fireCounts s c p).mem = s.mem := by
  unfold fireCounts; dsimp only; (repeat' split) <;> (try simp_all) <;> (rw [foldl_mem] <;> (try simp_all)) <;> (intros; (repeat' split) <;> simp_all)
@[simp] theorem dmaBump_mem (s : State) (c : Nat) (i : Nat) (n : Nat) : (dmaBump s c i n).mem = s.mem := by
  rfl
@[simp] theorem endWait_mem (s : State) (c : Nat) : (endWait s c).mem = s.mem := by
  unfold endWait; dsimp only; (repeat' split) <;> simp_all
@[simp] theorem noteWait_mem (s : State) (c : Nat) : (noteWait s c).mem = s.mem := by
  rfl
@[simp] theorem resetChan_mem (s : State) (c : Nat) : (resetChan s c).mem = s.mem := by
  simp [resetChan]
@[simp] theorem afterStop_mem (s : State) (c : Nat) : (afterStop s c).mem = s.mem := by
  unfold afterStop; dsimp only; (repeat' split) <;> simp_all
@[simp] theorem dmaIrq_mem (s : State) (c : Nat) : (dmaIrq s c).mem = s.mem := by
  unfold dmaIrq; dsimp only; (repeat' split) <;> simp_all
@[simp] theorem stopChan_mem (s : State) (c : Nat) (code : Nat) : (stopChan s c code).mem = s.mem := by
  simp [stopChan]
@[simp] theorem lateError_mem (s : State) (c : Nat) (i : Half) (w : BitVec 512) (e : Cause) : (lateError s c i w e).mem = s.mem := by
  simp [lateError]
@[simp] theorem beginAbort_mem (s : State) (c : Nat) : (beginAbort s c).mem = s.mem := by
  unfold beginAbort; dsimp only; (repeat' split) <;> simp_all
@[simp] theorem releaseDma_mem (s : State) (c : Nat) : (releaseDma s c).mem = s.mem := by
  simp [releaseDma]
@[simp] theorem tearDown_mem (s : State) (t : Nat) : (tearDown s t).mem = s.mem := by
  unfold tearDown; (repeat' split) <;> simp_all
@[simp] theorem handleIdle_mem (s : State) (t : Nat) (h : Nat) : (handleIdle s t h).mem = s.mem := by
  unfold handleIdle; (repeat' split) <;> simp_all
@[simp] theorem failCore_mem (s : State) (c : Nat) : (failCore s c).mem = s.mem := by
  unfold failCore; dsimp only; (repeat' split) <;> simp_all
@[simp] theorem abortOwed_mem (s : State) (fn : Nat) (keepOp : Nat) : (abortOwed s fn keepOp).mem = s.mem := by
  rfl
@[simp] theorem postAll_mem (s : State) (code : Half) (fields : List (Nat × Nat × Nat)) : (postAll s code fields).mem = s.mem := by
  simp [postAll]
@[simp] theorem takeId_mem (s : State) (id : Nat) : (takeId s id).mem = s.mem := by
  unfold takeId; dsimp only; (repeat' split) <;> simp_all
@[simp] theorem keepMap_mem (s : State) : (keepMap s).mem = s.mem := by
  simp [keepMap]
@[simp] theorem idFromMap_mem (s : State) : (idFromMap s).mem = s.mem := by
  unfold idFromMap; (repeat' split) <;> simp_all
@[simp] theorem dropUnreached_mem (s : State) (keep : Nat) : (dropUnreached s keep).mem = s.mem := by
  rfl
@[simp] theorem endGone_mem (s : State) : (endGone s).mem = s.mem := by
  simp [endGone]
@[simp] theorem putSpare_mem (s : State) (die : Bool) (v : Half) (t : Tab Route) : (putSpare s die v t).mem = s.mem := by
  rfl
@[simp] theorem endTransit_mem (s : State) (die : Bool) (key : Nat) : (endTransit s die key).mem = s.mem := by
  simp [endTransit]
@[simp] theorem commitDie_mem (s : State) (v : Half) (die : Bool) : (commitDie s v die).mem = s.mem := by
  unfold commitDie; dsimp only; (repeat' split) <;> simp_all
@[simp] theorem commitRoutes_mem (s : State) (v : Half) : (commitRoutes s v).mem = s.mem := by
  simp [commitRoutes]
@[simp] theorem tryCommit_mem (s : State) : (tryCommit s).mem = s.mem := by
  unfold tryCommit; dsimp only; (repeat' split) <;> simp_all
@[simp] theorem checkDrained_mem (s : State) : (checkDrained s).mem = s.mem := by
  unfold checkDrained; dsimp only; (repeat' split) <;> simp_all
@[simp] theorem beginHold_mem (s : State) : (beginHold s).mem = s.mem := by
  simp [beginHold]
@[simp] theorem routeAdvance_mem (s : State) : (routeAdvance s).mem = s.mem := by
  unfold routeAdvance; dsimp only; (repeat' split) <;> simp_all
@[simp] theorem sendRoutes_mem (v : Half) (s : State) (m : Nat) : (sendRoutes v s m).mem = s.mem := by
  unfold sendRoutes; dsimp only; (repeat' split) <;> simp_all
@[simp] theorem mapChanged_mem (s : State) : (mapChanged s).mem = s.mem := by
  simp [mapChanged]
@[simp] theorem groupsChanged_mem (s : State) : (groupsChanged s).mem = s.mem := by
  unfold groupsChanged; dsimp only; (repeat' split) <;> simp_all
@[simp] theorem leaveUp_mem (s : State) (l : Nat) : (leaveUp s l).mem = s.mem := by
  unfold leaveUp; dsimp only; (repeat' split) <;> simp_all
@[simp] theorem sendPair_mem (s : State) : (sendPair s).mem = s.mem := by
  simp [sendPair]
@[simp] theorem ownPair_mem (s : State) : (ownPair s).mem = s.mem := by
  simp [ownPair]
@[simp] theorem learnPair_mem (s : State) (l : Nat) (serial : Word64) (hops : Nat) : (learnPair s l serial hops).mem = s.mem := by
  unfold learnPair; dsimp only; (repeat' split) <;> simp_all
@[simp] theorem linkDown_mem (s : State) (l : Nat) (st : LinkSt) : (linkDown s l st).mem = s.mem := by
  unfold linkDown; dsimp only; (repeat' split) <;> simp_all
@[simp] theorem noteDrops_mem (s : State) (l : Nat) (good : BitVec 4) : (noteDrops s l good).mem = s.mem := by
  simp [noteDrops]
@[simp] theorem moduleLost_mem (s : State) : (moduleLost s).mem = s.mem := by
  unfold moduleLost; (repeat' split) <;> simp_all
@[simp] theorem sendInval_mem (s : State) (t : Nat) (va : Nat) (len : Nat) (pa : Nat) : (sendInval s t va len pa).2.mem = s.mem := by
  rfl
@[simp] theorem clearAcc_mem (s : State) (t : Nat) : (clearAcc s t).mem = s.mem := by
  simp [clearAcc]
@[simp] theorem writeReg_mem (x : Issue) (d : Nat) (f : Ctx → Word64) (s : State) : (actState (writeReg x d f s)).mem = s.mem := by
  rfl
@[simp] theorem linkEvent_mem (s : State) (l : Nat) : (linkEvent s l).mem = s.mem := by
  rfl
@[simp] theorem holdLinks_mem (s : State) : (holdLinks s).mem = s.mem := by
  unfold holdLinks; dsimp only; (repeat' split) <;> (try simp_all) <;> (rw [foldl_mem] <;> (try simp_all)) <;> (intros; (repeat' split) <;> simp_all)
@[simp] theorem clearSpan_mem (s : State) : (clearSpan s).mem = s.mem := by
  rfl
@[simp] theorem endSpan_mem (s : State) : (endSpan s).mem = s.mem := by
  rfl
@[simp] theorem endPlover_mem (s : State) : (endPlover s).mem = s.mem := rfl

@[simp] theorem endWindow_mem (start : Nat) (s : State) : (endWindow start s).mem = s.mem := by
  rfl
@[simp] theorem crossed_mem (t : Nat) (s : State) : (crossed t s).mem = s.mem := by
  unfold crossed; (repeat' split) <;> simp_all
@[simp] theorem coast_mem (t : Nat) (s : State) : (coast t s).mem = s.mem := by
  unfold coast; dsimp only; (repeat' split) <;> simp_all
@[simp] theorem stepTo_mem (s : State) (t : Nat) : (stepTo s t).mem = s.mem := by
  simp [stepTo]
@[simp] theorem serveRows_mem (s : State) (t : Nat) (n : Nat) (rows : List Nat) : (serveRows s t n rows).mem = s.mem := by
  unfold serveRows; (repeat' split) <;> simp_all
@[simp] theorem askRows_mem (s : State) (f : Nat) (g : GCmd) (tbl : Nat) (v : Nat) (needs : List (Nat × Nat × Nat)) : (askRows s f g tbl v needs).mem = s.mem := by
  unfold askRows; exact foldl_mem _ _ _ (by intros; (repeat' split) <;> simp_all)
@[simp] theorem setCkpt_mem (s : State) (t : Nat) (c : Ckpt) : (setCkpt s t c).mem = s.mem := by
  rfl
@[simp] theorem endEvacuation_mem (s : State) (st : Nat) : (endEvacuation s st).mem = s.mem := by
  unfold endEvacuation; (repeat' split) <;> simp_all
@[simp] theorem finishIssue_mem (c n : Nat) (pc : Word64) (a : Act) : (finishIssue c n pc a).mem = (actState a).mem := by
  cases a <;> simp [finishIssue]
theorem issueStep_mem (x : Issue) (legal : Bool) (rs ps : List Nat) (body : State → Act) (s : State) (hb : (actState (body s)).mem = s.mem) :
    (issueStep x legal rs ps body s).mem = s.mem := by
  unfold issueStep; (try dsimp only); (repeat' split) <;> simp [hb]
@[simp] theorem pushEntry_mem (x : Issue) (e : VEntry) (s : State) : (pushEntry x e s).mem = s.mem := by
  rfl
@[simp] theorem readFailed_mem (s : State) (e : Entry) : (readFailed s e).mem = s.mem := by
  rfl
theorem runCmd_mem (p : CmdSpec) (pend : Pend) (lenBad fieldBad stateBad : Bool) (run : Nat → State → Res × State) (e : Entry) (s : State)
    (hb : ∀ n t, (run n t).2.mem = t.mem) : (runCmd p pend lenBad fieldBad stateBad run e s).mem = s.mem := by
  unfold runCmd; (try dsimp only); (repeat' split) <;> simp [hb]
@[simp] theorem endFrame_mem (s : State) (f : TxFrame) : (endFrame s f).mem = s.mem := by
  unfold endFrame; (repeat' split) <;> simp_all
@[simp] theorem trainLink_mem (s : State) (l : Nat) : (trainLink s l).mem = s.mem := by
  unfold trainLink; dsimp only; (repeat' split) <;> simp_all
@[simp] theorem releaseLinks_mem (s : State) : (releaseLinks s).mem = s.mem := by
  unfold releaseLinks; dsimp only; (repeat' split) <;> (try simp_all) <;> (rw [foldl_mem] <;> (try simp_all)) <;> (intros; (repeat' split) <;> simp_all)
@[simp] theorem loadJtag_mem (s : State) (j : Jtag) (dr : Word32) : (loadJtag s j dr).mem = s.mem := by
  simp [loadJtag]
@[simp] theorem lsRead_mem (s : State) (pa : Nat) (n : Nat) (out : PortOutcome) : (lsRead s pa n out).1.mem = s.mem := by
  unfold lsRead; (repeat' split) <;> simp_all
@[simp] theorem markBad_mem (s : State) (pa : Nat) (c : Cause) : (markBad s pa c).mem = s.mem := by
  unfold markBad; (repeat' split) <;> simp_all
@[simp] theorem reportFrame_mem (s : State) (pa : Nat) (c : Cause) : (reportFrame s pa c).mem = s.mem := by
  unfold reportFrame; (repeat' split) <;> simp_all
@[simp] theorem recordFrame_mem (s : State) (pa : Nat) (c : Cause) : (recordFrame s pa c).mem = s.mem := by
  unfold recordFrame; (repeat' split) <;> simp_all
@[simp] theorem meetError_mem (s : State) (pa : Nat) (c : Cause) : (meetError s pa c).mem = s.mem := by
  unfold meetError; (repeat' split) <;> simp_all
@[simp] theorem failAccess_mem (s : State) (f : Nat) (g : GCmd) (e : BadAccess) : (failAccess s f g e).mem = s.mem := by
  unfold failAccess; split <;> simp
@[simp] theorem readCheck_mem (s : State) (pa : Nat) (n : Nat) (out : PortOutcome) : (readCheck s pa n out).1.mem = s.mem := by
  unfold readCheck; (repeat' split) <;> simp_all
@[simp] theorem physRead_mem (s : State) (pa n : Nat) (out : PortOutcome) : (physRead s pa n out).1.mem = s.mem := by
  unfold physRead; grind [lsRead_mem, readCheck_mem]
@[simp] theorem vaReadGo_mem (t : Nat) (out : PortOutcome) (l : List (Nat × Nat)) (s : State) : (vaReadGo t out l s).1.mem = s.mem := by
  induction l generalizing s out with
  | nil => rfl
  | cons e l ih => unfold vaReadGo; (try dsimp only); grind [physRead_mem]
@[simp] theorem vaRead_mem (s : State) (t va n : Nat) (out : PortOutcome) : (vaRead s t va n out).1.mem = s.mem := vaReadGo_mem _ _ _ _
theorem toChan_mem (c : Nat) (cseq : Word32) (act : Nat → State → State) (s : State) (hb : ∀ n t, (act n t).mem = t.mem) :
    (toChan c cseq act s).mem = s.mem := by
  unfold toChan; (try dsimp only); (repeat' split) <;> simp [hb]
@[simp] theorem relay_mem (s : State) (die : Bool) (rv : Bool) (f : TxFrame) : (relay s die rv f).mem = s.mem := by
  unfold relay; dsimp only; (repeat' split) <;> simp
theorem chanArrive_mem (h : FrameHdr) (kind : BitVec 4) (body : List Byte) (act : Nat → State → State) (s : State) (hb : ∀ n t, (act n t).mem = t.mem) :
    (chanArrive h kind body act s).mem = s.mem := by
  unfold chanArrive; (try dsimp only); (repeat' split) <;> simp [hb, toChan_mem]
@[simp] theorem sendNak_mem (s : State) (l : Nat) (again : Bool) : (sendNak s l again).mem = s.mem := by
  unfold sendNak; dsimp only; (repeat' split) <;> simp_all
@[simp] theorem drain_mem (s : State) (l : Nat) : (drain s l).mem = s.mem := by
  unfold drain; dsimp only; (repeat' split) <;> simp_all
@[simp] theorem sendIdle_mem (s : State) (l : Nat) : (sendIdle s l).mem = s.mem := by
  unfold sendIdle; split <;> simp
@[simp] theorem noteReplay_mem (s : State) (l : Nat) : (noteReplay s l).mem = s.mem := by
  rfl
@[simp] theorem takeAck_mem (s : State) (l : Nat) (ack : BitVec 12) : (takeAck s l ack).mem = s.mem := by
  unfold takeAck; dsimp only; (repeat' split) <;> simp_all
@[simp] theorem takeHeader_mem (s : State) (h : FrameHdr) : (takeHeader s h).mem = s.mem := by
  simp [takeHeader]
@[simp] theorem badFrame_mem (s : State) (h : FrameHdr) : (badFrame s h).mem = s.mem := by
  rfl
@[simp] theorem acceptFrame_mem (h : FrameHdr) (s : State) : (acceptFrame h s).mem = s.mem := by
  rfl
@[simp] theorem enterFailed_mem (s : State) (l : Nat) : (enterFailed s l).mem = s.mem := by
  simp [enterFailed]
theorem recvSeq_mem (h : FrameHdr) (vcs : List Nat) (deliver : State → State) (s : State) (hb : ∀ t, (deliver t).mem = t.mem) :
    (recvSeq h vcs deliver s).mem = s.mem := by
  unfold recvSeq; (try dsimp only); (repeat' split) <;> simp [hb]
@[simp] theorem takeSig_mem (core : Nat) (sem : Nat) (cnt : Nat) (c : Nat) (s : State) : (takeSig core sem cnt c s).mem = s.mem := by
  unfold takeSig; dsimp only; (repeat' split) <;> simp_all
@[simp] theorem enterRetrain_mem (s : State) (l : Nat) : (enterRetrain s l).mem = s.mem := by
  unfold enterRetrain; dsimp only; (repeat' split) <;> simp_all
@[simp] theorem leaveSig_mem (s : State) (src : Nat × Nat) (w : Word64) (sem : Nat) (cnt : Nat) : (leaveSig s src w sem cnt).mem = s.mem := by
  unfold leaveSig; (repeat' split) <;> simp_all
@[simp] theorem releaseHeld_mem (s : State) (c : Nat) (h : HeldSig) : (releaseHeld s c h).mem = s.mem := by
  simp [releaseHeld]
@[simp] theorem followHeld_mem (s : State) (c : Nat) : (followHeld s c).mem = s.mem := by
  unfold followHeld; exact foldl_mem _ _ _ (by intros; (repeat' split) <;> simp_all)
@[simp] theorem rtrBump_mem (s : State) (p : Bool) (r : Nat) (i : Nat) (n : Nat) : (rtrBump s p r i n).mem = s.mem := by
  rfl
@[simp] theorem setArb_mem (s : State) (p : Bool) (r : Nat) (port : Nat) (a : Arbiter) : (setArb s p r port a).mem = s.mem := by
  rfl
@[simp] theorem programUnits_mem (s : State) (u : Nat) (n : Nat) (host : Nat) : (programUnits s u n host).mem = s.mem := by
  simp [programUnits]
@[simp] theorem programUnit_mem (s : State) (u : Nat) (host : Nat) : (programUnit s u host).mem = s.mem := by
  simp [programUnit]
@[simp] theorem freeValue_mem (s : State) : (freeValue s).2.mem = s.mem := by
  rfl
@[simp] theorem rollback_mem (s : State) (c : Nat) (st : Half) : (rollback s c st).mem = s.mem := by
  unfold rollback; (repeat' split) <;> simp_all
@[simp] theorem dropSetups_mem (s : State) (t : Nat) : (dropSetups s t).mem = s.mem := by
  simp [dropSetups]
@[simp] theorem killCtx_mem (s : State) (c : Nat) (n : Nat) (reason : Nat) : (killCtx s c n reason).mem = s.mem := by
  unfold killCtx; dsimp only; (repeat' split) <;> simp_all
@[simp] theorem killHandle_mem (s : State) (t : Nat) (h : Nat) (close : Bool) (reason : Nat) : (killHandle s t h close reason).mem = s.mem := by
  unfold killHandle; dsimp only; (repeat' split) <;> simp_all
@[simp] theorem beginEnd_mem (s : State) (t : Nat) (gone : Bool) : (beginEnd s t gone).mem = s.mem := by
  unfold beginEnd; dsimp only; (repeat' split) <;> simp_all
@[simp] theorem endTenant_mem (s : State) (fn : Nat) (gone : Bool) : (endTenant s fn gone).mem = s.mem := by
  unfold endTenant; dsimp only; (repeat' split) <;> simp_all
@[simp] theorem setSmb_mem (s : State) (b : Bool) (x : Smb) : (setSmb s b x).mem = s.mem := by
  unfold setSmb; (repeat' split) <;> simp_all
@[simp] theorem completeData_mem (s : State) (op : Nat) (obj : Nat) (st : Half) (len : Nat) (body : BitVec 384) (data : Option (List Byte)) : (completeData s op obj st len body data).mem = s.mem := by
  rfl
@[simp] theorem emergency_mem (s : State) : (emergency s).mem = s.mem := by
  rfl
@[simp] theorem setRom_mem (s : State) (rom : Bool) (mbox : Bool) : (setRom s rom mbox).mem = s.mem := by
  unfold setRom; (repeat' split) <;> simp_all
@[simp] theorem endAction_mem (b : Bool) (st : Half) (s : State) : (endAction b st s).mem = s.mem := by
  unfold endAction; split <;> rfl
@[simp] theorem onPresent_mem (g : Func → Func) (s : State) : (onPresent g s).mem = s.mem := by
  simp [onPresent]
@[simp] theorem abandonEpochs_mem (s : State) : (abandonEpochs s).mem = s.mem := by
  rfl
@[simp] theorem dropSpdm_mem (s : State) : (dropSpdm s).mem = s.mem := by
  rfl
@[simp] theorem startRestart_mem (b : Bool) (s : State) : (startRestart b s).mem = s.mem := by
  simp [startRestart]
@[simp] theorem flushHeld_mem (s : State) (c : Nat) (n : Nat) : (flushHeld s c n).mem = s.mem := by
  simp [flushHeld]
@[simp] theorem renewChan_mem (core : Nat) (s : State) (e : Nat × ChanCfg) : (renewChan core s e).mem = s.mem := by
  unfold renewChan; dsimp only; (repeat' split) <;> simp_all
@[simp] theorem compareTask_mem (s : State) (core : Nat) (n : Nat) (r : TaskRun) : (compareTask s core n r).1.mem = s.mem := by
  simp [compareTask]
@[simp] theorem writePred_mem (x : Issue) (d : Nat) (f : Ctx → Bool) (s : State) : (actState (writePred x d f s)).mem = s.mem := by
  rfl
@[simp] theorem tellLost_mem (s : State) (fn : Nat) : (tellLost s fn).mem = s.mem := by
  unfold tellLost; (repeat' split) <;> simp_all
theorem recvPlain_mem (h : FrameHdr) (deliver : State → State) (s : State) (hb : ∀ t, (deliver t).mem = t.mem) :
    (recvPlain h deliver s).mem = s.mem := by
  unfold recvPlain; (try dsimp only); (repeat' split) <;> simp [hb]
@[simp] theorem takeNak_mem (l : Nat) (e : BitVec 12) (s : State) : (takeNak l e s).mem = s.mem := by
  unfold takeNak; dsimp only; (repeat' split) <;> simp_all
@[simp] theorem settleTables_mem (s : State) (t : Nat) : (settleTables s t).mem = s.mem := by
  simp [settleTables]
@[simp] theorem onBand_mem (s : State) (b : Nat) (g : Band → Band) : (onBand s b g).mem = s.mem := by
  unfold onBand; (repeat' split) <;> simp_all
@[simp] theorem abortAll_mem (s : State) : (abortAll s).mem = s.mem := by
  simp [abortAll]
@[simp] theorem uangoStart_mem (s : State) : (uangoStart s).mem = s.mem := by
  rfl
@[simp] theorem resumeScrubs_mem (s : State) : (resumeScrubs s).mem = s.mem := by
  rfl
@[simp] theorem enterRecovery_mem (s : State) : (enterRecovery s).mem = s.mem := by
  simp [enterRecovery]
@[simp] theorem setEmResult_mem (s : State) (st : Half) : (setEmResult s st).mem = s.mem := by
  rfl
@[simp] theorem readRun_mem (t : Nat) (a : State × List Byte × Option Cause) (r : Nat × Nat) : (readRun t a r).1.mem = a.1.mem := by
  have h := vaRead_mem a.1 t r.1 r.2 .clean
  unfold readRun
  split <;> rename_i h1 <;> rw [h1] at h <;> exact h
@[simp] theorem sendDone_mem (s : State) (c : Nat) (status : Nat) (doneb : Nat) : (sendDone s c status doneb).mem = s.mem := by
  simp [sendDone]
@[simp] theorem keepOpen_mem (c : Nat) (tr : Transfer) (s : State) (o : List Transfer) : (keepOpen c tr s o).mem = s.mem := by
  rfl
@[simp] theorem pumpRead_mem (c : Nat) (s : State) (tr : Transfer) (t : Nat) (w : BitVec 512) : (pumpRead c s tr t w).mem = s.mem := by
  have h : ∀ l, (List.foldl (readRun t) (s, [], none) l).1.mem = s.mem := fun l => foldl1_mem _ _ (s, [], none) (readRun_mem t)
  unfold pumpRead
  split
  · rfl
  · (try dsimp only)
    split <;> simp [h]
@[simp] theorem finishRead_mem (s : State) (d : Nat) (i : Half) (err : Option Cause) (bytes : List Byte) : (finishRead s d i err bytes).mem = s.mem := by
  unfold finishRead; dsimp only; (repeat' split) <;> simp_all
@[simp] theorem endWrite_mem (c : Nat) (s : State) (tr : Transfer) (err : Option Cause) (n : Nat) : (endWrite c s tr err n).mem = s.mem := by
  unfold endWrite; (repeat' split) <;> simp_all
@[simp] theorem endSwitch_mem (st : Half) (s : State) : (endSwitch st s).mem = s.mem := by
  simp [endSwitch]
@[simp] theorem releaseFrame_mem (s : State) (f : Nat) : (releaseFrame s f).mem = s.mem := by
  unfold releaseFrame; dsimp only; (repeat' split) <;> simp_all
@[simp] theorem setJob_mem (s : State) (t : Nat) (page : Nat) (w : PageWork) (inv : Nat) : (setJob s t page w inv).mem = s.mem := by
  rfl
@[simp] theorem endUnmap_mem (s : State) (c : Nat) : (endUnmap s c).mem = s.mem := by
  unfold endUnmap; (repeat' split) <;> simp_all
@[simp] theorem enterKeyx_mem (s : State) (l : Nat) : (enterKeyx s l).mem = s.mem := by
  unfold enterKeyx; (repeat' split) <;> simp_all
@[simp] theorem enterUp_mem (s : State) (l : Nat) (again : Bool) : (enterUp s l again).mem = s.mem := by
  unfold enterUp; dsimp only; (repeat' split) <;> simp_all
@[simp] theorem leaveHello_mem (s : State) (l : Nat) (same : Bool) : (leaveHello s l same).mem = s.mem := by
  unfold leaveHello; (repeat' split) <;> simp_all
@[simp] theorem startRekey_mem (s : State) (l : Nat) : (startRekey s l).mem = s.mem := by
  unfold startRekey; dsimp only; (repeat' split) <;> simp_all
@[simp] theorem keepLanes_mem (s : State) (l : Nat) (lanes : BitVec 4) (margins : List Nat) (st : LinkSt) (re : Bool) : (keepLanes s l lanes margins st re).mem = s.mem := by
  rfl
@[simp] theorem readSegs_mem (s : State) (out : PortOutcome) (l : List (Nat × Nat)) : (readSegs s out l).1.mem = s.mem := by
  induction l generalizing s out with
  | nil => rfl
  | cons e l ih => unfold readSegs; (try dsimp only); grind [physRead_mem]
@[simp] theorem peekPage_mem (s : State) (t : Nat) (va : Nat) (n : Nat) : (peekPage s t va n).1.mem = s.mem := by
  unfold peekPage; (repeat' split) <;> simp_all
@[simp] theorem peek_mem (s : State) (t n va : Nat) : (peek s t n va).1.mem = s.mem := by
  induction n generalizing va with
  | zero => rfl
  | succ n ih => unfold peek; (try dsimp only); grind [peekPage_mem]
@[simp] theorem pcieReset_mem (s : State) : (pcieReset s).mem = s.mem := by
  rfl
@[simp] theorem setSpdm_mem (s : State) (p : SidePort) (x : Spdm) : (setSpdm s p x).mem = s.mem := by
  unfold setSpdm; (repeat' split) <;> simp_all
@[simp] theorem settleSwitch_mem (s : State) : (settleSwitch s).mem = s.mem := by
  unfold settleSwitch; dsimp only; (repeat' split) <;> simp_all
@[simp] theorem clearGrads_mem (s : State) (t : Nat) (n : Nat) : (clearGrads s t n).mem = s.mem := by
  rfl
@[simp] theorem signalStep_mem (s : State) (uid : Word64) : (signalStep s uid).mem = s.mem := by
  unfold signalStep; exact foldl_mem _ _ _ (by intros; (repeat' split) <;> simp_all)
@[simp] theorem numberCores_mem (s : State) : (numberCores s).mem = s.mem := by
  unfold numberCores; (repeat' split) <;> simp_all
@[simp] theorem sendRead_mem (x : Issue) (who : Requester) (va : Word64) (pa : Nat) (n : Nat) (s : State) : (actState (sendRead x who va pa n s)).mem = s.mem := by
  unfold sendRead; dsimp only; (repeat' split) <;> simp_all
@[simp] theorem joinPair_mem (s : State) (q : Setup) (job : Half) (far : Nat × Nat) (cfg : ChanCfg) (uid : Word64) : (joinPair s q job far cfg uid).mem = s.mem := by
  unfold joinPair; dsimp only; (repeat' split) <;> simp_all
@[simp] theorem askEpoch_mem (s : State) (t : Nat) (n : Nat) : (askEpoch s t n).mem = s.mem := by
  unfold askEpoch; (repeat' split) <;> simp_all
@[simp] theorem askAll_mem (s : State) : (askAll s).mem = s.mem := by
  simp [askAll]
@[simp] theorem evacuateAll_mem (s : State) : (evacuateAll s).mem = s.mem := by
  unfold evacuateAll; dsimp only; (repeat' split) <;> (try simp_all) <;> (rw [foldl_mem] <;> (try simp_all)) <;> (intros; (repeat' split) <;> simp_all)
@[simp] theorem levelActions_mem (a : Nat) (b : Nat) (s : State) : (levelActions a b s).mem = s.mem := by
  unfold levelActions; (repeat' split) <;> simp_all
@[simp] theorem killJobTasks_mem (s : State) (t : Nat) (n : Nat) : (killJobTasks s t n).mem = s.mem := by
  unfold killJobTasks; grind [setHandle_mem, cancelTask_mem, refreshWait_mem, onCore_mem, killCtx_mem, foldl_mem]
@[simp] theorem stopNow_mem (s : State) (t : Nat) (n : Nat) : (stopNow s t n).mem = s.mem := by
  unfold stopNow; dsimp only; (repeat' split) <;> simp
theorem pfPlace_mem (x : Issue) (t va : Nat) (s : State) (p : Nat × State) (h0 : pfPlace x t va s = some p) : p.2.mem = s.mem := by
  unfold pfPlace at h0; (try dsimp only at h0)
  (repeat' split at h0) <;> first | (simp at h0; done) | (cases h0; simp)
theorem pfSend_mem (x : Issue) (t : Nat) (l : List Nat) (n : Nat) (s t0 : State) (h0 : pfSend x t l n s = some t0) : t0.mem = s.mem := by
  induction l generalizing s with
  | nil => simp_all [pfSend]
  | cons e l ih =>
    unfold pfSend at h0; (try dsimp only at h0)
    (repeat' split at h0) <;> first | (simp at h0; done) | (rw [ih _ h0]; simp)
@[simp] theorem cleanPage_mem (t : Nat) (s : State) (p : Nat) : (cleanPage t s p).mem = s.mem := by
  unfold cleanPage; (repeat' split) <;> simp_all
@[simp] theorem startEpoch_mem (s : State) (t : Nat) (jn : Nat) (n : Nat) (j : Job) : (startEpoch s t jn n j).mem = s.mem := by
  simp [startEpoch]
@[simp] theorem startMove_mem (x : Issue) (load : Bool) (tile : Nat) (lo : Nat) (hi : Nat) (whole : Bool) (parts : List MovePart) (s : State) : (startMove x load tile lo hi whole parts s).mem = s.mem := by
  unfold startMove; (repeat' split) <;> simp_all
@[simp] theorem endFrameRotation_mem (s : State) (t : Nat) (f : Nat) : (endFrameRotation s t f).mem = s.mem := by
  unfold endFrameRotation; dsimp only; (repeat' split) <;> simp_all
@[simp] theorem rewriteTrees_mem (s : State) (p : Bool) : (rewriteTrees s p).mem = s.mem := by
  unfold rewriteTrees
  refine foldl_mem _ _ _ fun s c => ?_
  dsimp only
  split
  · have h1 : ∀ g, (installMcast (onRouters s p fun r => { r with groups := del r.groups g }) p c.2.cfg.plane g c.2.cores).mem = s.mem := by simp
    split
    · refine getD_mem (fun t h => (installTree_mem _ _ _ _ _ _ h).trans ?_) ?_ <;> (split <;> simp)
    · split <;> simp
  · rfl
@[simp] theorem pinLeaf_mem (t : Nat) (on : Bool) (s : State) (e : Nat × Leaf × Bool) : (pinLeaf t on s e).mem = s.mem := by
  rfl
@[simp] theorem sendPrefix_mem (s : State) (c : Nat) (x : DmaCur) : (sendPrefix s c x).mem = s.mem := by
  unfold sendPrefix; dsimp only; (repeat' split) <;> simp_all
@[simp] theorem takeDone_mem (status : Nat) (doneb : Nat) (c : Nat) (s : State) : (takeDone status doneb c s).mem = s.mem := by
  unfold takeDone; dsimp only; (repeat' split) <;> simp_all
@[simp] theorem queueEngine_mem (x : Issue) (e : EngCmd) (s : State) : (actState (queueEngine x e s)).mem = s.mem := by
  unfold queueEngine; (repeat' split) <;> simp_all
@[simp] theorem indirect_mem (t : Word64) (s : State) : (actState (indirect t s)).mem = s.mem := by
  unfold indirect; (repeat' split) <;> simp_all
@[simp] theorem dropJob_mem (s : State) (t : Nat) (page : Nat) : (dropJob s t page).mem = s.mem := by
  rfl
@[simp] theorem farReadError_mem (s : State) (b : Nat) (c : Cause) : (farReadError s b c).mem = s.mem := by
  unfold farReadError; dsimp only; (repeat' split) <;> simp_all
@[simp] theorem frameReadError_mem (s : State) (b : Nat) (c : Cause) : (frameReadError s b c).mem = s.mem := by
  unfold frameReadError; (repeat' split) <;> simp_all
@[simp] theorem extendSet_mem (s : State) (a : HostAcc) : (extendSet s a).mem = s.mem := by
  unfold extendSet; split <;> rfl
@[simp] theorem losePage_mem (s : State) (t : Nat) (va : Nat) (c : Cause) : (losePage s t va c).mem = s.mem := by
  unfold losePage; (repeat' split) <;> simp_all
@[simp] theorem submitPi_mem (s : State) (c : Nat) (gn : Half) (cnt : Option (Nat × Nat)) : (submitPi s c gn cnt).mem = s.mem := by
  unfold submitPi; dsimp only; (repeat' split) <;> simp_all
@[simp] theorem giveRoots_mem (s : State) (t : Nat) : (giveRoots s t).mem = s.mem := by
  simp [giveRoots]
@[simp] theorem drawKeys_mem (s : State) (t : Nat) : (drawKeys s t).mem = s.mem := by
  unfold drawKeys; dsimp only; (repeat' split) <;> simp_all
@[simp] theorem rsrBody_mem (x : Issue) (d : Nat) (sys : Nat) (s : State) : (actState (rsrBody x d sys s)).mem = s.mem := by
  unfold rsrBody; dsimp only; (repeat' split) <;> simp_all
@[simp] theorem askNodes_mem (s : State) (f : Nat) (g : GCmd) (b : BitVec 512) (gr : Graph) (needs : List (Nat × Nat)) : (askNodes s f g b gr needs).mem = s.mem := by
  simp [askNodes]
@[simp] theorem takeDesc_mem (s : State) (c : Nat) (w : BitVec 512) : (takeDesc s c w).mem = s.mem := by
  unfold takeDesc; dsimp only; (repeat' split) <;> simp_all
@[simp] theorem ringStop_mem (s : State) (c : Nat) (e : Cause) : (ringStop s c e).mem = s.mem := by
  simp [ringStop]
@[simp] theorem startSound_mem (s : State) (core : Nat) (e : VEntry) (out : PortOutcome) : (startSound s core e out).mem = s.mem := by
  have hl := lsRead_mem s (lsAddr core e.s0.toNat) 256 out
  unfold startSound
  extract_lets k started fails at_
  have hs : ∀ s r ov, (started s r ov).mem = s.mem := fun s r ov => by simp [started]
  have hf : ∀ s c a, (fails s c a).mem = s.mem := fun s c a => by simp [fails]
  clear_value started fails
  generalize lsRead s (lsAddr core e.s0.toNat) 256 out = q at hl ⊢
  obtain ⟨s1, o⟩ := q
  simp only at hl
  cases o <;> (repeat' split) <;> first
    | (simp [hs, hf]; done)
    | (rename_i h1; simp only [Prod.mk.injEq, Option.some.injEq, reduceCtorEq, and_false] at h1; done)
    | (rename_i h1; simp only [Prod.mk.injEq] at h1; simp [hs, hf, ← h1.1, hl])
@[simp] theorem startEntry_mem (s : State) (core : Nat) (e : VEntry) (out : PortOutcome) : (startEntry s core e out).mem = s.mem := by
  have hl := sramRead_mem s core out
  unfold startEntry
  split
  · split <;> rename_i h1 <;> rw [h1] at hl
    · dsimp only
      split <;> simpa using hl
    · simpa using hl
  · simp
@[simp] theorem dropProg_mem (s : State) (t : Nat) (p : Nat) : (dropProg s t p).mem = s.mem := by
  rfl
@[simp] theorem redIn_mem (h : FrameHdr) (q : RedSlot) (s : State) : (redIn h q s).mem = s.mem := by
  unfold redIn; dsimp only; (repeat' split) <;> simp_all
@[simp] theorem sharedRecords_mem (s : State) (pf : Bool) : (sharedRecords s pf).2.mem = s.mem := by
  rfl
theorem setRecords_mem (s : State) (set t : Nat) (pf own : Bool) (r : List (List Nat) × State) (h0 : setRecords s set t pf own = some r) : r.2.mem = s.mem := by
  unfold setRecords at h0; (repeat' split at h0) <;> first | (simp at h0; done) | (cases h0; simp)
@[simp] theorem moveFrames_mem (s : State) (sibs : List Nat) (fs : List TxFrame) : (moveFrames s sibs fs).mem = s.mem := by
  unfold moveFrames; dsimp only; (repeat' split) <;> (try simp_all) <;> (rw [foldl_mem] <;> (try simp_all)) <;> (intros; (repeat' split) <;> simp_all)
@[simp] theorem takeFovAns_mem (named : Nat) (e : BitVec 12) (s : State) : (takeFovAns named e s).mem = s.mem := by
  unfold takeFovAns; dsimp only; (repeat' split) <;> simp_all
@[simp] theorem coolDown_mem (temps : List (Int × Nat)) (s : State) : (coolDown temps s).mem = s.mem := by
  unfold coolDown; dsimp only; (repeat' split) <;> simp_all
@[simp] theorem applyReading_mem (temps : List (Int × Nat)) (s : State) : (applyReading temps s).mem = s.mem := by
  rfl
@[simp] theorem shareEnergy_mem (energyJ : Nat) (w : List (Nat × Nat × Nat) × Nat) (s : State) : (shareEnergy energyJ w s).mem = s.mem := by
  rfl
@[simp] theorem unmapPage_mem (t : Nat) (c : Nat) (s : State) (e : Nat × Leaf × Bool) : (unmapPage t c s e).mem = s.mem := by
  simp [unmapPage]
@[simp] theorem unmapRange_mem (s : State) (t : Nat) (c : Nat) (va : Nat) (n : Nat) : (unmapRange s t c va n).mem = s.mem := by
  simp [unmapRange]
@[simp] theorem sliceOne_mem (core : Nat) (s : State × List (Word64 × Word64)) (w : Nat × Nat × Nat) : (sliceOne core s w).1.mem = s.1.mem := by
  unfold sliceOne; dsimp only; (repeat' split) <;> simp_all
@[simp] theorem attachVf_mem (s : State) (n : Nat) : (attachVf s n).mem = s.mem := by
  unfold attachVf; (repeat' split) <;> simp_all
theorem sendWrite_mem (x : Issue) (who : Requester) (st : ReqState) (va : Word64) (pa n : Nat) (bytes : List Byte) (go : State → Act) (s : State)
    (hb : ∀ t, (actState (go t)).mem = t.mem) : (actState (sendWrite x who st va pa n bytes go s)).mem = s.mem := by
  unfold sendWrite; (try dsimp only); (repeat' split) <;> simp [hb]
@[simp] theorem writeExps_mem (t : Nat) (n : Nat) (l : Tab ScaleRec) (s : State) : (writeExps t n l s).mem = s.mem := by
  rfl
@[simp] theorem stallEvents_mem (t : Nat) (n : Nat) (mask : Word64) (l : Tab ScaleRec) (s : State) : (stallEvents t n mask l s).mem = s.mem := by
  unfold stallEvents; exact foldl_mem _ _ _ (by intros; (repeat' split) <;> simp_all)
@[simp] theorem abandonEviction_mem (s : State) (t : Nat) (va : Nat) (f : Nat) : (abandonEviction s t va f).mem = s.mem := by
  unfold abandonEviction; (repeat' split) <;> simp_all
@[simp] theorem takeGsub_mem (s : State) (core : Nat) (e : EngCmd) : (takeGsub s core e).mem = s.mem := by
  rfl
@[simp] theorem takeDsub_mem (s : State) (core : Nat) (e : EngCmd) : (takeDsub s core e).mem = s.mem := by
  unfold takeDsub; dsimp only; (repeat' split) <;> simp_all
@[simp] theorem trainFail_mem (s : State) (l : Nat) : (trainFail s l).mem = s.mem := by
  unfold trainFail; dsimp only; (repeat' split) <;> simp_all
@[simp] theorem restoreFails_mem (s : State) (t : Nat) (n : Nat) (j : Job) (c : Cause) : (restoreFails s t n j c).2.mem = s.mem := by
  rfl
@[simp] theorem takeFovReq_mem (l : Nat) (named : Nat) (s : State) : (takeFovReq l named s).mem = s.mem := by
  unfold takeFovReq; (repeat' split) <;> simp_all
@[simp] theorem finishMark_mem (s : State) (t : Nat) : (finishMark s t).mem = s.mem := by
  simp [finishMark]
@[simp] theorem ackBlock_mem (s : State) (t : Nat) (tbl : Nat) (row : Nat) (blk : Nat) : (ackBlock s t tbl row blk).mem = s.mem := by
  rfl
@[simp] theorem injectSlots_mem (x : Table) (a : Int) (slots : List (Nat × List (List Int × Bool))) (s : State) : (injectSlots x a slots s).1.mem = s.mem := by
  simp [injectSlots]
@[simp] theorem someSlots_mem (x : Table) (a : Int) (slots : List (Nat × List (List Int × Bool))) (s : State) : (someSlots x a slots s).mem = s.mem := by
  simp [someSlots]
@[simp] theorem noteGather_mem (t : Nat) (s : State) (va : Nat) : (noteGather t s va).mem = s.mem := by
  unfold noteGather; (repeat' split) <;> simp_all
@[simp] theorem addBlock_mem (s : State) (p : Bool) (r : Nat) (inp : Nat) (ins : List Nat) (k : Packet) : (addBlock s p r inp ins k).mem = s.mem := by
  unfold addBlock; dsimp only; (repeat' split) <;> simp_all
@[simp] theorem startTask_mem (t h n : Nat) (s : State) : (startTask t h n s).mem = s.mem := by
  unfold startTask; dsimp only; (repeat' split) <;> simp
@[simp] theorem setStCtx_mem (s : State) (c : Nat) (n : Nat) (x : Ctx) : (setStCtx s c n x).mem = s.mem := by
  rfl
@[simp] theorem freshId_mem (s : State) : (freshId s).2.mem = s.mem := by
  rfl
@[simp] theorem State.withFetchWord_mem (s : State) (nbits : Nat) (w : Nat) : (State.withFetchWord s nbits w).mem = s.mem := by
  unfold State.withFetchWord; (repeat' split) <;> simp_all
end Sys2Proof.Machine
end

