-- ==== Sys2Proof/Laws/Canonical.lean ====
section
/-! SUPPORT. Every shared operation that writes bytes of the module keeps them in their canonical form: one lemma each. -/

namespace Sys2Proof.Machine
open Sys2Proof

theorem foldl_kept {α β : Type} (v : β → Prop) (g : β → α → β) (l : List α) (b : β) (h : ∀ b x, v b → v (g b x)) (hb : v b) :
    v (l.foldl g b) := by
  induction l generalizing b with
  | nil => exact hb
  | cons a l ih => exact ih _ (h _ _ hb)

theorem foldl_wf {α : Type} (g : State → α → State) (l : List α) (s : State)
    (h : ∀ s x, Memory.wf s.mem = true → Memory.wf (g s x).mem = true) (hw : Memory.wf s.mem = true) :
    Memory.wf (l.foldl g s).mem = true := foldl_kept (fun s => Memory.wf s.mem = true) g l s h hw

theorem foldl_eq_wf {α : Type} (g : State → α → State) (l : List α) (s : State)
    (h : ∀ s x t, g s x = t → Memory.wf s.mem = true → Memory.wf t.mem = true) (hw : Memory.wf s.mem = true) :
    Memory.wf (l.foldl g s).mem = true := foldl_wf g l s (fun s x => h s x _ rfl) hw

theorem foldl1_wf {α β : Type} (g : State × β → α → State × β) (l : List α) (s : State × β)
    (h : ∀ s x, Memory.wf s.1.mem = true → Memory.wf (g s x).1.mem = true) (hw : Memory.wf s.1.mem = true) :
    Memory.wf (l.foldl g s).1.mem = true := foldl_kept (fun p => Memory.wf p.1.mem = true) g l s h hw

theorem foldl2_wf {α β : Type} (g : β × State → α → β × State) (l : List α) (s : β × State)
    (h : ∀ s x, Memory.wf s.2.mem = true → Memory.wf (g s x).2.mem = true) (hw : Memory.wf s.2.mem = true) :
    Memory.wf (l.foldl g s).2.mem = true := foldl_kept (fun p => Memory.wf p.2.mem = true) g l s h hw

theorem writeUnit_wf (s : State) (u : Nat) (ps : List (Nat × List Byte)) (out : PortOutcome) (hw : Memory.wf s.mem = true) :
    Memory.wf (writeUnit s u ps out).1.mem = true := by
  unfold writeUnit
  extract_lets base host put fv
  have hp : ∀ s : State, Memory.wf s.mem = true → Memory.wf (put s).mem = true := fun s h => wf_foldl_setBytes _ _ _ _ h
  have hf : Memory.wf fv.2.mem = true := by simpa [fv] using hw
  have hr := readCheck_mem s base 16384 out
  clear_value put base
  split
  · exact hw
  · split
    · simp only; split
      · simpa using hp _ hf
      · exact hf
    · split
      · simpa using hp _ hw
      · split <;> rename_i h1 <;> rw [h1] at hr <;> simp only at hr
        · simpa [hr] using hw
        · simpa [hr] using hw
        · simpa [hr] using hw
        · simpa using hp _ (by simpa [hr] using hw)

theorem farWriteBytes_wf (s : State) (pa : Nat) (bytes : List Byte) (out : PortOutcome) (hw : Memory.wf s.mem = true) :
    Memory.wf (farWriteBytes s pa bytes out).1.mem = true := by
  unfold farWriteBytes; split
  · exact hw
  · exact foldl1_wf _ _ (s, none) (fun a c h => writeUnit_wf a.1 _ [c] out h) hw

theorem writeSector_wf (out : PortOutcome) (a : State × Option Cause) (c : Nat × List Byte) (hw : Memory.wf a.1.mem = true) :
    Memory.wf (writeSector out a c).1.mem = true := by
  unfold writeSector
  have h := readCheck_mem a.1 (c.1 / 512 * 512) 512 out
  dsimp only
  split
  · split <;> rename_i h1 <;> rw [h1] at h <;> simp only at h
    · rw [h]; exact hw
    · simp only [h]; exact wf_setBytes _ _ _ hw
  · exact wf_setBytes _ _ _ hw

theorem watchWrite_wf (s : State) (pa : Nat) (bytes : List Byte) (hw : Memory.wf s.mem = true) : Memory.wf (watchWrite s pa bytes).mem = true := by
  unfold watchWrite; dsimp only
  split
  · exact hw
  · refine foldl_wf _ _ _ (fun s x h => ?_) (by simpa using hw)
    split
    · exact h
    · split
      · exact wf_lsWrite _ _ _ h
      · exact writeSector_wf _ _ _ h

theorem physWrite_wf (s : State) (pa : Nat) (bytes : List Byte) (out : PortOutcome) (hw : Memory.wf s.mem = true) :
    Memory.wf (physWrite s pa bytes out).1.mem = true := by
  unfold physWrite
  (repeat' split) <;> first
    | exact hw
    | exact watchWrite_wf _ _ _ hw
    | exact wf_lsWrite _ _ _ hw
    | exact foldl1_wf _ _ (s, none) (fun a p h => writeSector_wf out a p h) hw

theorem anyWrite_wf (s : State) (pa : Nat) (bytes : List Byte) (out : PortOutcome) (hw : Memory.wf s.mem = true) : Memory.wf (anyWrite s pa bytes out).1.mem = true := by
  unfold anyWrite; (try dsimp only); (repeat' split) <;> simp [hw, wf_setBytes, wf_zeroRange, wf_copyRange, wf_writeBlock, farWriteBytes_wf, physWrite_wf]

theorem vaWriteGo_wf (t : Nat) (out : PortOutcome) (l : List (Nat × List Byte)) (s : State) (hw : Memory.wf s.mem = true) :
    Memory.wf (vaWriteGo t out l s).1.mem = true := by
  induction l generalizing s with
  | nil => exact hw
  | cons e l ih => unfold vaWriteGo; grind [anyWrite_wf, setLeaf_mem]

theorem vaWrite_wf (s : State) (t va : Nat) (bs : List Byte) (out : PortOutcome) (hw : Memory.wf s.mem = true) :
    Memory.wf (vaWrite s t va bs out).1.mem = true := vaWriteGo_wf _ _ _ _ hw

theorem writeOuts_wf (t : Nat) (out : PortOutcome) (ps : List (Nat × List Byte)) (s : State) (hw : Memory.wf s.mem = true) :
    Memory.wf (writeOuts t out ps s).1.mem = true :=
  foldl1_wf _ _ (s, none) (fun a p h => by
    have h2 := vaWrite_wf a.1 t p.1 p.2 out h
    split <;> rename_i h1 <;> rw [h1] at h2 <;> exact h2) hw

theorem writeTile_wf (t : Nat) (out : PortOutcome) (a : State × Option (Cause × Nat)) (p : Nat × List Byte) (hw : Memory.wf a.1.mem = true) :
    Memory.wf (writeTile t out a p).1.mem = true := by
  unfold writeTile; grind [vaWrite_wf, freeValue_mem]

theorem writeBurst_wf (t : Nat) (out : PortOutcome) (w : BitVec 512) (ps : List (Nat × List Byte)) (s : State) (hw : Memory.wf s.mem = true) :
    Memory.wf (writeBurst t out w ps s).1.mem = true := by
  unfold writeBurst; split
  · exact foldl1_wf _ _ (s, none) (fun a p h => writeTile_wf t out a p h) hw
  · exact writeOuts_wf t out ps s hw

theorem writeTurn_wf (t : Nat) (ps : List (Nat × List Byte)) (s : State) (hw : Memory.wf s.mem = true) :
    Memory.wf (writeTurn t ps s).1.mem = true := by
  induction ps generalizing s with
  | nil => exact hw
  | cons p ps ih => unfold writeTurn; grind [vaWrite_wf]

theorem finishOuts_wf (s : State) (f : Nat) (g : GCmd) (outs : List (Nat × List Byte)) (last : Nat × List Byte) (counts : List Nat) (adds : List (Nat × Nat)) (hw : Memory.wf s.mem = true) : Memory.wf (finishOuts s f g outs last counts adds).mem = true := by
  unfold finishOuts; grind [vaWrite_wf, writeTurn_wf, failCmd_mem, putCmd_mem, foldl_wf, wf_setBytes, wf_zeroRange, wf_copyRange, wf_writeBlock]

theorem halfWrite_wf (t : Nat) (ps : List (Nat × List Byte)) (s : State) (hw : Memory.wf s.mem = true) : Memory.wf (halfWrite t ps s).mem = true := by
  unfold halfWrite; grind [vaWrite_wf, foldl_mem, freeBits_mem, foldl_wf, wf_setBytes, wf_zeroRange, wf_copyRange, wf_writeBlock]

theorem someOuts_wf (s : State) (t : Nat) (outs : List (Nat × List Byte)) (hw : Memory.wf s.mem = true) : Memory.wf (someOuts s t outs).mem = true := by
  unfold someOuts; (try dsimp only); (repeat' split) <;> simp [hw, wf_setBytes, wf_zeroRange, wf_copyRange, wf_writeBlock, halfWrite_wf]

theorem fetchBlocks_wf (f : Nat) (g : GCmd) (err : Option BadAccess) (copies : List (Except GStop (List (Nat × List Byte)))) (others : List (Nat × List Byte)) (head : Nat × List Byte) (adds : List (Nat × Nat)) (s : State) (hw : Memory.wf s.mem = true) : Memory.wf (fetchBlocks f g err copies others head adds s).mem = true := by
  unfold fetchBlocks; (try dsimp only); grind [failCmd_mem, failAccess_mem, finishOuts_wf, someOuts_wf, writeTurn_wf]

theorem scrubCore_wf (s : State) (c : Nat) (t : Option Nat) (hw : Memory.wf s.mem = true) : Memory.wf (scrubCore s c t).mem = true :=
  wf_zeroRange _ _ _ hw

theorem wipeCore_wf (s : State) (c : Nat) (hw : Memory.wf s.mem = true) : Memory.wf (wipeCore s c).mem = true :=
  scrubCore_wf _ c (coreOf s c).tenant hw

theorem writeDist_wf (s : State) (b : Nat) (hw : Memory.wf s.mem = true) : Memory.wf (writeDist s b).mem = true := by
  unfold writeDist; dsimp only; split
  · exact hw
  · exact wf_writeBlock _ _ _ hw

theorem publishMap_wf (s : State) (hw : Memory.wf s.mem = true) : Memory.wf (publishMap s).mem = true := by
  unfold publishMap; (try dsimp only); (repeat' split) <;> simp [hw, wf_setBytes, wf_zeroRange, wf_copyRange, wf_writeBlock, writeDist_wf]

theorem watchReq_wf (s : State) (c : Cause) (id : Nat) (hw : Memory.wf s.mem = true) : Memory.wf (watchReq s c id).mem = true := by
  unfold watchReq; grind [anyWrite_wf, foldl_mem, foldl_wf, wf_setBytes, wf_zeroRange, wf_copyRange, wf_writeBlock]

theorem endPacket_wf (s0 : State) (p : Bool) (c : Cause) (k : Packet) (hw : Memory.wf s0.mem = true) : Memory.wf (endPacket s0 p c k).mem = true := by
  unfold endPacket; (try dsimp only); (repeat' split) <;> simp [hw, wf_setBytes, wf_zeroRange, wf_copyRange, wf_writeBlock, watchReq_wf]

theorem leave_wf (s : State) (p : Bool) (r : Nat) (port : Nat) (k : Packet) (hw : Memory.wf s.mem = true) : Memory.wf (leave s p r port k).mem = true := by
  unfold leave; (try dsimp only); (repeat' split) <;> simp [hw, wf_setBytes, wf_zeroRange, wf_copyRange, wf_writeBlock, endPacket_wf]

theorem emit_wf (s : State) (p : Bool) (r : Nat) (inp : Nat) (port : Nat) (k : Packet) (hw : Memory.wf s.mem = true) : Memory.wf (emit s p r inp port k).mem = true := by
  unfold emit; (try dsimp only); (repeat' split) <;> simp_all [wf_setBytes, wf_zeroRange, wf_copyRange, wf_writeBlock, endPacket_wf, leave_wf]

theorem sendSum_wf (s : State) (p : Bool) (r : Nat) (q : RedSlot) (o : Nat) (hw : Memory.wf s.mem = true) : Memory.wf (sendSum s p r q o).mem = true := by
  unfold sendSum; (try dsimp only); (repeat' split) <;> simp [hw, wf_setBytes, wf_zeroRange, wf_copyRange, wf_writeBlock, emit_wf]

theorem forward_wf (s : State) (p : Bool) (r : Nat) (inp : Nat) (k : Packet) (hw : Memory.wf s.mem = true) : Memory.wf (forward s p r inp k).mem = true := by
  unfold forward; grind [emit_wf, endPacket_wf, foldl_mem, setRouter_mem, foldl_wf, wf_setBytes, wf_zeroRange, wf_copyRange, wf_writeBlock]

theorem moveOne_wf (s : State) (p : Bool) (r : Nat) (hw : Memory.wf s.mem = true) (t0 : State) (h0 : moveOne s p r = some t0) :
    Memory.wf t0.mem = true := by
  unfold moveOne at h0; dsimp only at h0
  split at h0
  · cases h0; exact sendSum_wf _ _ _ _ _ hw
  · split at h0
    · cases h0; simpa using hw
    · obtain ⟨e, -, h⟩ := Option.map_eq_some_iff.1 h0
      rw [← h]; exact forward_wf _ _ _ _ _ (by simpa using hw)

theorem pump_wf (p : Bool) (r n : Nat) (s : State) (hw : Memory.wf s.mem = true) : Memory.wf (pump p r n s).mem = true := by
  induction n generalizing s with
  | zero => exact hw
  | succ n ih =>
    unfold pump; split
    · rename_i h1; exact ih _ (moveOne_wf _ _ _ hw _ h1)
    · exact hw

theorem settleRouter_wf (s : State) (p : Bool) (r : Nat) (hw : Memory.wf s.mem = true) : Memory.wf (settleRouter s p r).mem = true := by
  unfold settleRouter; (try dsimp only); (repeat' split) <;> simp [hw, wf_setBytes, wf_zeroRange, wf_copyRange, wf_writeBlock, pump_wf]

theorem enterOne_wf (s : State) (p : Bool) (r : Nat) (e : Nat × Packet) (hw : Memory.wf s.mem = true) : Memory.wf (enterOne s p r e).mem = true := by
  unfold enterOne; (try dsimp only); (repeat' split) <;> simp [hw, wf_setBytes, wf_zeroRange, wf_copyRange, wf_writeBlock, settleRouter_wf]

theorem enterAll_wf (p : Bool) (r n : Nat) (s : State) (hw : Memory.wf s.mem = true) : Memory.wf (enterAll p r n s).mem = true := by
  induction n generalizing s with
  | zero => exact hw
  | succ n ih => unfold enterAll; split
                 · exact ih _ (enterOne_wf _ _ _ _ hw)
                 · exact hw

theorem work_wf (s : State) (p : Bool) (r : Nat) (hw : Memory.wf s.mem = true) : Memory.wf (work s p r).mem = true := by
  unfold work; (try dsimp only); (repeat' split) <;> simp [hw, wf_setBytes, wf_zeroRange, wf_copyRange, wf_writeBlock, enterAll_wf, settleRouter_wf]

theorem substitute_wf (s : State) (c : Nat) (x : Nat) (y : Nat) (hw : Memory.wf s.mem = true) : Memory.wf (substitute s c x y).mem = true := by
  unfold substitute; (try dsimp only); (repeat' split) <;> simp [hw, wf_setBytes, wf_zeroRange, wf_copyRange, wf_writeBlock, publishMap_wf, wipeCore_wf]

theorem retireCore_wf (s : State) (c : Nat) (hw : Memory.wf s.mem = true) : Memory.wf (retireCore s c).mem = true := by
  unfold retireCore; grind [publishMap_wf, wipeCore_wf, cancelTask_mem, completeObj_mem, foldl_mem, nextFill_mem, onCore_mem, postEvent_mem, postPf_mem, reportEnded_mem, setTenant_mem, tearDown_mem, foldl_wf, wf_setBytes, wf_zeroRange, wf_copyRange, wf_writeBlock]

theorem tryFallow_wf (s : State) (c : Nat) (hw : Memory.wf s.mem = true) : Memory.wf (tryFallow s c).mem = true := by
  unfold tryFallow; (try dsimp only); (repeat' split) <;> simp [hw, wf_setBytes, wf_zeroRange, wf_copyRange, wf_writeBlock, retireCore_wf]

theorem meshTick_wf (s : State) (hw : Memory.wf s.mem = true) : Memory.wf (meshTick s).mem = true := by
  unfold meshTick; grind [work_wf, foldl_mem, foldl_wf, wf_setBytes, wf_zeroRange, wf_copyRange, wf_writeBlock]

theorem moduleReset_wf (rails : Bool) (s : State) (hw : Memory.wf s.mem = true) : Memory.wf (moduleReset rails s).mem = true := by
  unfold moduleReset; simpa using wf_filter _ _ hw

theorem lsWrite_wf (s : State) (pa : Nat) (bs : List Byte) (hw : Memory.wf s.mem = true) : Memory.wf (lsWrite s pa bs).mem = true :=
  wf_lsWrite s pa bs hw

theorem passed_wf (s : State) (p : Bool) (r : Nat) (port : Nat) (i : Nat) (hw : Memory.wf s.mem = true) : Memory.wf (passed s p r port i).mem = true := by
  unfold passed; (try dsimp only); (repeat' split) <;> simp [hw, wf_setBytes, wf_zeroRange, wf_copyRange, wf_writeBlock, leave_wf]

theorem grant_wf (s : State) (p : Bool) (r : Nat) (port : Nat) (w : Nat) (ins : List Nat) (hw : Memory.wf s.mem = true) : Memory.wf (grant s p r port w ins).mem = true := by
  unfold grant; (try dsimp only); (repeat' split) <;> simp [hw, wf_setBytes, wf_zeroRange, wf_copyRange, wf_writeBlock, passed_wf]

theorem preempt_wf (s : State) (p : Bool) (r : Nat) (port : Nat) (w : Nat) (hw : Memory.wf s.mem = true) : Memory.wf (preempt s p r port w).mem = true := by
  unfold preempt; (try dsimp only); (repeat' split) <;> simp [hw, wf_setBytes, wf_zeroRange, wf_copyRange, wf_writeBlock, grant_wf, passed_wf]

theorem homeWrite_wf (t : Nat) (a : State × Option Cause) (e : Nat × List Byte) (hw : Memory.wf a.1.mem = true) :
    Memory.wf (homeWrite t a e).1.mem = true := by
  unfold homeWrite; dsimp only; (repeat' split) <;> first | exact hw | exact anyWrite_wf _ _ _ _ (by simpa using hw)

theorem uangoWrite_wf (s : State) (t va : Nat) (b : List Byte) (hw : Memory.wf s.mem = true) : Memory.wf (uangoWrite s t va b).1.mem = true :=
  foldl1_wf _ _ (s, none) (fun a e h => homeWrite_wf t a e h) hw

theorem restoreAll_wf (s : State) (t : Nat) (c : Ckpt) (uid : Word64) (b : Bool) (l : List ((Nat × Nat × Nat × Nat) × SegRef))
    (hw : Memory.wf s.mem = true) : Memory.wf (restoreAll s t c uid b l).1.mem = true := by
  unfold restoreAll; dsimp only
  split
  · exact foldl1_wf _ _ (s, none) (fun a g h => uangoWrite_wf _ _ _ _ h) hw
  · refine foldl1_wf _ _ _ (fun a g h => ?_) (by simpa using hw)
    (repeat' split) <;> first | exact h | exact uangoWrite_wf _ _ _ _ h

theorem clearVotes_wf (s : State) (t : Nat) (j : Job) (hw : Memory.wf s.mem = true) : Memory.wf (clearVotes s t j).mem = true := by
  unfold clearVotes; (try dsimp only); (repeat' split) <;> simp_all [wf_setBytes, wf_zeroRange, wf_copyRange, wf_writeBlock, uangoWrite_wf]

theorem writeStep_wf (s : State) (t : Nat) (j : Job) (hw : Memory.wf s.mem = true) : Memory.wf (writeStep s t j).mem = true := by
  unfold writeStep; grind [uangoWrite_wf, foldl_mem, foldl_wf, wf_setBytes, wf_zeroRange, wf_copyRange, wf_writeBlock]

theorem putStep_wf (s : State) (t : Nat) (n : Nat) (j : Job) (hw : Memory.wf s.mem = true) : Memory.wf (putStep s t n j).mem = true := by
  unfold putStep; (try dsimp only); (repeat' split) <;> simp [hw, wf_setBytes, wf_zeroRange, wf_copyRange, wf_writeBlock, writeStep_wf]

theorem resumeAt_wf (s : State) (t : Nat) (n : Nat) (j : Job) (step : Nat) (applied : Word64) (scales : Tab ScaleRec) (hw : Memory.wf s.mem = true) : Memory.wf (resumeAt s t n j step applied scales).mem = true := by
  unfold resumeAt; (try dsimp only); (repeat' split) <;> simp [hw, wf_setBytes, wf_zeroRange, wf_copyRange, wf_writeBlock, clearVotes_wf, putStep_wf]

theorem restoreLocal_wf (s : State) (t n : Nat) (j : Job) (c : Ckpt) (x : Epoch) (hw : Memory.wf s.mem = true) :
    Memory.wf (restoreLocal s t n j c x).2.mem = true := by
  unfold restoreLocal
  have h := restoreAll_wf s t c j.uid false ((segsOf s t j).zip x.entries) hw
  split <;> rename_i h1 <;> rw [h1] at h
  · exact resumeAt_wf _ _ _ _ _ _ _ h
  · simpa using h

theorem restoreBuddy_wf (s : State) (t : Nat) (n : Nat) (j : Job) (c : Ckpt) (epoch : Nat) (raw : List Byte) (hw : Memory.wf s.mem = true) : Memory.wf (restoreBuddy s t n j c epoch raw).2.mem = true := by
  unfold restoreBuddy; grind [restoreAll_wf, restoreLocal_wf, resumeAt_wf, restoreFails_mem, foldl_wf, wf_setBytes, wf_zeroRange, wf_copyRange, wf_writeBlock]

theorem writeUnits_wf (t : Nat) (w : BitVec 512) (l : List Nat) (x : Transfer × State) (hw : Memory.wf x.2.mem = true) :
    Memory.wf (writeUnits t w l x).2.1.mem = true := by
  induction l generalizing x with
  | nil => exact hw
  | cons u us ih =>
    obtain ⟨tr, s⟩ := x
    unfold writeUnits; dsimp only
    split
    · exact ih _ hw
    · rename_i b hb
      split
      · exact ih _ hw
      · have h := writeBurst_wf t .clean w (unitOut w (unitOf w tr.len u).1 b) s hw
        split <;> rename_i h1 <;> rw [h1] at h
        · exact ih _ (by simpa using h)
        · exact h

theorem pumpWrite_wf (c : Nat) (s : State) (tr : Transfer) (t : Nat) (w : BitVec 512) (hw : Memory.wf s.mem = true) : Memory.wf (pumpWrite c s tr t w).mem = true := by
  unfold pumpWrite; (try dsimp only); (repeat' split) <;> simp [hw, wf_setBytes, wf_zeroRange, wf_copyRange, wf_writeBlock, writeUnits_wf]

theorem pumpOne_wf (c : Nat) (s : State) (tr : Transfer) (hw : Memory.wf s.mem = true) : Memory.wf (pumpOne c s tr).mem = true := by
  unfold pumpOne; (try dsimp only); (repeat' split) <;> simp [hw, wf_setBytes, wf_zeroRange, wf_copyRange, wf_writeBlock, pumpWrite_wf]

theorem pumpChan_wf (c : Nat) (s : State) (hw : Memory.wf s.mem = true) : Memory.wf (pumpChan c s).mem = true := by
  unfold pumpChan; grind [pumpOne_wf, foldl_mem, foldl_wf, wf_setBytes, wf_zeroRange, wf_copyRange, wf_writeBlock]

theorem takeData_wf (cseq : Word32) (payload : List Byte) (c : Nat) (s : State) (hw : Memory.wf s.mem = true) : Memory.wf (takeData cseq payload c s).mem = true := by
  unfold takeData; (try dsimp only); (repeat' split) <;> simp [hw, wf_setBytes, wf_zeroRange, wf_copyRange, wf_writeBlock, pumpChan_wf]

theorem atBoundary_wf (s : State) (t : Nat) (j : Job) (hw : Memory.wf s.mem = true) : Memory.wf (atBoundary s t j).mem = true := by
  unfold atBoundary; (try dsimp only); (repeat' split) <;> simp [hw, wf_setBytes, wf_zeroRange, wf_copyRange, wf_writeBlock, clearVotes_wf, writeStep_wf]

theorem giveFrame_wf (s : State) (t f : Nat) (hw : Memory.wf s.mem = true) : Memory.wf (giveFrame s t f).mem = true := by
  unfold giveFrame; exact wf_zeroRange _ _ _ hw

theorem assignFrame_wf (s : State) (t f : Nat) (hw : Memory.wf s.mem = true) : Memory.wf (assignFrame s t f).mem = true := by
  have hg := giveFrame_wf s t f hw
  unfold assignFrame
  by_cases h : tierOf (f * Config.page2M) = some 2
  · rw [if_pos h, programUnits_mem]; exact hg
  · rw [if_neg h, healRange_mem]; exact hg

theorem startPageIn_wf (s : State) (j : PageJob) (hw : Memory.wf s.mem = true) : Memory.wf (startPageIn s j).mem = true := by
  unfold startPageIn; (try dsimp only); (repeat' split) <;> simp [hw, wf_setBytes, wf_zeroRange, wf_copyRange, wf_writeBlock, assignFrame_wf]

theorem pumpPages_wf (s : State) (hw : Memory.wf s.mem = true) : Memory.wf (pumpPages s).mem = true := by
  unfold pumpPages; grind [startPageIn_wf, foldl_mem, foldl_wf, wf_setBytes, wf_zeroRange, wf_copyRange, wf_writeBlock]

theorem endEviction_wf (s : State) (t : Nat) (page : Nat) (f : Nat) (i : Nat) (hw : Memory.wf s.mem = true) : Memory.wf (endEviction s t page f i).mem = true := by
  unfold endEviction; (try dsimp only); (repeat' split) <;> simp [hw, wf_setBytes, wf_zeroRange, wf_copyRange, wf_writeBlock, pumpPages_wf]

theorem writeBack_wf (f b : Nat) (s : State) (i : Nat) (hw : Memory.wf s.mem = true) : Memory.wf (writeBack f b s i).mem = true := by
  unfold writeBack
  split
  · exact hw
  · rw [programUnit_mem]; exact wf_copyRange _ _ _ _ hw

theorem issuedWrites_wf (s : State) (f b : Nat) (hw : Memory.wf s.mem = true) : Memory.wf (issuedWrites s f b).mem = true := by
  unfold issuedWrites
  exact foldl_wf _ _ _ (fun s i h => writeBack_wf f b s i h) (by rw [freeBits_mem]; exact hw)

theorem arrive_wf (s : State) (p : Bool) (r : Nat) (inp : Nat) (sent : Packet) (k : Packet) (hw : Memory.wf s.mem = true) : Memory.wf (arrive s p r inp sent k).mem = true := by
  unfold arrive; (try dsimp only); (repeat' split) <;> simp [hw, wf_setBytes, wf_zeroRange, wf_copyRange, wf_writeBlock, work_wf]

theorem endPackets_wf (s : State) (p : Bool) (c : Cause) (ks : List Packet) (hw : Memory.wf s.mem = true) : Memory.wf (endPackets s p c ks).mem = true := by
  unfold endPackets; grind [endPacket_wf, foldl_mem, foldl_wf, wf_setBytes, wf_zeroRange, wf_copyRange, wf_writeBlock]

theorem dropFailed_wf (s : State) (p : Bool) (r : Nat) (hw : Memory.wf s.mem = true) : Memory.wf (dropFailed s p r).mem = true := by
  unfold dropFailed; grind [endPackets_wf, passed_wf, foldl_mem, setRouter_mem, foldl_wf, wf_setBytes, wf_zeroRange, wf_copyRange, wf_writeBlock]

theorem failRouter_wf (s : State) (p : Bool) (r : Nat) (hw : Memory.wf s.mem = true) : Memory.wf (failRouter s p r).mem = true := by
  unfold failRouter; (try dsimp only); (repeat' split) <;> simp [hw, wf_setBytes, wf_zeroRange, wf_copyRange, wf_writeBlock, dropFailed_wf]

theorem headerLost_wf (s : State) (p : Bool) (r : Nat) (inp : Nat) (k : Packet) (hw : Memory.wf s.mem = true) : Memory.wf (headerLost s p r inp k).mem = true := by
  unfold headerLost; (try dsimp only); (repeat' split) <;> simp [hw, wf_setBytes, wf_zeroRange, wf_copyRange, wf_writeBlock, endPacket_wf, endPackets_wf, failRouter_wf]

theorem writeOpts_wf (s : State) (t : Nat) (j : Job) (hw : Memory.wf s.mem = true) : Memory.wf (writeOpts s t j).mem = true := by
  unfold writeOpts; grind [uangoWrite_wf, foldl_mem, foldl_wf, wf_setBytes, wf_zeroRange, wf_copyRange, wf_writeBlock]

theorem finishLookup_wf (f : Nat) (g : GCmd) (x : Table) (b : BitVec 512) (v : Nat) (p : LkPlan) (err : Option BadAccess) (got : List (Except GStop (Nat × List (Nat × List Int)))) (s : State) (hw : Memory.wf s.mem = true) : Memory.wf (finishLookup f g x b v p err got s).mem = true := by
  unfold finishLookup; (try dsimp only); (repeat' split) <;> simp [hw, wf_setBytes, wf_zeroRange, wf_copyRange, wf_writeBlock, finishOuts_wf, someOuts_wf]

theorem assignFrames_wf (t f n : Nat) (s : State) (hw : Memory.wf s.mem = true) : Memory.wf (assignFrames t f n s).mem = true := by
  unfold assignFrames
  refine foldl_eq_wf _ _ _ (fun s i u e h => ?_) hw
  rw [← e]; exact assignFrame_wf s t (f + i) h

theorem placePage_wf (t : Nat) (q : MapReq) (s : State) (va : Nat) (hw : Memory.wf s.mem = true) (t0 : State) (h0 : placePage t q s va = some t0) :
    Memory.wf t0.mem = true := by
  unfold placePage at h0
  extract_lets x n stack used farRoom at h0
  by_cases h1 : q.tier = 3
  · rw [if_pos h1] at h0; obtain rfl := Option.some.inj h0; rw [setLeaf_mem]; exact hw
  rw [if_neg h1] at h0
  clear_value x n stack used farRoom
  split at h0
  · simp at h0
  split at h0
  · split at h0
    · simp at h0
    split at h0
    · simp at h0
    · obtain rfl := Option.some.inj h0; rw [setLeaf_mem]; exact giveFrame_wf _ _ _ hw
  split at h0
  · simp at h0
  split at h0
  · simp at h0
  obtain ⟨f, -, rfl⟩ := Option.map_eq_some_iff.1 h0
  rw [setLeaf_mem]; exact assignFrames_wf _ _ _ _ hw

theorem placeAll_wf (t : Nat) (q : MapReq) (l : List Nat) (s t0 : State) (hw : Memory.wf s.mem = true) (h0 : placeAll t q l s = some t0) :
    Memory.wf t0.mem = true := by
  induction l generalizing s with
  | nil => simp only [placeAll, Option.some.injEq] at h0; rwa [← h0]
  | cons e l ih =>
    unfold placeAll at h0
    split at h0
    · rename_i s1 h1; exact ih s1 (placePage_wf _ _ _ _ hw _ h1) h0
    · simp at h0

theorem mapRange_wf (s : State) (t : Nat) (q : MapReq) (t0 : State) (hw : Memory.wf s.mem = true) (h0 : mapRange s t q = some t0) :
    Memory.wf t0.mem = true := by
  unfold mapRange at h0; simp only [] at h0
  (repeat' split at h0) <;> first | (simp at h0; done) | exact placeAll_wf _ _ _ _ _ hw h0

theorem hostAccess_wf (s : State) (a : HostAcc) (hw : Memory.wf s.mem = true) : Memory.wf (hostAccess s a).1.mem = true := by
  unfold hostAccess; grind [vaWrite_wf, vaRead_mem, extendSet_mem, foldl_wf, wf_setBytes, wf_zeroRange, wf_copyRange, wf_writeBlock]

theorem hostStart_wf (s : State) (a : HostAcc) (hw : Memory.wf s.mem = true) : Memory.wf (hostStart s a).2.mem = true := by
  unfold hostStart; (try dsimp only); (repeat' split) <;> simp [hw, wf_setBytes, wf_zeroRange, wf_copyRange, wf_writeBlock, hostAccess_wf]

theorem dropFallow_wf (s : State) (q : Nat × Nat) (hw : Memory.wf s.mem = true) : Memory.wf (dropFallow s q).mem = true := by
  unfold dropFallow; (try dsimp only); (repeat' split) <;> simp [hw, wf_setBytes, wf_zeroRange, wf_copyRange, wf_writeBlock, publishMap_wf]

theorem placeDist_wf (s : State) (hw : Memory.wf s.mem = true) : Memory.wf (placeDist s).mem = true := by
  unfold placeDist; (try dsimp only); (repeat' split) <;> simp [hw, wf_setBytes, wf_zeroRange, wf_copyRange, wf_writeBlock, writeDist_wf]

theorem replaceFailed_wf (s : State) (q : Nat × Nat) (hw : Memory.wf s.mem = true) : Memory.wf (replaceFailed s q).mem = true := by
  unfold replaceFailed; (try dsimp only); (repeat' split) <;> simp [hw, wf_setBytes, wf_zeroRange, wf_copyRange, wf_writeBlock, retireCore_wf, substitute_wf]

theorem hostGo_wf (s : State) (a : HostAcc) (hw : Memory.wf s.mem = true) : Memory.wf (hostGo s a).mem = true := by
  unfold hostGo; (try dsimp only); (repeat' split) <;> simp [hw, wf_setBytes, wf_zeroRange, wf_copyRange, wf_writeBlock, hostAccess_wf]

theorem pumpHost_wf (s : State) (t : Nat) (hw : Memory.wf s.mem = true) : Memory.wf (pumpHost s t).mem = true :=
  foldl_wf hostGo _ s hostGo_wf hw

theorem pageInDone_wf (t : Nat) (va : Word64) (e : Option Cause) (s : State) (hw : Memory.wf s.mem = true) :
    Memory.wf (pageInDone t va e s).mem = true := by
  unfold pageInDone; dsimp only
  split
  · split
    · split
      · exact hw
      · split
        · exact pumpPages_wf _ (by simpa using hw)
        · refine pumpPages_wf _ ?_
          simp
          split
          · split <;> simp [hw, wf_zeroRange, wf_copyRange]
          · simp [hw, wf_zeroRange]
    · exact hw
  · exact hw

theorem placeSeg_wf (t : Nat) (s : State) (g : Config.ImageSeg) (t0 : State) (hw : Memory.wf s.mem = true)
    (h0 : placeSeg t s g = some t0) : Memory.wf t0.mem = true := by
  unfold placeSeg at h0
  extract_lets q mine at h0
  split at h0
  · simp at h0
  · split at h0
    · simp at h0
    · rename_i s1 h1
      split at h0
      · rename_i s2 h2
        cases h0
        have := vaWrite_wf s1 t q.va g.bytes .clean (mapRange_wf _ _ _ _ hw h1)
        rwa [h2] at this
      · simp at h0

theorem placeSegs_wf (t : Nat) (l : List Config.ImageSeg) (s t0 : State) (hw : Memory.wf s.mem = true)
    (h0 : placeSegs t l s = some t0) : Memory.wf t0.mem = true := by
  induction l generalizing s with
  | nil => simp only [placeSegs, Option.some.injEq] at h0; rwa [← h0]
  | cons e l ih =>
    unfold placeSegs at h0
    split at h0
    · rename_i s1 h1; exact ih s1 (placeSeg_wf _ _ _ _ hw h1) h0
    · simp at h0

theorem finishProg_wf (s : State) (t p : Nat) (l : List Byte) (hw : Memory.wf s.mem = true) : Memory.wf (finishProg s t p l).2.mem = true := by
  unfold finishProg
  (repeat' split) <;> first | simpa using hw | (rename_i h1; simpa using placeSegs_wf _ _ _ _ hw h1)

theorem scrubSteps_wf (s : State) (t : Nat) (hw : Memory.wf s.mem = true) : Memory.wf (scrubSteps s t).mem = true := by
  unfold scrubSteps
  exact foldl_wf _ _ _ (fun s c h => scrubCore_wf s c none h) (by simpa using hw)

theorem inval1_wf (s : State) (v : Inval) (agent : Nat) (hw : Memory.wf s.mem = true) : Memory.wf (inval1 s v agent).mem = true := by
  unfold inval1; (try dsimp only); (repeat' split) <;> simp [hw, wf_setBytes, wf_zeroRange, wf_copyRange, wf_writeBlock, pumpPages_wf]

theorem writeResult_wf (s : State) (core : Nat) (v : VStarted) (hw : Memory.wf s.mem = true) : Memory.wf (writeResult s core v).mem = true := by
  unfold writeResult; (try dsimp only); (repeat' split) <;> simp [hw, wf_setBytes, wf_zeroRange, wf_copyRange, wf_writeBlock, lsWrite_wf]

theorem openRead_wf (len : Nat) (va : Word64) (c : Nat) (s : State) (hw : Memory.wf s.mem = true) : Memory.wf (openRead len va c s).mem = true := by
  unfold openRead; (try dsimp only); (repeat' split) <;> simp [hw, wf_setBytes, wf_zeroRange, wf_copyRange, wf_writeBlock, pumpChan_wf]

theorem absorb_wf (c : Nat) (tr : Transfer) (s : State) (hw : Memory.wf s.mem = true) : Memory.wf (absorb c tr s).mem = true := by
  unfold absorb; exact pumpChan_wf c _ hw

theorem openWrite_wf (answer : Bool) (len : Nat) (va : Word64) (first : Word32) (c : Nat) (s : State) (hw : Memory.wf s.mem = true) : Memory.wf (openWrite answer len va first c s).mem = true := by
  unfold openWrite; (try dsimp only); (repeat' split) <;> simp [hw, absorb_wf]

theorem issueStep_wf (x : Issue) (legal : Bool) (rs ps : List Nat) (body : State → Act) (s : State) (hw : Memory.wf s.mem = true)
    (hb : Memory.wf (actState (body s)).mem = true) : Memory.wf (issueStep x legal rs ps body s).mem = true := by
  unfold issueStep; dsimp only; (repeat' split) <;> simp [hw, hb]

theorem runCmd_wf (p : CmdSpec) (pend : Pend) (lenBad fieldBad stateBad : Bool) (run : Nat → State → Res × State) (e : Entry) (s : State)
    (hw : Memory.wf s.mem = true) (hb : ∀ n t, Memory.wf t.mem = true → Memory.wf (run n t).2.mem = true) :
    Memory.wf (runCmd p pend lenBad fieldBad stateBad run e s).mem = true := by
  unfold runCmd; dsimp only; (repeat' split) <;> first | (simp [hw]; done) | (simp only [answerRes_mem]; exact hb _ _ (by simpa using hw))

theorem toChan_wf (c : Nat) (cseq : Word32) (act : Nat → State → State) (s : State) (hw : Memory.wf s.mem = true)
    (hb : ∀ n t, Memory.wf t.mem = true → Memory.wf (act n t).mem = true) : Memory.wf (toChan c cseq act s).mem = true := by
  unfold toChan; dsimp only; (repeat' split) <;> first | (simp [hw]; done) | exact hb _ _ (by simpa using hw)

theorem frameAct_wf (f : TxFrame) (c : Nat) (s : State) (hw : Memory.wf s.mem = true) : Memory.wf (frameAct f c s).mem = true := by
  unfold frameAct; dsimp only
  split
  · exact takeData_wf _ _ _ _ hw
  · split
    · generalize ofBytes _ % 4 = k
      rcases k with _ | _ | k
      · exact openWrite_wf _ _ _ _ _ _ hw
      · exact openRead_wf _ _ _ _ hw
      · simpa using hw
    · (repeat' split) <;> simpa [takeGln] using hw

theorem takeCopy_wf (s : State) (f : TxFrame) (hw : Memory.wf s.mem = true) : Memory.wf (takeCopy s f).mem = true := by
  unfold takeCopy; dsimp only
  (repeat' split) <;> first | exact toChan_wf _ _ _ _ hw (fun n s h => frameAct_wf f n s h) | simpa using hw

theorem deliverCopies_wf (die : Bool) (s : State) (hw : Memory.wf s.mem = true) : Memory.wf (deliverCopies die s).mem = true := by
  unfold deliverCopies; split
  · exact hw
  · exact foldl_wf _ _ _ (fun s f h => takeCopy_wf s f h) (by simpa using hw)

theorem tick_wf (s : State) (hw : Memory.wf s.mem = true) : Memory.wf (tick s).mem = true := by
  unfold tick
  split
  · exact hw
  · exact meshTick_wf _ (deliverCopies_wf _ _ (deliverCopies_wf _ _ (by simpa using hw)))

theorem chanArrive_wf (h : FrameHdr) (kind : BitVec 4) (body : List Byte) (act : Nat → State → State) (s : State) (hw : Memory.wf s.mem = true)
    (hb : ∀ n t, Memory.wf t.mem = true → Memory.wf (act n t).mem = true) : Memory.wf (chanArrive h kind body act s).mem = true := by
  unfold chanArrive; (try dsimp only); (repeat' split) <;> first
    | (simp [hw]; done)
    | exact toChan_wf _ _ _ _ (by simpa using hw) hb

theorem recvSeq_wf (h : FrameHdr) (vcs : List Nat) (deliver : State → State) (s : State) (hw : Memory.wf s.mem = true)
    (hb : ∀ t, Memory.wf t.mem = true → Memory.wf (deliver t).mem = true) : Memory.wf (recvSeq h vcs deliver s).mem = true := by
  unfold recvSeq; dsimp only; (repeat' split) <;> first | (simp [hw]; done) | (rw [sendIdle_mem]; exact hb _ (by simpa using hw))

theorem recvPlain_wf (h : FrameHdr) (deliver : State → State) (s : State) (hw : Memory.wf s.mem = true)
    (hb : ∀ t, Memory.wf t.mem = true → Memory.wf (deliver t).mem = true) : Memory.wf (recvPlain h deliver s).mem = true := by
  unfold recvPlain; dsimp only; (repeat' split) <;> first | (simp [hw]; done) | exact hb _ (by simpa using hw)

end Sys2Proof.Machine
end

