-- ==== Sys2Proof/Tests/Slice0.lean ====
section
/-! SUPPORT. Tests. First, ill-formed commands that WellFormed refuses, one for each of its checks. Then, for each statement of
Certificates/Slice0/Obligations.lean with hypotheses, small states and operands that meet them, at the ends of each clause's range; and the
results of single steps worked out by hand from the manual. -/

open Sys2Proof Sys2Proof.Machine

namespace Sys2Proof.Tests

set_option Elab.async false

/-! ## Small states -/

/-- The context of the tests: context 0 of core 0. -/
def x0 : Issue := { core := 0, ctx := 0 }

/-- Context 0 runs at 0x1000 with all of the masks. -/
def cx0 : Ctx := { st := .running, pc := 0x1000, res0 := 0xFFFFFFFF000FFFFF, res1 := 0xFFFFFFFFFFFFFFFF }

/-- Core 0 with context 0 in the issue slot, the block at its PC in the instruction cache. -/
def k0 : Core := { tenant := some 0, running := some 0, ctxs := [(0, cx0)], icache := [{ blk := 64, data := [] }] }
def s0 : State := { cores := [(0, k0)] }

/-- The same with some general registers. -/
def withRegs (r : Tab Word64) : State := { s0 with cores := [(0, { k0 with ctxs := [(0, { cx0 with regs := r })] })] }

/-- The same core changed. -/
def onK (f : Core → Core) : State := { s0 with cores := [(0, f k0)] }

/-- The context after a step. -/
def after (o : Host.Outcome State Fault Refusal) : Option Ctx := match o with | .next t => some (stCtx t 0 0) | _ => none
def regAfter (o : Host.Outcome State Fault Refusal) (r : Nat) : Option Word64 := (after o).map (readG · r)

/-- An instruction executes where the checks of `Runs` all hold. -/
theorem runsOf {x : Issue} {rs ps : List Nat} {s : State}
    (h : issues s x = true ∧ icHits (coreOf s x.core) (stCtx s x.core x.ctx).pc = true ∧ field (stCtx s x.core x.ctx).pc 48 16 = 0 ∧ ¬(x.pg = 0 ∧ x.pn = true) ∧
      predPending (coreOf s x.core) x.ctx x.pg.toNat = false ∧ readP (stCtx s x.core x.ctx) x.pg.toNat ≠ x.pn ∧
      firstPending (coreOf s x.core) x.ctx rs ps = none) : Runs x rs ps s := by
  obtain ⟨slot, fetch, pc, legal, known, guard, regs⟩ := h
  exact { slot, pc, fetch, guardLegal := legal, guardKnown := known, guard, known := regs }

theorem runs_s0 : Runs x0 [1, 2, 3] [1] s0 :=
  runsOf (by decide)

/-! ## Ill-formed commands -/

theorem test_wf_issue : (Instr.nop { core := 352, ctx := 0 }).wf = false ∧ (Instr.nop { core := 0, ctx := 8 }).wf = false := by decide
theorem test_wf_cond : (Instr.cmp x0 1 10 1 2).wf = false ∧ (Instr.cmpi x0 1 15 1 0).wf = false ∧ (Instr.vcmp x0 1 1 2 4).wf = false := by decide
theorem test_wf_size : (Instr.ldu x0 1 1 3 0 .clean).wf = false ∧ (Instr.lldu x0 1 1 3 0 .clean).wf = false := by decide
theorem test_wf_shift : (Instr.shli x0 1 2 64).wf = false ∧ (Instr.shri x0 1 2 64).wf = false ∧ (Instr.shrli x0 1 2 64).wf = false ∧
    (Instr.vshl x0 1 2 (.imm 32) false).wf = false ∧ (Instr.shli x0 1 2 63).wf = true ∧ (Instr.vshl x0 1 2 (.imm 31) false).wf = true := by decide
theorem test_wf_tmma : (Instr.tmma x0 0 1 2 0 6 false false false 0).wf = false ∧ (Instr.tmma x0 0 1 2 0 1 true false false 0).wf = false ∧
    (Instr.tmma x0 0 1 2 0 0 false false true 0).wf = false ∧ (Instr.tmma x0 0 1 2 0 5 true true true 0).wf = true := by decide
theorem test_wf_rows : (Instr.areq x0 0 0 0 0 0 false 0 3 4 5).wf = false ∧ (Instr.areq x0 0 0 0 0 65 false 0 3 4 5).wf = false ∧
    (Instr.vwid x0 0 0 0 0 0 1).wf = false ∧ (Instr.vwid x0 0 0 0 0 65 1).wf = false := by decide
theorem test_wf_sync : (Instr.sig x0 1 0 0 false).wf = false ∧ (Instr.fence x0 0).wf = false ∧ (Instr.dsub x0 1 2 false 1).wf = false ∧
    (Instr.gsub x0 1 false 1).wf = false ∧ (Instr.gsub x0 1 false 0).wf = true := by decide
theorem test_wf_mesh : (Instr.flitReceive false 0 0 .west { id := 1, dest := .near 0, vc := 1, dataFlits := 0 } .good).wf = false ∧
    (Instr.flitReceive false 0 0 .locl { id := 1, dest := .near 0, vc := 1, dataFlits := 9 } .good).wf = false ∧
    (Instr.flitReceive false 0 0 .locl { id := 1, dest := .near 0, vc := 0, dataFlits := 2 } .good).wf = false ∧
    (Instr.reductionBlockArrival false 0 0 .locl { id := 1, dest := .tree 0, vc := 1, dataFlits := 1 }).wf = false ∧
    (Instr.arbPreempt false 7 1 .drover).wf = false ∧ (Instr.grantWatchdogBite false 1 0 .near).wf = false ∧
    (Instr.outputResetEnd false 0 1 .corner).wf = false ∧ (Instr.flitReceive false 0 0 .corner { id := 1, dest := .near 0, vc := 1, dataFlits := 8 } .good).wf = true := by decide
theorem test_wf_core : (Instr.dividerResult 352).wf = false ∧ (Instr.fenceRelease 0 8).wf = false := by decide
theorem test_wf_vector : (Instr.vshr x0 1 2 (.imm 3) 2).wf = false ∧ (Instr.vreq x0 0 (.imm 0) 1 2 3 3 4 5).wf = false ∧
    (Instr.areq x0 0 0 0 0 1 false 3 3 4 5).wf = false ∧ (Instr.vfn x0 1 2 6 0 0).wf = false ∧ (Instr.vfn x0 1 2 7 0 0).wf = false := by decide
theorem test_wf_parts : (Instr.walkComplete 48 0 0 none).wf = false ∧ (Instr.walkComplete 0 64 0 none).wf = false ∧
    (Instr.taskStart 0 4096 0).wf = false ∧ (Instr.taskStart 0 0 8).wf = false ∧
    (Instr.flitReceive false 16 0 .west { id := 1, dest := .near 0, vc := 0, dataFlits := 0 } .good).wf = false ∧
    (Instr.arbitrationRound true 0 24 .west).wf = false ∧ (Instr.evictionStart 0 false 8).wf = false ∧ (Instr.nearStackUnusable 8 .link).wf = false ∧
    (Instr.dmaBurstIssue 32).wf = false ∧ (Instr.dmaPauseDrained 256).wf = false ∧ (Instr.gleanerCommandStart 48 none []).wf = false ∧
    (Instr.stepClose 0 65536).wf = false ∧ (Instr.moduleLossDetected 1024).wf = false ∧ (Instr.keyRotationSector 2097152 .clean).wf = false := by
  decide
theorem test_wf_links : (Instr.helloSendTick 32).wf = false ∧ (Instr.fecLockLoss 0 4).wf = false ∧
    (Instr.fovReq { link := 0 } 32).wf = false ∧ (Instr.fovReq { link := 32 } 0).wf = false ∧ (Instr.ready { link := 0 } 1024 0).wf = false ∧
    (Instr.csetup { link := 0 } 0 4096 0 {} 0 0).wf = false ∧ (Instr.cend { link := 0 } 4198400 0).wf = false ∧ (Instr.timeSyncTick 1024).wf = false := by
  decide
theorem test_wf_module : (Instr.droopEvent 6).wf = false ∧ (Instr.thermalReading []).wf = false ∧ (Instr.cclkChange 0 19).wf = false ∧
    (Instr.cclkChange 0 55).wf = false ∧ (Instr.vfEnable 0).wf = false ∧ (Instr.vfEnable 64).wf = false ∧ (Instr.functionLevelReset 64).wf = false ∧
    (Instr.registerWrite 0 65536 0).wf = false ∧ (Instr.registerWrite 0 4 0).wf = false ∧ (Instr.readTemperature false 0).wf = false ∧
    (Instr.railsInTolerance 5).wf = false ∧ (Instr.pcieLinkUp 2 4).wf = false ∧ (Instr.pcieLinkUp 3 2).wf = false := by decide
theorem test_wf_good : (Instr.nop { core := 351, ctx := 7 }).wf = true ∧ (Instr.cmp x0 1 9 1 2).wf = true := by decide

/-! ## The scalar unit -/

theorem test_hyp_SystemForms : Runs x0 [] [] s0 := runsOf (by decide)

theorem test_hyp_Scalar : Runs x0 [1, 2, 3] [] (withRegs [(2, 5), (3, 7)]) :=
  runsOf (by decide)

theorem test_hyp_SelectRegister : Runs x0 [1, 2, 3] [7] s0 := runsOf (by decide)

theorem test_hyp_Divides : Runs x0 [1, 2, 3] [] s0 ∧ (coreOf s0 x0.core).divide = none ∧ (coreOf s0 x0.core).rsrq = [] :=
  ⟨runsOf (by decide), by decide⟩

/-- The smallest and the largest condition code. -/
theorem test_hyp_Predicates : Runs x0 [1, 2] [1] s0 ∧ (0 : BitVec 4).toNat ≤ 9 ∧ (9 : BitVec 4).toNat ≤ 9 :=
  ⟨runsOf (by decide), by decide⟩

/-- Targets at the ends of the canonical range, a misaligned one, and the first one beyond. -/
theorem test_hyp_Branches : (0 : Word64).toNat % 8 = 0 ∧ (0xFFFFFFFFFFF8 : Word64).toNat % 8 = 0 ∧ (0xFFFFFFFFFFF8 : Word64).toNat < 2 ^ 48 ∧
    (1 : Word64).toNat % 8 ≠ 0 ∧ (0x1000000000000 : Word64).toNat % 8 = 0 ∧ 2 ^ 48 ≤ (0x1000000000000 : Word64).toNat := by decide +kernel

theorem test_hyp_Guard : issues s0 x0 = true ∧ field (stCtx s0 0 0).pc 48 16 = 0 ∧
    predPending (coreOf s0 0) 0 1 = false ∧ readP (stCtx s0 0 0) 1 = false := by decide

/-- The least reserved shift count and condition code, a word of zeros, and a legal word (add g1, g2, g3). -/
theorem test_hyp_Decode : 64 ≤ (64 : Word32).toNat ∧ 10 ≤ (10 : BitVec 4).toNat := by decide
theorem test_word_of_zeros : wordLegal 0 = false := by decide +kernel
/-- add g1, g2, g3: MAJOR 0x01, MINOR 0x00. -/
theorem test_word_add : wordLegal 0x0400088600000000 = true := by decide +kernel

theorem test_hyp_ReadSystem : (stCtx s0 0 0).res1.getLsbD 63 = true ∧ (stCtx { s0 with cores := [] } 0 0).res1.getLsbD 0 = false ∧
    (coreOf s0 0).moves = [] ∧ vecOpen (coreOf s0 0) = [] ∧ (coreOf s0 0).aq = [] ∧ (stCtx s0 0 0).res0.getLsbD 15 = true ∧
    (stCtx s0 0 0).res0.getLsbD 19 = true := by decide

/-- R155: −2^63 divided by −1 gives −2^63, and a divisor of 0 a remainder equal to the dividend. -/
theorem test_divide_corners :
    (match exec (.div x0 1 2 3) (withRegs [(2, 0x8000000000000000), (3, 0xFFFFFFFFFFFFFFFF)]) with
     | .next t => regAfter (exec (.dividerResult 0) t) 1 | _ => none) = some 0x8000000000000000 ∧
    (match exec (.remu x0 1 2 3) (withRegs [(2, 41), (3, 0)]) with
     | .next t => regAfter (exec (.dividerResult 0) t) 1 | _ => none) = some 41 := by decide

/-- R155: add wraps modulo 2^64; an arithmetic shift keeps the sign; g0 discards. -/
theorem test_add_wraps : regAfter (exec (.add x0 1 2 3) (withRegs [(2, 0xFFFFFFFFFFFFFFFF), (3, 2)])) 1 = some 1 := by decide
theorem test_shr_sign : regAfter (exec (.shri x0 1 2 63) (withRegs [(2, 0x8000000000000000)])) 1 = some 0xFFFFFFFFFFFFFFFF := by decide
theorem test_g0_discards : regAfter (exec (.addi x0 0 2 1) (withRegs [(2, 5)])) 0 = some 0 := by decide
/-- R156: movk puts IMM in the high half; sext from bit 7. -/
theorem test_movk : regAfter (exec (.movk x0 1 2 0x12345678) (withRegs [(2, 0xFFFFFFFF9ABCDEF0)])) 1 = some 0x123456789ABCDEF0 := by decide
theorem test_sext : regAfter (exec (.sext x0 1 2 7) (withRegs [(2, 0x80)])) 1 = some 0xFFFFFFFFFFFFFF80 := by decide
/-- R160: dbnz counts down and branches while the count is not 0. -/
theorem test_dbnz : (after (exec (.dbnz x0 1 0xFFFFFFFF) (withRegs [(1, 2)]))).map (·.pc) = some 0xFF8 ∧
    (after (exec (.dbnz x0 1 0xFFFFFFFF) (withRegs [(1, 1)]))).map (·.pc) = some 0x1008 := by decide
/-- R143: a guarded-off branch falls through. -/
theorem test_guard_off : (after (exec (.br { x0 with pg := 1 } 4) s0)).map (·.pc) = some 0x1008 := by decide

/-! ## Loads, stores and ports -/

/-- A page of tenant 0 at 0x200000, mapped to `pa`. -/
def page (pa : Nat) : TlbEntry := { tenant := 0, big := false, vpn := 1, addr := pa, r := true, w := true, x := true, dirtyOk := true }

/-- Core 0 with that page in its translation cache and g2 = `va`. -/
def mapped (pa : Nat) (va : Word64) : State :=
  { cores := [(0, { k0 with tlb := [page pa], ctxs := [(0, { cx0 with regs := [(1, 0x81), (2, va)] })] })] }

/-- The last doubleword of the local store, and byte 0; an odd offset; the first offset beyond. -/
theorem test_hyp_LocalStore : (0x9FFF8 : Word64).toNat % 8 = 0 ∧ (0x9FFF8 : Word64).toNat + 8 ≤ 655360 ∧ (0 : Word64).toNat + 1 ≤ 655360 ∧
    (1 : Word64).toNat % 2 ≠ 0 ∧ (0xA0000 : Word64).toNat % 8 = 0 ∧ 655360 < (0xA0000 : Word64).toNat + 8 ∧
    ((wordsOf (lsAddr 0 0x9FFF8) 8).all fun w => (tabFind s0.badWords w).isNone) = true := by decide

theorem test_hyp_VectorLocal : ownsVreg (stCtx s0 0 0) 31 = true ∧ (128 : Word64).toNat % 256 ≠ 0 ∧
    (0xA0000 : Word64).toNat % 256 = 0 ∧ 655360 < (0xA0000 : Word64).toNat + 256 := by decide

/-- A page that maps the own window; then a vst of the same bytes that still waits, and a vld, which holds back a store only. -/
theorem test_hyp_OwnWindow : let s := mapped (lsAddr 0 0) 0x200008
    Runs x0 [1, 2] [] s ∧ (0x200008 : Word64).toNat % 8 = 0 ∧ (0x200008 : Word64).toNat < 2 ^ 48 ∧
    pastLs (lsAddr 0 8) 8 = false ∧ inOwnLs 0 (lsAddr 0 8) = true ∧ xlate (coreOf s 0) 0 0x200008 1 = .hit (lsAddr 0 8) ∧
    xlate (coreOf s 0) 0 0x200008 0 = .hit (lsAddr 0 8) ∧ ownAhead (coreOf s 0) 0 0 (lsAddr 0 8) 8 true = false ∧
    ownAhead (coreOf s 0) 0 0 (lsAddr 0 8) 8 false = false ∧
    ((wordsOf (lsAddr 0 8) 8).all fun w => (tabFind s.badWords w).isNone) = true :=
  ⟨runsOf (by decide), by decide⟩

theorem test_hyp_OwnWindow_ahead : let e : VEntry := { id := 4, ctx := 0, order := 0, pc := 0, op := .stl, own := true }
    let s := onK fun k => { k with tlb := [page (lsAddr 0 0)], vq := [e], ctxs := [(0, { cx0 with regs := [(2, 0x200008)] })] }
    Runs x0 [1, 2] [] s ∧ ownAhead (coreOf s 0) 0 0 (lsAddr 0 8) 8 true = true ∧ ownAhead (coreOf s 0) 0 0 (lsAddr 0 8) 8 false = true ∧
    ownAhead { coreOf s 0 with vq := [{ e with op := .ldl }] } 0 0 (lsAddr 0 8) 8 true = true ∧
    ownAhead { coreOf s 0 with vq := [{ e with op := .ldl }] } 0 0 (lsAddr 0 8) 8 false = false :=
  ⟨runsOf (by decide), by decide⟩

/-- A page that maps Near memory. -/
theorem test_hyp_Remote : let s := mapped 0x400000 0x200008
    Runs x0 [1, 2] [] s ∧ pastLs 0x400008 8 = false ∧ inOwnLs 0 0x400008 = false ∧ (coreOf s 0).tagQueue = [] ∧
    xlate (coreOf s 0) 0 0x200008 1 = .hit 0x400008 ∧ (coreOf s 0).writeTags < 64 ∧
    xlate (coreOf s 0) 0 0x200008 0 = .hit 0x400008 ∧ (coreOf s 0).readTags < 64 ∧ (coreOf s 0).pf = [] :=
  ⟨runsOf (by decide), by decide⟩

theorem test_hyp_Prefetch : Runs x0 [2] [] (mapped 0x400000 0x200000) :=
  runsOf (by decide)

/-- A request of context 0. -/
def rq : MemReq := { id := 1, core := 0, ctx := 0, order := 0, who := .scalarLoad 3 8 true, write := false, segs := [(0x400000, 8)] }
def wr : MemReq := { rq with who := .store, write := true, wdata := [1] }
def withReqs (l : List MemReq) : State := { s0 with reqs := l, frames := [(2, { keyTag := 0 })] }

theorem test_hyp_LoadAnswer :
    (let r := { rq with st := .done [1, 2, 3, 4, 5, 6, 7, 8] }
     (withReqs [r]).reqs.find? (fun q => q.id == r.id && isCoreRead q && !delivered (withReqs [r]) q) = some r ∧
     r.who = .scalarLoad 3 8 true ∧ r.tagged = true ∧ r.dead = false ∧ (coreOf (withReqs [r]) 0).rsrq = [] ∧
     headMove (coreOf (withReqs [r]) 0) = none) ∧
    (let r := { rq with st := .failed .memError }
     let s : State := { withReqs [r] with cores := [(0, { k0 with running := none, ctxs := [(0, { cx0 with st := .waitMem })] })] }
     s.reqs.find? (fun q => q.id == r.id && isCoreRead q && !delivered s q) = some r ∧ (stCtx s 0 0).st = .waitMem ∧ (coreOf s 0).fenced = false) ∧
    (let r := { wr with st := .done [] }
     (withReqs [r]).reqs.find? (fun q => q.id == r.id && q.write && (match q.who with | .host => false | _ => true)) = some r ∧
     r.tagged = true ∧ headMove (coreOf (withReqs [r]) 0) = none) := by decide

theorem test_hyp_PortServes :
    ((withReqs [rq]).reqs.find? (fun q => q.id == rq.id && !q.write && q.st == .waiting) = some rq ∧ rq.segs = [(0x400000, 8)] ∧
     storeAhead (withReqs [rq]) rq = false ∧ portTakes (withReqs [rq]) rq = true ∧ inLs 0x400000 = false ∧ (tierOf 0x400000).isSome ∧
     stateError (withReqs [rq]) 0x400000 8 = none ∧ (frameOf (withReqs [rq]) 0x400000).keyTag ≠ 0xFF) ∧
    (let r := { wr with segs := [(lsAddr 1 0, 1)] }
     (withReqs [r]).reqs.find? (fun q => q.id == r.id && q.write && q.st == .waiting && !isFar q) = some r ∧
     r.segs = [(lsAddr 1 0, r.wdata.length)] ∧ storeAhead (withReqs [r]) r = false ∧ inLs (lsAddr 1 0) = true ∧
     (coreOf (withReqs [r]) ((lsAddr 1 0 - Config.lsBase) / 0x100000)).fenced = false ∧ pastLs (lsAddr 1 0x9FFFF) 1 = false ∧
     pastLs (lsAddr 1 0xA0000) 1 = true) := by decide

/-- A write to the first Far unit, of a frame without a key and of one with it. -/
theorem test_hyp_FarWrites_noKey :
    let r := { wr with segs := [(Config.farBase, 1)] }
    (withReqs [r]).reqs.find? (fun q => q.id == r.id && q.write && q.st == .waiting && isFar q) = some r ∧
    storeAhead (withReqs [r]) r = false ∧ portTakes (withReqs [r]) r = true ∧ (withReqs [r]).power.farWait = false ∧
    ∃ u ∈ unitsOf r.segs, (frameOf (withReqs [r]) (Config.farBase + u * 16384)).keyTag = 0xFF := by decide

theorem test_hyp_FarWrites_whole :
    let r := { wr with segs := [(Config.farBase, 16384)], wdata := List.replicate 16384 7 }
    let s : State := { withReqs [r] with frames := [(frameNo Config.farBase, { keyTag := 0 })] }
    unitsOf r.segs = [0] ∧ (frameOf s Config.farBase).keyTag ≠ 0xFF ∧ s.far.readOnly = false ∧
    r.segs = [(Config.farBase, 16384)] ∧ r.wdata.length = 16384 ∧ farGroup s [0] = [r] :=
  ⟨by decide, by decide, by decide, rfl, List.length_replicate, rfl⟩

/-- R161: lld.b sign-extends, lldu.b does not. -/
theorem test_lld_sign :
    let s : State := { withRegs [(2, 16)] with mem := [(lsAddr 0 16, 0x80)] }
    regAfter (exec (.lld x0 1 2 0 0 .clean) s) 1 = some 0xFFFFFFFFFFFFFF80 ∧ regAfter (exec (.lldu x0 1 2 0 0 .clean) s) 1 = some 0x80 := by
  decide
/-- R161: lst.w stores the low four bytes, the least significant first. -/
theorem test_lst_order :
    (match exec (.lst x0 1 2 2 0) (withRegs [(1, 0x1122334455667788), (2, 8)]) with
     | .next t => bytesAt t.mem (lsAddr 0 8) 5 | _ => []) = [0x88, 0x77, 0x66, 0x55, 0] := by decide

/-! ## Tiles and the matrix array -/

/-- BX8, 64 rows of 16 words; the same with 32 rows; MX4 (two's complement with 16-word rows) follows from its FMT field. -/
def cfgBx8 : BitVec 32 := 0x00011040
def tl : Tile := { cfg := cfgBx8, rowv := 0xFFFFFFFFFFFFFFFF }
/-- Tiles 0 and 1 configured, a page mapped, g2 = 0x200000 and g1 the same configuration. -/
def tiled : State := { cores := [(0, { k0 with tlb := [page 0x400000], tiles := [(0, tl), (1, tl), (2, { cfg := 0x00011001 })],
                                               ctxs := [(0, { cx0 with regs := [(1, 0x11040), (2, 0x200000), (3, 0x200080)] })] })] }
theorem runs_tiled (r : Nat) (h : firstPending (coreOf tiled 0) 0 [r] [] = none) : Runs x0 [r] [] tiled :=
  ⟨by decide, by decide, by decide, by decide, by decide, by decide, h⟩

/-- The smallest and the largest valid configuration, one row too many, no row beside a format and a width (R89 names no fault there), a reserved bit. -/
theorem test_hyp_TileConfiguration : Runs x0 [1] [] tiled ∧ ownsTile (stCtx tiled 0 0) 15 = true ∧ tileNamed (coreOf tiled 0) 0 15 = false ∧
    cfgValid 0 = true ∧ cfgValid 0x00011040 = true ∧ cfgValid 0x00011041 = false ∧ cfgValid 0x00011000 = true ∧
    cfgValid 0x80011040 = false ∧ cfgRows (tileOf (coreOf tiled 0) 0).cfg ≠ 0 ∧ cfgRows (tileOf (coreOf tiled 0) 15).cfg = 0 :=
  ⟨runs_tiled 1 (by decide), by decide⟩
theorem test_hyp_TileConfiguration_notOwned : Runs x0 [1] [] (onK fun k => { k with ctxs := [(0, { cx0 with res0 := 0xFFFFFFFF000FFFFE })] }) ∧
    ownsTile (stCtx (onK fun k => { k with ctxs := [(0, { cx0 with res0 := 0xFFFFFFFF000FFFFE })] }) 0 0) 0 = false :=
  ⟨runsOf (by decide), by decide⟩

/-- A tile of one row, with its scale bytes, and an odd base. -/
theorem test_hyp_TileMovesIssue : Runs x0 [2] [] tiled ∧ ownsTile (stCtx tiled 0 0) 2 = true ∧
    cfgRows (tileOf (coreOf tiled 0) 2).cfg ≠ 0 ∧ moveCheck (tileOf (coreOf tiled 0) 2).cfg 0x200000 0 0 = none ∧
    (coreOf tiled 0).moves.length < 12 ∧ tileLoadBefore (coreOf tiled 0) 0 2 0 = false ∧
    headMove (coreOf tiled 0) = none ∧
    pagesAns x0 0 0 (touched (tileOf (coreOf tiled 0) 2).cfg 0x200000 0 0 0) tiled = .ok (setCore tiled 0 (coreOf tiled 0)) ∧
    pagesAns x0 0 1 (touched (tileOf (coreOf tiled 0) 2).cfg 0x200000 0 0 0) tiled = .ok (setCore tiled 0 (coreOf tiled 0)) ∧
    (0x20007F : Word64).toNat % 128 ≠ 0 :=
  ⟨runs_tiled 2 (by decide), by decide, by decide, by decide, by decide, by decide, by decide, rfl, rfl, by decide⟩

/-- The page of tile 2 is paged and not resident, and its walk has said so. -/
theorem test_hyp_TileMovesIssue_absent :
    let s : State := { tiled with cores := [(0, { coreOf tiled 0 with tlb := [], ctxs := [(0, { stCtx tiled 0 0 with absent := some 1 })] })]
                                  tenants := [(0, { small := [(1, { pte := 0x81F })] })] }
    Runs x0 [2] [] s ∧ pagesAns x0 0 0 (touched (tileOf (coreOf s 0) 2).cfg 0x200000 0 0 0) s = .absent 0x200000 s ∧
    pagesAns x0 0 1 (touched (tileOf (coreOf s 0) 2).cfg 0x200000 0 0 0) s = .absent 0x200000 s :=
  ⟨runsOf (by decide), rfl, rfl⟩

/-- One row of a tload arrives; a tstore with one row to read. -/
def mv : Move := { id := 5, ctx := 0, order := 3, pc := 0, load := true, tile := 0, first := 0, upto := 64 }
def rowsReq : MemReq := { rq with id := 9, who := .tileRows 5 63 1, tagged := false, st := .done (List.replicate 64 7) }
theorem test_hyp_TileMovesWork :
    (let s : State := { (onK fun k => { k with tiles := [(0, tl)], moves := [mv] }) with reqs := [rowsReq] }
     s.reqs.find? (fun q => q.id == 9) = some rowsReq ∧ (coreOf s 0).moves.find? (fun o => o.id == 5) = some mv ∧ mv.tile < 16 ∧
     tileReadBefore (coreOf s 0) 0 0 3 = false ∧ tileLoadBefore (coreOf s 0) 0 0 3 = false ∧ tileVecWriteBefore (coreOf s 0) 0 0 3 = false ∧
     63 + 1 ≤ 64 ∧ cfgWords (tileOf (coreOf s 0) 0).cfg ≤ 16 ∧
     (List.replicate 64 (7 : Byte)).length = 4 * cfgWords (tileOf (coreOf s 0) 0).cfg * 1) ∧
    (let m := { mv with load := false, plan := [{ segs := [(0x400000, 64)], count := 1 }] }
     let s := onK fun k => { k with tiles := [(0, tl)], moves := [m] }
     (coreOf s 0).moves = [m] ∧ m.read = false ∧ m.plan ≠ [] ∧ (coreOf s 0).tagQueue = [] ∧
     (coreOf s 0).writeTags + m.plan.length ≤ 64 ∧
     tileLoadBefore (coreOf s 0) 0 0 3 = false ∧ tileVecWriteBefore (coreOf s 0) 0 0 3 = false) := by decide

/-- Shape 0 into the whole bank, the last row that fits, and the first that does not. -/
theorem test_hyp_TmmaIssue : Runs x0 [] [] tiled ∧ (∀ i ∈ (1 :: streamTiles 0 0), ownsTile (stCtx tiled 0 0) i = true) ∧
    (∀ b ∈ destBanks 0 3, ownsBank (stCtx tiled 0 0) b = true) ∧
    (∀ i ∈ streamTiles 0 0, streamMatches (coreOf tiled 0) 0 (cfgRows (tileOf (coreOf tiled 0) 0).cfg) i = true) ∧
    stationaryMatches (coreOf tiled 0) 0 1 = true ∧ (∀ i ∈ (1 :: streamTiles 0 0), tileLoadBefore (coreOf tiled 0) 0 i 0 = false) ∧
    squareScaled (tileOf (coreOf tiled 0) 1) = true ∧ 0 + cfgRows (tileOf (coreOf tiled 0) 0).cfg ≤ 64 ∧ (coreOf tiled 0).aq.length < 8 ∧
    64 < 1 + cfgRows (tileOf (coreOf tiled 0) 0).cfg ∧ 6 ≤ (6 : BitVec 3).toNat :=
  ⟨runsOf (by decide), by decide +kernel⟩

/-- A pass of shape 0 at every point of its life. -/
def ps : Pass := { id := 7, ctx := 0, order := 0, pc := 0, ts := 0, tw := 1, ad := 2, d0 := 0, shape := 0, t := false, c := true, ax := false,
                   q := 0, rows := 64 }
def withPass (p : Pass) (st : Tab StatSet) : State := onK fun k => { k with tiles := [(0, tl), (1, tl)], aq := [p], sets := st }
theorem test_hyp_PassLife :
    (let s := withPass ps []
     nextPass (coreOf s 0) = some ps ∧ hitSet (coreOf s 0) ps = none ∧ (setOf (coreOf s 0) false).loading = false ∧
     (setOf (coreOf s 0) true).loading = false ∧ passOrdered (coreOf s 0) ps = true ∧ readsShape3 (coreOf s 0) = false) ∧
    (let s := withPass ps [(1, { tag := some (passTag ps) })]
     nextPass (coreOf s 0) = some ps ∧ hitSet (coreOf s 0) ps = some true ∧ passOrdered (coreOf s 0) ps = true ∧ shape3Held (coreOf s 0) = false) ∧
    (let p := { ps with stage := .started }
     let s := withPass p []
     (coreOf s 0).aq.find? (fun o => o.id == p.id && o.stage == .started) = some p ∧
     ((coreOf s 0).aq.takeWhile fun o => o.id != p.id).all (fun o => (passBanks o).all fun b => !(passBanks p).contains b) = true) ∧
    (let p := { ps with stage := .committing }
     let s := withPass p []
     (coreOf s 0).aq.find? (fun o => o.id == p.id && o.stage == .committing) = some p ∧ (∀ n, n < 8 → comingBack (stCtx s 0 n) = false)) ∧
    readsShape3 { lastMap := some (false, 3), arrLeft := 129 } = true ∧ readsShape3 { lastMap := some (false, 3), arrLeft := 128 } = false ∧
    (let p := { ps with shape := 3, ts := 4, tw := 0 }
     shape3Held (coreOf (withPass p [(0, { tag := some (passTag p) }), (1, { loading := true })]) 0) = true) ∧
    (let s := onK fun k => { k with arrIdle := 256, colsOff := 62 }
     (coreOf s 0).colsOff < 64 ∧ 225 + (coreOf s 0).colsOff / 2 ≤ (coreOf s 0).arrIdle ∧ (coreOf s 0).arrLeft = 0) := by decide

/-- The last element of the bank, with and without a clear. -/
theorem test_hyp_CommitElement :
    let p := { ps with stage := .started, sums := [(2 * 4096 + 63 * 64 + 63, 5)] }
    (coreOf (withPass p []) 0).aq = [p] ∧ p.d0 + 63 < 64 ∧ 2 ∈ passBanks p ∧
    p.sums = [(2 * 4096 + 63 * 64 + 63, 5)] := by decide

/-- R46: 2,147,483,640 + 10 is clamped to 2,147,483,647, and so the other way. -/
theorem test_commit_clamps :
    (let p := { ps with stage := .started, sums := [(2 * 4096, 10)] }
     let s := onK fun k => { k with aq := [p], banks := [(2, { elems := [(0, 2147483640)] })] }
     match exec (.passCommitStart 0 7 .clean) s with | .next t => bankElem (bankOf (coreOf t 0) 2) 0 0 | _ => 0) = 2147483647 ∧
    (let p := { ps with stage := .started, sums := [(2 * 4096, -10)] }
     let s := onK fun k => { k with aq := [p], banks := [(2, { elems := [(0, -2147483640)] })] }
     match exec (.passCommitStart 0 7 .clean) s with | .next t => bankElem (bankOf (coreOf t 0) 2) 0 0 | _ => 0) = -2147483647 := by decide

/-- R44: with exponents 127 + 127, seven fraction bits and Q = −11, a dot product of 20 is shifted right by 3 and rounds to 2 (2.5 to
even), 28 to 4 (3.5 to even); with an OVF exponent it adds nothing. -/
theorem test_hyp_BlockContribution : ([4, 2] : List Int).length = ([3, 4] : List Int).length ∧ (255 : Nat) = 255 ∧ (127 : Nat) ≠ 255 := by decide
theorem test_contribution : (∀ q : Int, q = 3 - 2 * fracBits 1 + 0 →
    contribution 1 (q) 127 127 (dot [4, 2] [3, 4]) = 2 ∧ contribution 1 q 127 127 (dot [4, 4] [3, 4]) = 4 ∧
    contribution 1 q 255 127 (dot [4, 2] [3, 4]) = 0) := by intro q h; subst h; decide
/-! ## The vector unit -/

/-- The last legal counts and codes, and the first register and the last. -/
theorem test_hyp_LaneInstructionsIssue : Runs x0 [] [] s0 ∧ (coreOf s0 0).vq.length < 16 ∧
    (∀ v ∈ [(31 : Reg).toNat, (0 : Reg).toNat, (1 : Reg).toNat, (2 : Reg).toNat], ownsVreg (stCtx s0 0 0) v = true) ∧
    (6 : BitVec 4).toNat ∈ [0, 1, 2, 3, 6] ∧ (31 : BitVec 6).toNat < 32 ∧ (1 : BitVec 2).toNat ≤ 1 ∧ (5 : BitVec 4).toNat ≤ 5 :=
  ⟨runsOf (by decide), by decide⟩

/-- Tile 3 is RAW, tile 0 BX8, tile 4 MX-wide (FMT 3), tile 5 BI4; g1 holds row 63. -/
def formats : State := onK fun k => { k with tiles := [(0, tl), (3, { cfg := 0x1040 }),
  (4, { cfg := 0x31040 }), (5, { cfg := 0x20840 })], ctxs := [(0, { cx0 with regs := [(1, 63)] })] }
theorem test_hyp_MixedVectorIssue : Runs x0 [1, 2, 3] [1] formats ∧ (coreOf formats 0).vq.length < 16 ∧
    (∀ t ∈ [0, 3, 4, 5], ownsTile (stCtx formats 0 0) t = true ∧ tileLoadBefore (coreOf formats 0) 0 t 0 = false ∧
      cfgRows (tileOf (coreOf formats 0) t).cfg ≠ 0 ∧ 63 < cfgRows (tileOf (coreOf formats 0) t).cfg ∧
      cfgFmt (tileOf (coreOf formats 0) t).cfg ≤ 4) ∧
    cfgFmt (tileOf (coreOf formats 0) 3).cfg = 0 ∧ cfgFmt (tileOf (coreOf formats 0) 0).cfg = 1 ∧
    cfgFmt (tileOf (coreOf formats 0) 4).cfg = 3 ∧ cfgFmt (tileOf (coreOf formats 0) 5).cfg = 2 ∧ ownsVreg (stCtx formats 0 0) 31 = true ∧
    ownsVreg (stCtx formats 0 0) ((31 + 1) % 32) = true ∧ ownsBank (stCtx formats 0 0) 3 = true ∧
    (readG (stCtx formats 0 0) 1).toNat = (63 : BitVec 6).toNat :=
  ⟨runsOf (by decide), by decide⟩

/-- vwid from BX8 to FMT 3 at ratio 2: 32 source rows fill the tile. Counts 1 and 64, and 0 and 65. -/
theorem test_hyp_RequantizeAndWidenIssue : Runs x0 [1, 2, 3] [] formats ∧ ownsTile (stCtx formats 0 0) 4 = true ∧
    ownsTile (stCtx formats 0 0) 0 = true ∧ ownsBank (stCtx formats 0 0) 3 = true ∧ ownsBank (stCtx formats 0 0) (3 + 1) = true ∧
    1 ≤ (32 : BitVec 7).toNat ∧ (64 : BitVec 7).toNat ≤ 64 ∧ 64 < (65 : BitVec 7).toNat ∧ (0 : BitVec 7).toNat = 0 ∧
    widenRatio (cfgFmt (tileOf (coreOf formats 0) 0).cfg) (cfgFmt (tileOf (coreOf formats 0) 4).cfg) = some 2 ∧
    cfgWords (tileOf (coreOf formats 0) 4).cfg = 16 ∧ cfgWords (tileOf (coreOf formats 0) 0).cfg = 16 ∧
    0 + 2 * 32 ≤ cfgRows (tileOf (coreOf formats 0) 4).cfg ∧ 32 + 32 ≤ cfgRows (tileOf (coreOf formats 0) 0).cfg ∧
    tileLoadBefore (coreOf formats 0) 0 0 0 = false ∧ cfgRows (tileOf (coreOf formats 0) 7).cfg = 0 ∧
    cfgFmt (tileOf (coreOf formats 0) 3).cfg = 0 :=
  ⟨runsOf (by decide), by decide⟩

theorem test_hyp_VectorMemoryIssue : let s := mapped 0x400000 0x200100
    Runs x0 [2] [] s ∧ ownsVreg (stCtx s 0 0) 0 = true ∧ (0x9FF00 : Word64).toNat % 256 = 0 ∧ (0x9FF00 : Word64).toNat + 256 ≤ 655360 ∧
    (0xA0000 : Word64).toNat % 256 = 0 ∧ 655360 < (0xA0000 : Word64).toNat + 256 ∧ (0x200100 : Word64).toNat % 256 = 0 ∧
    (0x200100 : Word64).toNat < 2 ^ 48 ∧ pastLs 0x400100 256 = false ∧ inOwnLs 0 0x400100 = false ∧ (coreOf s 0).tagQueue = [] ∧
    (coreOf s 0).pf = [] ∧ xlate (coreOf s 0) 0 0x200100 0 = .hit 0x400100 ∧ xlate (coreOf s 0) 0 0x200100 1 = .hit 0x400100 ∧
    (coreOf s 0).readTags < 64 ∧ (coreOf s 0).writeTags < 64 :=
  ⟨runsOf (by decide), by decide⟩

/-- A ready vmovg, which computes, and a vtwr of a poisoned register, which faults its context. -/
def ve (op : VOp) : VEntry := { id := 4, ctx := 0, order := 0, pc := 0x1000, op := op, d := 1, a := 2, c := 3 }
theorem test_hyp_VectorEntryStarts :
    (let s := onK fun k => { k with vq := [ve .movg] }
     (coreOf s 0).vq.find? (entryReady s 0 (coreOf s 0) ·) = some (ve .movg) ∧ (ve .movg).op ∉ [VOp.ldl, .stl, .ld, .st] ∧
     (∀ n, n < 8 → comingBack (stCtx s 0 n) = false) ∧ vecCompute (coreOf s 0) (ve .movg) = .ok (.greg 1 0, false)) ∧
    (let s := onK fun k => { k with vq := [ve .twr], vregs := [(2, { psn := 8 })], ctxs := [(0, { cx0 with order := 1 })] }
     (coreOf s 0).vq.find? (entryReady s 0 (coreOf s 0) ·) = some (ve .twr) ∧ vecCompute (coreOf s 0) (ve .twr) = .error .poison ∧
     (stCtx s 0 0).st = .running ∧ (coreOf s 0).fenced = false ∧ (stCtx s 0 0).order = (ve .twr).order + 1 ∧ (stCtx s 0 0).wait = .none) :=
  ⟨⟨by decide, by decide, by decide, rfl⟩, by decide, rfl, by decide⟩

theorem test_hyp_VectorResultWrites : ∀ res ∈ [VResult.greg 0 5, .greg 1 5, .pred 0 true, .pred 7 true, .localStore 0 [1], .vreg 31 (List.replicate 64 1) 15],
    let v : VStarted := { entry := ve .add, result := res }
    (coreOf (onK fun k => { k with vrun := [v] }) 0).vrun.find? (fun o => o.entry.id == v.entry.id) = some v ∧
    (coreOf (onK fun k => { k with vrun := [v] }) 0).rsrq = [] ∧ v.overflow = false := by decide

/-- R128, R129: 2,147,483,647 + 1 is clamped and poisons its quarter; the exact form wraps and does not. -/
def addK (w : Bool) : Except Cause (VResult × Bool) :=
  vecCompute { vregs := [(1, { lanes := [(17, 0x7FFFFFFF)] }), (2, { lanes := [(17, 1)] })] } { ve .add with a := 1, b := 2, w := w }
def laneOf (r : Except Cause (VResult × Bool)) (i : Nat) : Option (Word32 × BitVec 4) :=
  match r with | .ok (.vreg _ l p, _) => (l[i]?).map fun v => (v, p) | _ => none
theorem test_vadd_clamps : laneOf (addK false) 17 = some (0x7FFFFFFF, 2) ∧ laneOf (addK true) 17 = some (0x80000000, 0) := by decide
theorem test_hyp_LaneArithmetic : (63 : Nat) < 64 ∧ (ve .add).op = .add := by decide

/-- R50: with Q = −131 the step of BX8 at e is 2^(e − 2); 127 fits e = 2 and 128 needs 3. -/
theorem test_hyp_ScaleChoice : (1 : Nat) ∈ [1, 2, 3] ∧ (2 : Nat) ∈ [0, 2] ∧ (∀ x ∈ ([0, 0] : List Int), x = 0) := by decide
theorem test_scale : blockScale 1 (-125 - fracBits 1) [5, -127] = 2 ∧ blockScale 1 (-125 - fracBits 1) [128, 3] = 3 ∧
    blockScale 1 (-125 - fracBits 1) [0, 0] = 0 := by decide +kernel
/-! ## Signals, switching and the life of a task -/

/-- Semaphore 0 empty, 1 with one count, 2 saturated. -/
def sems : State := onK fun k => { k with sems := [(1, { count := 1 }), (2, { count := 65535, ovf := true })], ctxs := [(0, { cx0 with regs := [(1, 0)] })] }
def noSem : State := onK fun k => { k with ctxs := [(0, { cx0 with res1 := 0 })] }
theorem test_hyp_SemaphoreInstructions : Runs x0 [1] [1] sems ∧ (readG (stCtx sems 0 0) 1).toNat < 352 ∧
    coreUsable sems (stCtx sems 0 0).tenant.toNat 0 = true ∧ (coreOf sems 0).held = [] ∧
    (∀ q ∈ [0, 1, 2], ownsSem (stCtx sems 0 0) q = true) ∧ (semOf (coreOf sems 0) 1).ovf = false ∧ (semOf (coreOf sems 0) 1).count ≠ 0 ∧
    (semOf (coreOf sems 0) 0).ovf = false ∧ (semOf (coreOf sems 0) 0).count = 0 ∧ (semOf (coreOf sems 0) 2).ovf = true ∧
    (255 : Byte) ≠ 0 ∧ storesBefore sems 0 0 (stCtx sems 0 0).order = false :=
  ⟨runsOf (by decide), by decide⟩
/-- The context's store is open: a sig.rel is held. -/
def stored : State := { onK (fun k => { k with ctxs := [(0, { cx0 with order := 1 })] }) with reqs := [wr] }
theorem test_hyp_SemaphoreInstructions_held : Runs x0 [1] [1] stored ∧ (readG (stCtx stored 0 0) 1).toNat < 352 ∧
    coreUsable stored (stCtx stored 0 0).tenant.toNat 0 = true ∧ (coreOf stored 0).held = [] ∧
    storesBefore stored 0 0 (stCtx stored 0 0).order = true := ⟨runsOf (by decide), by decide⟩
theorem test_hyp_SemaphoreInstructions_mask : Runs x0 [1] [1] noSem ∧ ownsSem (stCtx noSem 0 0) 63 = false :=
  ⟨runsOf (by decide), by decide⟩

/-- Two signals of one context and one of another: the later of the first context may not arrive without the earlier. -/
theorem test_hyp_SignalsArrive_order :
    let l : List Sig := [{ core := 3, sem := 1, cnt := 1, src := some (0, 0) }, { core := 3, sem := 1, cnt := 1, src := some (0, 0) }]
    [1].all (sigMay l 3 (1 : SemNo).toNat [1]) = false := by decide
def waits7 : State :=
  { sigs := [{ core := 0, sem := 1, cnt := 2 }]
    cores := [(0, { k0 with running := none, ctxs := [(7, { cx0 with st := .waitSem, wait := .sem 1 })] })] }
theorem test_hyp_SignalsArrive :
    (let s : State := { sigs := [{ core := 3, sem := 1, cnt := 65535 }, { core := 3, sem := 1, cnt := 1 }] }
     (coreOf s 3).fenced = false ∧ [0, 1] ≠ ([] : List Nat) ∧ [0, 1].all (sigMay s.sigs 3 (1 : SemNo).toNat [0, 1]) = true ∧
     (∀ m, isWaiting (stCtx s 3 m).st = false)) ∧
    ((stCtx waits7 0 7).st = .waitSem ∧ (stCtx waits7 0 7).wait = .sem (1 : SemNo).toNat ∧ (coreOf waits7 0).fenced = false ∧
     [0].all (sigMay waits7.sigs 0 (1 : SemNo).toNat [0]) = true ∧ comingBack (stCtx waits7 0 7) = false ∧
     (∀ j, j ≠ 7 → isWaiting (stCtx waits7 0 j).st = false) ∧ (semOf (coreOf waits7 0) 1).ovf = false ∧
     (semOf (coreOf waits7 0) 1).count + sigCounts waits7.sigs [0] ≠ 0 ∧
     (semOf (coreOf waits7 0) 1).count + sigCounts waits7.sigs [0] ≤ 65535) ∧
    (let h : HeldSig := { id := 2, ctx := 0, order := 0, target := 5, sem := 1, cnt := 1 }
     let s := onK fun k => { k with held := [h] }
     (coreOf s 0).held = [h] ∧ h.rel = true ∧ storesBefore s 0 h.ctx h.order = false ∧ tCh h.target = false) := by
  refine ⟨⟨by decide, by decide, by decide, fun _ => rfl⟩,
    ⟨by decide, by decide, by decide, by decide, by decide, ?_, by decide⟩, by decide⟩
  intro j hj
  have h7 : stCtx waits7 0 j = {} := by
    simp [waits7, stCtx, coreOf, ctxOf, look, tabFind, Ne.symm hj]
  rw [h7]; rfl

/-- A store of the context is open, so the class of stores is not done; it waits, and the release comes. -/
theorem test_hyp_Fences : Runs x0 [] [] s0 ∧ fenceMet s0 0 0 15 = true ∧
    Runs x0 [] [] { onK (fun k => { k with ctxs := [(0, { cx0 with order := 1 })] }) with reqs := [wr] } ∧
    fenceMet { onK (fun k => { k with ctxs := [(0, { cx0 with order := 1 })] }) with reqs := [wr] } 0 0 (1 : BitVec 4).toNat = false ∧
    (let u := onK fun k => { k with running := none, ctxs := [(0, { cx0 with st := .waitMem, wait := .fence 15 })] }
     (stCtx u 0 0).st = .waitMem ∧ (stCtx u 0 0).wait = .fence (15 : BitVec 4).toNat ∧ fenceMet u 0 0 15 = true) :=
  ⟨runsOf (by decide), by decide,
    runsOf (by decide), by decide⟩

/-- Channel 255, which the tenant holds, channel 0, which it does not, and 256. -/
theorem test_hyp_EngineCommands :
    (let s : State := { withRegs [(1, 255), (2, 256), (3, 0x1FC0)] with dma := [(255, { held := true, tenant := 0 })] }
     Runs x0 [1, 2] [] s ∧ (coreOf s 0).eq.length < 8 ∧ (readG (stCtx s 0 0) 1).toNat ≤ 255 ∧
     holdsDma s (stCtx s 0 0).tenant.toNat 255 = true ∧ holdsDma s (stCtx s 0 0).tenant.toNat 0 = false ∧
     (63 : SemNo) ≠ 0 ∧ 255 < (readG (stCtx s 0 0) 2).toNat ∧ (readG (stCtx s 0 0) 3).toNat % 64 = 0 ∧ (readG (stCtx s 0 0) 1).toNat % 64 ≠ 0) ∧
    (let e : EngCmd := { ctx := 0, order := 0, gleaner := true, va := 64 }
     let s := onK fun k => { k with eq := [e] }
     (coreOf s 0).eq = [e] ∧ e.gleaner = true ∧ (coreOf s 0).fenced = false ∧
     (look ({} : Fold) s.folds (foldOf s 0)).cmds.length < 32) :=
  ⟨⟨runsOf (by decide), by decide⟩, by decide⟩

/-- After context 7 the order starts at context 0 again. -/
theorem test_hyp_Switching :
    (let s : State := { cores := [(0, { ctxs := [(0, { cx0 with st := .ready })], lastRun := 7 })] }
     (coreOf s 0).running = none ∧ (coreOf s 0).fenced = false ∧ nextReady (coreOf s 0) = some 0) ∧
    (let s := onK fun k => { k with ctxs := [(0, { cx0 with yieldTimer := 4096 })] }
     (coreOf s 0).running = some 0 ∧ 4096 ≤ (stCtx s 0 0).yieldTimer) ∧
    (let s := onK fun k => { k with running := none, tagQueue := [(7, false)], readTags := 63 }
     (coreOf s 0).tagQueue = [(7, false)] ∧ (coreOf s 0).readTags < 64) := by decide

/-- A leaf of a Near page: V, R, W, X, S, RES. -/
def leaf (pte : Word64) : State := { tenants := [(0, { small := [(1, { pte := pte })] })] }
theorem test_hyp_WalksAndPages :
    (∀ b : Bool, let pte : Word64 := if b then 0x40003F else 0x1F
     let x := { cx0 with st := .waitMem, wait := .walk 0x200000 1 }
     let k := { k0 with running := none, ctxs := [(0, x)] }
     let s : State := { leaf pte with cores := [(0, k)], folds := [(foldOf {} 0, { walks := [{ tenant := 0, page := 1 }], roots := [(0, 0)] })] }
     k.ctxs = [(0, x)] ∧ (tabFind (look ({} : Fold) s.folds (foldOf s 0)).roots 0).isSome ∧ leafOf s 0 0x200000 = some ({ pte := pte }, false) ∧ pteV pte = true ∧ pteMalformed pte false = false ∧
     pte.getLsbD (1 + 1) = true ∧ pteBroken pte = 0 ∧ x.st = .waitMem ∧ x.wait = .walk 0x200000 1 ∧
     (look ({} : Fold) s.folds (foldOf s 0)).walks = [{ tenant := 0, page := 0x200000 / 2097152 }]) ∧
    (let x := { cx0 with st := .waitPage, wait := .page 0x200000 }
     let s : State := { leaf 0x40003F with cores := [(0, { k0 with running := none, ctxs := [(0, x)] })] }
     leafOf s 0 0x200000 = some ({ pte := 0x40003F }, false) ∧ x.st = .waitPage ∧ x.wait = .page 0x200000 ∧
     pteRes 0x40003F = true ∧ pteV 0x40003F = true ∧ pteMalformed 0x40003F false = false ∧
     (coreOf s 0).moves = [] ∧ s.hostWait = []) := by decide

theorem test_hyp_InvalidationAcknowledged :
    let v : Inval := { id := 3, tenant := 0, va := 0x200000, len := 0x200000, pa := 0x400000, left := [351] }
    let s : State := { cores := [(351, { k0 with tlb := [page 0x400000] })], invals := [v] }
    s.invals = [v] ∧ v.cmd = 0 ∧ v.left = [351] ∧ v.frames = [] ∧ s.jobsPg = [] ∧ openIn s 351 v = false := by decide

/-- A task of tenant 0 with one tile, for context 7. -/
def td1 : TaskDesc := { entry := 0x2000, res0 := 0x8000, res1 := 0, tileCfg := [(15, cfgBx8)], args := [9] }
def hn : Handle := { core := 0, kind := 0, queue := [td1] }
theorem test_hyp_TaskStarts :
    let s : State := { cores := [(0, { tenant := some 0, scrubbed := true })], tenants := [(0, { handles := [(1, hn)] })] }
    handleOf s 0 1 = some hn ∧ hn.st = .open_ ∧ hn.killing = false ∧ hn.onCtx = none ∧ hn.queue = [td1] ∧
    savedOf (coreOf s hn.core) 0 1 = none ∧ (coreOf s 0).fenced = false ∧ (coreOf s 0).tenant = some 0 ∧
    (coreOf s 0).scrubbed = true ∧ (stCtx s 0 7).st = .free ∧ maskFree (coreOf s 0) 0 1 td1.res0 td1.res1 = true ∧
    (coreOf s 0).rsrq = [] ∧ uangoAway s = false := by decide

def run1 : TaskRun := { tenant := 0, handle := 1, desc := td1 }
theorem test_hyp_TasksEnd :
    (let s := onK fun k => { k with running := none, ctxs := [(7, { cx0 with st := .done, task := some run1 })] }
     (stCtx s 0 7).st = .done ∧ (stCtx s 0 7).task = some run1 ∧ (coreOf s 0).fenced = false ∧ (coreOf s 0).held = [] ∧
     run1.record = {} ∧ (tenantOf s 0).scrub = none ∧ handleOf s 0 1 = none) ∧
    (let s := onK fun k => { k with running := none, ctxs := [(7, { cx0 with st := .faulted })] }
     (stCtx s 0 7).st = .faulted ∧ (stCtx s 0 7).task = none ∧ (coreOf s 0).fenced = false ∧ (coreOf s 0).held = [] ∧ quietCtx s 0 7 = true) := by decide

/-- Eight tasks run; context 3 waits for a semaphore, and handle 2 has a task that waits. -/
def busy8 : State :=
  { cores := [(0, { k0 with running := none, scrubbed := true, waiting := [(0, 2, 0)]
                            ctxs := (List.range 8).map fun i =>
                              (i, { st := if i = 3 then .waitSem else .ready, task := some { run1 with handle := 10 + i } }) })]
    tenants := [(0, { handles := [(2, hn)] })], ftime := 6000000 }
theorem test_hyp_TimeSlicing :
    (coreOf busy8 0).fenced = false ∧ uangoAway busy8 = false ∧ handleOf busy8 0 2 = some hn ∧
    nextMasks (coreOf busy8 0) 0 2 hn = some (td1.res0, td1.res1) ∧ (∀ i, i < 8 → (ctxOf (coreOf busy8 0) i).st ≠ .free) ∧
    busy8.ftime % max 1 (quantumOf busy8 0 (nextJob (coreOf busy8 0) 0 2 hn)) = 0 ∧ (coreOf busy8 0).saving = [] ∧
    (7, ctxOf (coreOf busy8 0) 7) ∈ saveFits busy8 (coreOf busy8 0) 2000000 := by decide

/-- R395: the context in WAIT_SEM is saved for the waiting task. -/
theorem test_slice_waitSem :
    (match exec (.timeSliceBoundary 0) busy8 with | .next t => (coreOf t 0).saving | _ => []) = [(3, 2)] := by decide

/-- A save for handle 2, which is gone or has a task. -/
def saving2 (l : Tab Handle) : State :=
  { s0 with cores := [(0, { k0 with running := none, scrubbed := true, saving := [(7, 2)]
                                    ctxs := [(7, { cx0 with st := .ready, task := some run1 })] })]
            tenants := [(0, { handles := l })] }
theorem test_hyp_SavesEnd :
    (stCtx (saving2 []) 0 7).task = some run1 ∧ (coreOf (saving2 []) 0).saving.find? (fun e => e.1 == 7) = some (7, 2) ∧
    saveReady (saving2 []) 0 7 = true ∧ (coreOf (saving2 []) 0).fenced = false ∧ (coreOf (saving2 []) 0).held = [] ∧
    (coreOf (saving2 []) 0).rsrq = [] ∧ handleOf (saving2 []) 0 2 = none ∧ uangoAway (saving2 []) = false ∧
    handleOf (saving2 [(2, hn)]) 0 2 = some hn ∧ savedOf (coreOf (saving2 [(2, hn)]) 0) 0 2 = none ∧ run1.handle = 1 ∧
    (coreOf (saving2 [(2, hn)]) 0).tenant = some 0 ∧ (coreOf (saving2 [(2, hn)]) 0).scrubbed = true ∧
    maskFree (saveCtx (coreOf (saving2 [(2, hn)]) 0) 7 run1) 0 2 td1.res0 td1.res1 = true ∧
    (∀ m, m < 7 → isWaiting (stCtx (saving2 [(2, hn)]) 0 m).st = false) := by decide
/-! ## The on-die network -/

def pk (d : Dest) : Packet := { id := 1, dest := d, vc := 2, dataFlits := 2 }
/-- The clock of the lowest row band runs. -/
def going : State := { bands := [(0, { stopped := false })] }
def withRouter (r : Nat) (x : Router) : State := { going with planes := [(0, { routers := [(r, x)] })] }
/-- Router 1 has the nine flits of an input buffer on its west side. -/
def fullEast : State := withRouter 1 { inbuf := [(portNo .west, { pk (.core 9 9) with dataFlits := 8 })] }

/-- From one corner of the die to the other, by the local port and by a link; the next buffer full; the Near port at both ends of its column. -/
theorem test_hyp_FlitsMove :
    (let x := routerOf going false 0
     atInputs x = [] ∧ x.slots = [] ∧ x.fifo = [] ∧ x.down = [] ∧ (planeOf going false).tableFor = []) ∧
    Port.locl.at 0 0 = true ∧ (pk (.core 15 23)).carried = true ∧ (pk (.core 15 23)).err = false ∧ (pk (.near 0)).carried = true ∧
    pickPlane going false 0 4 (pk (.core 15 23)) = false ∧ entryPlane going false (pk (.core 15 23)) = false ∧
    mayEnter going false 0 (portNo .locl, pk (.core 15 23)) = true ∧ (nbrAt 1 (portNo .west)).isSome = true ∧ Port.west.at 1 0 = true ∧
    portClosed going 0 = false ∧ takes going false 0 (portNo .locl) (portNo .east) (pk (.core 15 23)) = true ∧
    takes fullEast false 0 (portNo .locl) (portNo .east) (pk (.core 15 23)) = false ∧
    atInputs (routerOf fullEast false 0) = [] ∧ mayEnter fullEast false 0 (portNo .locl, pk (.core 15 23)) = true ∧
    6 * 3 ≤ 23 ∧ 23 ≤ 6 * 3 + 5 ∧ 6 * 0 ≤ 0 ∧ takes going false 0 (portNo .locl) (portNo .near) (pk (.near 0)) = true ∧
    mayEnter going false 0 (portNo .locl, pk (.near 0)) = true := by decide
theorem test_hyp_FlitsMove_fails :
    nbrAt 0 (portNo .east) = some 1 ∧ (routerOf fullEast false 0).failed = false ∧ (routerOf fullEast false 0).fifo = [] ∧
    (planeOf { planes := [(1, { rerouting := true })] } false).rerouting = false ∧
    (planeOf { planes := [(1, { rerouting := true })] } (!false)).rerouting = true ∧
    (let s := withRouter 1 { out := [(portNo .west, { pk (.core 0 0) with req := some 4 })] }
     (∀ e ∈ (routerOf s false 1).out, treeNo e.2.dest = none) ∧ (routerOf s false 1).out ≠ []) := by decide

def arbSt (a : Arbiter) : State := withRouter 0 { arbs := [(portNo .near, a)] }
theorem test_hyp_ArbitratedOutputs :
    (let a : Arbiter := { prio := [(1, 3), (2, 1)], waiting := [(1, pk (.near 0)), (2, { pk (.near 0) with dataFlits := 0 })] }
     let x := routerOf (arbSt a) false 0
     arbOf (arbSt a) false (rtr 0 0) (portNo .near) = a ∧ x.inbuf = [] ∧ x.slots = [] ∧ x.fifo = [] ∧ a.resetting = false ∧
     a.holder = none ∧ headOf a 1 = some (pk (.near 0)) ∧ (∀ e ∈ a.waiting, e.1 < 10) ∧
     (∀ e ∈ a.waiting, e.1 ≠ 1 → look 0 a.prio e.1 < look 0 a.prio 1) ∧ fifoRoom x.out (portNo .near) (pk (.near 0)) = true) ∧
    (let a : Arbiter := { prio := [(1, 15), (2, 1)], holder := some (2, 14), passed := 1, waiting := [(1, pk (.near 0)), (2, pk (.near 0))] }
     headOf a 1 = some (pk (.near 0)) ∧ (14 : Nat) < look 0 a.prio 1 ∧ (pk (.near 0)).dataFlits ≠ 0 ∧ overdue {} a = false ∧
     (∀ e ∈ a.waiting, e.1 < 10) ∧ (∀ e ∈ a.waiting, e.1 ≠ 1 → e.1 ≠ 2 → look 0 a.prio e.1 < look 0 a.prio 1)) ∧
    (let k := { pk (.core 3 4) with req := some 9 }
     let a : Arbiter := { holder := some (0, 15), waiting := [(1, k)] }
     overdue { ftime := 43691 } a = true ∧ overdue { ftime := 43690 } a = false ∧ a.accepted = [] ∧ k.req = some 9 ∧ k.dest = .core 3 4) ∧
    (∀ i, look 0 ({ holder := some (0, 15) } : Arbiter).prio i ≤ 15) ∧
    (arbOf (arbSt { resetting := true }) false 0 (portNo .near)).resetting = true ∧ 2 * 256 ≤ 3 * (171 - 0) ∧ 3 * (170 - 0) < 2 * 256 :=
  ⟨by decide, by decide, by decide, fun _ => Nat.zero_le 15, by decide⟩

/-- The two inputs of a tree at router 0. -/
theorem test_hyp_MeshReduction :
    let e : TreeEntry := { inMask := [portNo .locl, portNo .east], out := 0, reserve := 1 }
    let k := { pk (.tree 4) with vc := 3, dataFlits := 1, seq := 7, elems := List.replicate 32 1 }
    let q : RedSlot := { tree := 4, seq := 7, arrived := [portNo .east], sum := List.replicate 32 2, poison := false }
    (let s := withRouter 0 { trees := [(4, e)] }
     let x := routerOf s false (rtr 0 0)
     Port.locl.at 0 0 = true ∧ k.carried = true ∧ k.dest = .tree 4 ∧ tabFind x.trees 4 = some e ∧ atInputs x = [] ∧ x.fifo = [] ∧
     k.err = false ∧ mayEnter s false 0 (portNo .locl, k) = true ∧ (nbrAt 0 (portNo .east)).isSome = true ∧
     x.slots = [] ∧ 0 < e.reserve ∧ portNo .east ≠ portNo .locl) ∧
    (let s := withRouter 0 { trees := [(4, e)], slots := [q] }
     let x := routerOf s false (rtr 0 0)
     x.slots = [q] ∧ q.tree = 4 ∧ q.seq = k.seq ∧ q.arrived = [portNo .east] ∧ e.out < 4 ∧ x.down = [] ∧ treeVc s false 4 = 3 ∧
     inRoom (routerOf s false 16) (portNo .south) k 0 = true) ∧
    ({ q with arrived := [portNo .locl] } : RedSlot).arrived.contains (portNo .locl) = true ∧
    (let s : State := { planes := [(0, { rerouting := true, newFailed := [5] }), (1, { waiting := true })] }
     (planeOf s false).rerouting = true ∧ holdsFlit (planeOf s false) (fun _ => true) = false ∧ s.chans = [] ∧
     (List.range 8).any (portLost s) = false) ∧ holdsFlit (planeOf fullEast false) (fun _ => true) = true := by decide
/-- Every packet a sum can be is taken by the north output. -/
theorem test_hyp_MeshReduction_takes : ∀ y : Packet, y.vc = 3 → y.dataFlits = 1 → takes {} false 0 adderNo 0 y = true := by
  intro y hv hd
  simp [takes, routerOf, planeOf, look, tabFind, arbitrated, nbrAt, meshPorts, inRoom, flitsOf, atInputs, flits, hv, hd]
/-! ## Failed cores and pages -/

/-- Four lasting errors within the hour, and four whose oldest is just older. -/
theorem test_hyp_CoreFailures :
    (let s : State := { cores := [(351, { k0 with probed := true, lasting := [3600000000000, 3, 2, 1] })] }
     (coreOf s 351).fenced = false ∧ s.grid.retired.contains 351 = false ∧ (coreOf s 351).probed = true ∧
     (coreOf s 351).lasting = 3600000000000 :: 3 :: 2 :: 1 :: [] ∧ 3600000000000 < 1 + 3600000000000) ∧
    (coreOf (onK fun k => { k with lasting := [3, 2, 1] }) 0).lasting.length < 4 ∧
    (let s : State := { cores := [(0, { fenced := true, fill := some .draining })], grid := { fallow := [(1, 0)], map := [(0, (0, 0))] } }
     (coreOf s 0).fill = some .draining ∧ (coreOf s 0).engOpen = [] ∧ s.grid.fallow = [(1, 0)] ∧ usable s (1, 0) = true ∧
     foldAt 1 0 = foldOf s 0) ∧ stackErrors {} 7 = false ∧ stackRetired {} 7 = false ∧
    (let s : State := { cores := [(0, { fenced := true, fill := some (.testing 1 0) })], grid := { fallow := [(1, 0)] } }
     (coreOf s 0).fill = some (.testing 1 0) ∧ s.grid.fallow = [(1, 0)]) ∧
    ({} : State).drover.outOfService = false := by decide

/-- Nine frames of the last channel of stack 7 within the day, and 257 retired frames of stack 0. -/
def worn : State := { telem := { errFrames := (List.range 9).map fun n => (255, 229376 + n, 0) }, ftime := 86399999999999 }
theorem test_hyp_CoreFailures_stack : stackErrors worn 7 = true ∧ worn.drover.outOfService = false := by decide +kernel
theorem test_hyp_CoreFailures_retired :
    stackRetired { frames := (List.range 257).map fun n => (n, { retired := true }) } 0 = true := by decide +kernel

/-- A paged page of tenant 0 that is not resident (V, R, W, X, S, PAGED), with a backing copy. -/
def away : Leaf := { pte := 0x81F, backing := some 524289, backWritten := true }
def awaySt (l : Leaf) (j : List PageJob) : State := { tenants := [(0, { small := [(1, l)] })], jobsPg := j }
def pj (w : PageWork) : PageJob := { tenant := 0, va := 0x200000, work := w }
theorem test_hyp_PageIns :
    leafOf (awaySt away []) 0 (0x3FFFFF : Word64).toNat = some (away, false) ∧ pteV away.pte = true ∧ pteRes away.pte = false ∧
    pteBroken away.pte = 0 ∧ ptePaged away.pte = true ∧ (awaySt away []).jobsPg = [] ∧
    (awaySt away [pj (.evicting 2097151)]).jobsPg = [pj (.evicting 2097151)] ∧ (pj (.evicting 2097151)).work = .evicting 2097151 ∧
    (pj (.writing 0)).work = .writing 0 ∧ (pj (.copying 3)).va = (0x3FFFFF : Word64).toNat / 2097152 * 2097152 ∧
    (look ({} : Frame) (awaySt away [pj (.copying 3)]).frames 3).rot = false ∧ ({ away with backing := none } : Leaf).backing = none ∧
    away.backing = some 524289 ∧ away.backWritten = true ∧ Memory.wf (awaySt away []).mem = true ∧
    uangoAway (awaySt away []) = false := by decide
theorem test_hyp_PageIns_backing : backingError (awaySt away [pj (.copying 3)]) 524289 = none := by
  simp [backingError, awaySt, tabFind]

/-- Two resident paged pages of one pool, the older one accessed. -/
def here (n acc : Nat) : Leaf := { pte := BitVec.ofNat 64 (0x83F + n * 0x200000 + acc * 0x200), inAge := n }
theorem test_hyp_EvictionsAndFills_victim :
    let s : State := { tenants := [(0, { small := [(1, here 1 1), (2, here 2 0), (8, { pte := 0x81F })] })], jobsPg := [{ pj .queued with va := 0x1000000 }] }
    victim s 0 (b2n false) (stackOf 0x400000 (here 2 0) false) = some (0x400000, here 2 0) := by decide
theorem test_hyp_EvictionsAndFills_start :
    let l : Leaf := { pte := 0x0000008000000000 ||| 0x87F, inAge := 1 }
    let l0 : Leaf := { pte := 0x85F }
    let j := { pj .queued with va := 0x1000000 }
    let s : State := { tenants := [(0, { small := [(1, l), (8, l0)] })], jobsPg := [j] }
    s.jobsPg = [j] ∧ j.tenant = 0 ∧ j.work = .queued ∧ leafOf s 0 j.va = some (l0, false) ∧ samePool (b2n true) 0 j.va l0 1 = true ∧
    victim s 0 (b2n true) 0 = some (0x200000, l) ∧ frameFor s 0 j.va l0 = none ∧ (look ({} : Frame) s.frames (frameNo (pteAddr l.pte))).rot = false := by decide
theorem test_hyp_EvictionsAndFills_frame : stateError (awaySt away [pj (.writing 3)]) (3 * 2097152) 2097152 = none ∧ (524289 : Nat) ≠ 3 := by
  refine ⟨?_, by decide⟩
  simp only [stateError, awaySt, tabFind]
  split <;> exact List.findSome?_eq_none_iff.mpr fun _ _ => rfl
theorem test_hyp_EvictionsAndFills_rest :
    (let s := awaySt away [pj (.evicting 3)]
     leafOf s 0 (0x200000 : Word64).toNat = some (away, false) ∧ s.jobsPg = [pj (.evicting 3)] ∧ (pj (.evicting 3)).work = .evicting 3 ∧
     (∀ v ∈ s.invals, v.id ≠ (pj (.evicting 3)).invId)) ∧
    (let s := awaySt away [pj (.writing 3)]
     (pj (.writing 3)).work = .writing 3 ∧ away.backing = some 524289 ∧ s.power.farWait = false ∧ s.far.readOnly = false ∧
     Memory.wf s.mem = true) ∧
    (let x : Tenant := { small := [(1, here 1 1)], evicted := true }
     ({ tenants := [(0, x)] } : State).tenants = [(0, x)] ∧ x.evicted = true) ∧
    (let r := { rq with who := .prefetch 4096, segs := [(0x400000, 64)], st := .done (List.replicate 64 1) }
     let l : PfLine := { blk := 4096, tenant := 0, await := [(1, 0xF)], awaitMask := 0xF }
     let s : State := { (onK fun k => { k with pf := [l] }) with reqs := [r] }
     s.reqs = [r] ∧ isPrefetch r.who = true ∧ (coreOf s r.core).pf = [l] ∧ awaited l r.id = some 0xF) := by decide
/-! ## The DMA engines -/

/-- Tenant 0 with two resident Near pages, at 0x200000 and 0x400000, both read and write; channel 5 runs with its ring in the first. -/
def ch5 : DmaChan := { held := true, tenant := 0, ringVa := 0x200000, cmplVa := 0x210000, ringLog2 := 4, pi := 1, st := .run }
def dmaSt (d : DmaChan) (m : List Host.Cell) : State :=
  { dma := [(5, d)], mem := m, tenants := [(0, { small := [(1, { pte := 0x20003F }), (2, { pte := 0x40003F })] })],
    frames := [(1, { keyTag := 0 }), (2, { keyTag := 0 })] }

/-- Accesses that end as the predicate says. -/
def readsSo (s : State) (va n : Nat) (out : PortOutcome) (p : MemAns → Bool) : Bool := p (vaRead s 0 va n out).2
theorem reads_ok {s : State} {va n : Nat} {out : PortOutcome} {p : List Byte → Bool}
    (h : readsSo s va n out (fun r => match r with | .ok b => p b | _ => false) = true) :
    ∃ u b, vaRead s 0 va n out = (u, .ok b) ∧ p b = true := by
  unfold readsSo at h
  rcases hr : vaRead s 0 va n out with ⟨u, r⟩
  rw [hr] at h
  cases r with
  | ok b => exact ⟨u, b, rfl, h⟩
  | err c => exact absurd h (by simp)
theorem reads_err {s : State} {va n : Nat} {out : PortOutcome}
    (h : readsSo s va n out (fun r => match r with | .ok _ => false | _ => true) = true) : ∃ u e, vaRead s 0 va n out = (u, .err e) := by
  unfold readsSo at h
  rcases hr : vaRead s 0 va n out with ⟨u, r⟩
  rw [hr] at h
  cases r with
  | ok b => exact absurd h (by simp)
  | err c => exact ⟨u, c, rfl⟩
theorem writes_so {s : State} {va : Nat} {bs : List Byte} {out : PortOutcome} {r : Option Cause} (h : (vaWrite s 0 va bs out).2 = r) :
    ∃ u, vaWrite s 0 va bs out = (u, r) := ⟨_, by rw [← h]⟩

/-- OWN = 0 (a ring of zeros), OWN = 1 with LEN = 0, and a copy of 512 bytes from 0x400000 to 0x410000. -/
def copyWord : BitVec 512 := BitVec.ofNat 512 (0x400000 + 0x410000 * 2 ^ 64 + 512 * 2 ^ 128 + 2 ^ 511)
theorem test_hyp_DescriptorsStart_fetch :
    let s := dmaSt ch5 []
    let d := dmaOf s 5
    d.held = true ∧ d.st = .run ∧ d.aborting = false ∧ d.work = [] ∧ d.ci ≠ d.pi ∧ d.waitFrom = none ∧ d.err = 0 ∧ d.counts = [] ∧
    spot s d.tenant.toNat (d.ringVa.toNat + d.ci.toNat % 2 ^ d.ringLog2.toNat * 64) 0 = .ok 0x200000 :=
  ⟨by decide, by decide, by decide, by decide, by decide, by decide, by decide, by decide, rfl⟩
theorem test_hyp_DescriptorsStart_own0 : ∃ u b, vaRead (dmaSt ch5 []) 0 0x200000 64 .clean = (u, .ok b) ∧
    (!dOwn (BitVec.ofNat 512 (ofBytes b))) = true := reads_ok (by decide +kernel)
theorem test_hyp_DescriptorsStart_len0 : ∃ u b, vaRead (dmaSt ch5 [(0x20003F, 0x80)]) 0 0x200000 64 .clean = (u, .ok b) ∧
    (dOwn (BitVec.ofNat 512 (ofBytes b)) && dLen (BitVec.ofNat 512 (ofBytes b)) == 0) = true := reads_ok (by decide +kernel)
theorem test_hyp_DescriptorsStart_good :
    ∃ u b, vaRead (dmaSt ch5 [(0x200002, 0x40), (0x20000A, 0x41), (0x200011, 0x02), (0x20003F, 0x80)]) 0 0x200000 64 .clean = (u, .ok b) ∧
      (BitVec.ofNat 512 (ofBytes b) == copyWord) = true := reads_ok (by decide +kernel)
theorem test_copyWord : dOwn copyWord = true ∧ staticCheck copyWord copyWord = none ∧ dRmode copyWord = 0 ∧ isTile copyWord = false := by decide +kernel
theorem test_hyp_DescriptorsStart_range : rangeCheck (dmaSt ch5 []) 0 copyWord = none := by decide +kernel
theorem test_hyp_DescriptorsStart_strip : stripCheck (dmaSt ch5 []) 0 copyWord = .ok := by
  have h : dDfmt copyWord ≠ 4 := by decide +kernel
  simp [stripCheck, h]

def cur5 : DmaCur := { index := 0, word := copyWord }
theorem test_hyp_DescriptorsStart_burst :
    let s := dmaSt { ch5 with work := [cur5] } []
    issuing s 5 = some cur5 ∧ (∀ k, k < 8 → 8 * 0 + k ≠ 5 → issuing s (8 * 0 + k) = none) ∧
    vaFar s 0 (dSrc copyWord + 0) = false ∧ vaFar s 0 (dDst copyWord + 0) = false ∧
    burstSpot s 0 copyWord (dSrc copyWord + 0) (burstPlan s 0 cur5).1 (burstPlan s 0 cur5).2.2 = .ok 0x4101FF := by
  decide +kernel

/-- A burst that reads and one that writes, each with a clean answer and an error. -/
def bu (st : BurstSt) : Burst := { idx := 3, off := 0, len := 2, bytes := [1, 2], st := st }
def busy (st : BurstSt) : State := dmaSt { ch5 with work := [{ cur5 with issued := 2, bursts := [bu st] }] } []
theorem test_hyp_BurstsMove : findBurst (dmaOf (busy .reading) 5) 3 = some ({ cur5 with issued := 2, bursts := [bu .reading] }, bu .reading) ∧
    spot (busy .reading) 0 0x400000 0 = .ok 0x400000 ∧ spot (busy .writing) 0 0x410000 1 = .ok 0x410000 ∧
    canPost (busy .reading) 5 copyWord (bu .reading) = true ∧ snapshotHeld (busy .writing) 0 0x410000 = false ∧
    (∃ u bs, vaRead (busy .reading) 0 0x400000 2 .clean = (u, .ok bs)) ∧ (∃ u e, vaRead (busy .reading) 0 0x400000 2 .lasting = (u, .err e)) ∧
    (∃ u, vaWrite (busy .writing) 0 0x410000 [1, 2] .clean = (u, none)) ∧
    (∃ u, vaWrite (busy .writing) 0 0x410000 [1, 2] .lasting = (u, some .memError)) ∧
    (dmaOf (dmaSt { ch5 with work := [{ cur5 with checked := false }] } []) 5).work = [{ cur5 with checked := false }] :=
  ⟨by decide +kernel, by decide +kernel, by decide +kernel, by decide +kernel, by decide +kernel, (reads_ok (p := fun _ => true) (by decide +kernel)).imp fun _ h => h.imp fun _ h => h.1,
    reads_err (by decide +kernel), writes_so (by decide +kernel), writes_so (by decide +kernel), by decide +kernel⟩

theorem test_hyp_DescriptorsEnd :
    (let x := { cur5 with issued := 512, bursts := [{ bu .performed with len := 512 }] }
     let d := dmaOf (dmaSt { ch5 with work := [x] } []) 5
     d.st ≠ .paused ∧ d.st ≠ .stopped ∧ d.work = [x] ∧ x.status = none ∧ (∀ b ∈ x.bursts, b.st = .performed) ∧ x.checked = true ∧ x.issued = dLen x.word) ∧
    (let x := { cur5 with issued := 512, bursts := [bu .performed, { bu (.failed .memError) with idx := 4 }] }
     failCause x = some .memError ∧ (∀ b ∈ x.bursts, burstEnded b = true)) ∧
    (dmaOf (dmaSt { ch5 with aborting := true, work := [cur5] } []) 5).aborting = true ∧
    (let d := dmaOf (dmaSt { ch5 with aborting := true } []) 5
     d.work = [] ∧ d.st ≠ .stopped ∧ d.aborting = true ∧ d.resetAfter = false ∧ d.releaseAfter = false ∧ d.err = 0) ∧
    (let d := dmaOf (dmaSt { ch5 with st := .pausing, work := [cur5] } []) 5
     d.st = .pausing ∧ d.aborting = false ∧ d.late = [] ∧ (∀ y ∈ d.work, y.status = none ∧ ∀ b ∈ y.bursts, b.st = .performed)) ∧
    (let w : BitVec 512 := BitVec.ofNat 512 (2 ^ 170)
     (dmaOf (dmaSt { ch5 with late := [(0, w, bu .writing)] } []) 5).late = [(0, w, bu .writing)] ∧ dRmode w = 1) := by
  decide +kernel

/-- The record of a completed descriptor goes to the completion ring. -/
theorem test_hyp_DescriptorsEnd_record :
    let x := { cur5 with status := some 0, bursts := [] }
    let s := dmaSt { ch5 with work := [x] } []
    let d := dmaOf s 5
    d.work = [x] ∧ x.status = some 0 ∧ dSe x.word = false ∧ dIrq x.word = false ∧ d.counts = [] ∧ d.st = .run ∧ x.index + 1 = d.pi ∧
    d.err = 0 ∧ d.st ≠ .paused ∧ spot s d.tenant.toNat (d.ringVa.toNat + x.index.toNat % 2 ^ d.ringLog2.toNat * 64 + 63) 1 ≠ .wait ∧
    spot s d.tenant.toNat (d.cmplVa.toNat + x.index.toNat % 2 ^ d.ringLog2.toNat * 32) 1 = .ok 0x210000 ∧
    ∃ u, vaWrite s d.tenant.toNat (d.cmplVa.toNat + x.index.toNat % 2 ^ d.ringLog2.toNat * 32) (toBytes 32 (recordWord d x)) .clean = (u, none) :=
  ⟨by decide +kernel, by decide, by decide +kernel, by decide +kernel, by decide, by decide, by decide, by decide, by decide, by decide +kernel, by decide +kernel, writes_so (by decide +kernel)⟩
/-! ## The Gleaners -/

/-- Tenant 0 with three resident Near pages at their own addresses, 0x200000, 0x400000 and 0x600000. -/
def gSt (m : List Host.Cell) : State :=
  { mem := m, tenants := [(0, { small := [(1, { pte := 0x20003F }), (2, { pte := 0x40003F }), (3, { pte := 0x60003F })] })],
    frames := [(1, { keyTag := 0 }), (2, { keyTag := 0 }), (3, { keyTag := 0 })] }

/-- A command with code and body; its record goes to 0x200800. -/
def gc (code : Nat) (body : Nat) : GCmd :=
  { id := 1, tenant := 0, core := 0, ctx := 0, order := 0, va := 0x200A00, se := true, sem := 3, started := true,
    bytes := toBytes 64 (code + 2 ^ 8 + 0x200800 * 2 ^ 64) ++ toBytes 64 body }
def withCmd (s : State) (g : GCmd) : State := { s with folds := [(47, { cmds := [g] })] }

/-- A matrix of one block row and two block columns, both stored, at 0x200000: BX8, data at 0x400000. Predicted: column 0; asked: column 1. -/
def spm : List Host.Cell := [(0x200000, 1), (0x200001, 1), (0x200003, 2), (0x200008, 2), (0x200012, 0x40), (0x200040, 3), (0x20004C, 2),
  (0x200100, 1), (0x200108, 2)]
def bfBody (mode : Nat) : Nat :=
  0x200000 + 0x200100 * 2 ^ 64 + 0x200108 * 2 ^ 128 + 0x600000 * 2 ^ 192 + 0x200400 * 2 ^ 256 + 1 * 2 ^ 336 + 4 * 2 ^ 352 + mode * 2 ^ 368

/-- What PREDICT needs: the matrix and the map can be read, the blocks copied, the list written. -/
def predictRuns (s : State) (g : GCmd) : Bool :=
  match predicted s g.tenant (gBody g) with
  | .ok (m, l) => match upToStop ((slotted 0 l).map (copyPieces s g.tenant (gBody g) m false)) with
    | (outs, none) => l.length == 1 && outsReady s g.tenant ((bfList (gBody g), toBytes 16 l.length) :: outs) &&
        (match writeTurn g.tenant outs s with
         | (u, none) => (vaWrite u g.tenant (bfList (gBody g)) (toBytes 16 l.length) .clean).2 == none
         | _ => false)
    | _ => false
  | _ => false
theorem test_hyp_GleanerCommands_predict : let g := gc 1 (bfBody 0)
    runningCmd (withCmd (gSt spm) g) 47 1 1 = some g ∧ bfMode (gBody g) = 0 ∧ predictRuns (gSt spm) g = true := by decide +kernel
/-- With the data base odd, the matrix is misaligned. -/
theorem test_hyp_GleanerCommands_bad :
    (match predicted (gSt ((0x200010, 1) :: spm)) 0 (gBody (gc 1 (bfBody 0))) with | .error (.bad .align _) => true | _ => false) = true := by
  decide +kernel

/-- What RESOLVE needs: PREDICT has left one entry of block (0, 0); block (0, 1) is missing. -/
def resolveRuns (s : State) (g : GCmd) : Bool :=
  match resolved s g.tenant (gBody g) with
  | .ok (m, n, miss, extra) => match dropPieces s g.tenant (gBody g) n extra, upToStop ((slotted n miss).map (copyPieces s g.tenant (gBody g) m true)) with
    | .ok drops, (outs, none) =>
      let head := toBytes 16 (n + 2 ^ 32 * miss.length + 2 ^ 64 * extra.length)
      n == 1 && miss.length == 1 && extra.length == 1 && drops.length == 1 &&
      outsReady s g.tenant ((bfList (gBody g), head) :: outs ++ drops) &&
      (match writeTurn g.tenant (outs ++ drops) s with
       | (u, none) => (vaWrite u g.tenant (bfList (gBody g)) head .clean).2 == none
       | _ => false)
    | _, _ => false
  | _ => false
theorem test_hyp_GleanerCommands_resolve : let g := gc 1 (bfBody 1)
    bfMode (gBody g) = 1 ∧ resolveRuns (gSt (spm ++ [(0x200400, 1)])) g = true := by decide +kernel

/-- A table of one BX8 row of one panel at 0x400000, and a lookup of row 0 to 0x600000; the same row on module 5. -/
def tb (m : Nat) : Table :=
  { fmt := 1, np := 1, train := false, nrows := 1, schan := 0, shards := [(0, m, 47, 0x400000)],
    versions := [{ version := 0, nrows := 1, bases := [(0, 0x400000)] }] }
def lkBody : Nat := 0x200000 + 0x600000 * 2 ^ 192 + 2 ^ 364 + 2 ^ 400
def tabled (m : Nat) : State :=
  { gSt [] with tenants := [(0, { tenantOf (gSt []) 0 with tables := [(0, tb m)] })], fabric := { map := [⟨5, 77, true⟩] },
                chans := [(9, { valid := true, cfg := { gln := true, peer := 5 } })] }
def lookupRuns (s : State) (g : GCmd) : Bool :=
  match tableOf s g.tenant (lkTable (gBody g)) with
  | some x => match lkPlan s g.tenant (gBody g) ((versionOf x g.version.toNat).map (·.nrows) |>.getD x.nrows) with
    | .ok p =>
      let got := p.slots.map (fun w => lkFetch s g.tenant x g.version.toNat [] w.1)
      let own := (runRows x (gBody g) p).flatten.filter (fun r => (shardOf x r).2.2.1 == s.fabric.modid)
      p.slots.length == 1 && runNeeds g.asked (lkFar s x p) (lkNeeds got) (runRows x (gBody g) p) == none && lkPath (gBody g) == 0 &&
      (match lkOuts x (gBody g) ((List.range (lkRows (gBody g))).map fun k => (k, lkRow s g.tenant x (gBody g) p got k)) with
       | (outs, none) => outsReady s g.tenant (outs.getLastD (lkOut (gBody g), []) :: outs) &&
           (match writeTurn g.tenant outs (serveRows s g.tenant (lkTable (gBody g)) own) with
            | (u, none) => (vaWrite u g.tenant (outs.getLastD (lkOut (gBody g), [])).1 (outs.getLastD (lkOut (gBody g), [])).2 .clean).2 == none
            | _ => false)
       | _ => false)
    | _ => false
  | none => false
theorem test_hyp_GleanerCommands_lookup : let g := gc 2 lkBody
    runningCmd (withCmd (tabled 0) g) 47 1 2 = some g ∧ lookupRuns (tabled 0) g = true := by decide +kernel
theorem test_hyp_GleanerCommands_remote : let s := tabled 5
    (match tableOf s 0 0, lkPlan s 0 (gBody (gc 2 lkBody)) 1 with
     | some x, .ok p => (runNeeds [] (lkFar s x p) (lkNeeds (p.slots.map fun w => lkFetch s 0 x 0 [] w.1)) (runRows x (gBody (gc 2 lkBody)) p)).isSome
     | _, _ => false) = true := by decide +kernel

/-- A path record with one unique row, one index and one entry, whose gradient row lies at 0x400000. -/
def scBody : Nat := 0x200000 + 0x400000 * 2 ^ 64 + 2 ^ 268
theorem test_hyp_GleanerCommands_scatter : let g := gc 3 scBody
    let s := { gSt [(0x200000, 1), (0x200004, 1), (0x200008, 1), (0x200050, 1)] with
      tenants := [(0, { tenantOf (gSt []) 0 with tables := [(0, { tb 0 with train := true })] })] }
    runningCmd (withCmd s g) 47 1 3 = some g ∧
    (match tableOf s 0 (scTable (gBody g)) with
     | some x => match scPlan s 0 x (gBody g) g.aexp with
       | .ok (slots, _) => (okSlots slots).2 == none && (okSlots slots).1.length == 1
       | _ => false
     | none => false) = true := by decide +kernel

/-- A graph of one node with an edge to itself, sampled from that node with fan-out 1 over one hop. -/
def graph : List Host.Cell := [(0x200000, 1), (0x200005, 1), (0x200048, 0x80), (0x20004A, 0x20), (0x200050, 0xC0), (0x200052, 0x20), (0x200088, 1)]
def smBody : Nat := 0x200000 + 0x200100 * 2 ^ 64 + 0x600000 * 2 ^ 128 + 4096 * 2 ^ 320 + 2 ^ 352 + 2 ^ 369 + 2 ^ 372
theorem test_hyp_GleanerCommands_sample : let g := gc 4 smBody
    runningCmd (withCmd (gSt graph) g) 47 1 4 = some g ∧
    (match readGraph (gSt graph) 0 (smGraph (gBody g)) with
     | .ok gr => match sampleOf (gSt graph) 0 (gBody g) gr [] with
      | .ok r =>
       let outs := layOut (smOut (gBody g) + 64) (sampleSections (gBody g) r)
       nodeList r == [0] && outsReady (gSt graph) 0 ((smOut (gBody g), sampleHead (gBody g) r) :: outs) &&
       (match writeTurn 0 outs (gSt graph) with
        | (u, none) => (vaWrite u 0 (smOut (gBody g)) (sampleHead (gBody g) r) .clean).2 == none
        | _ => false)
      | _ => false
     | _ => false) = true := by decide +kernel

theorem test_hyp_GleanerCommands_complete : let g := { gc 1 (bfBody 0) with status := some none }
    let s := withCmd (gSt []) g
    findCmd s 47 1 = some g ∧ g.status.isSome = true ∧ g.blocks = [] ∧ complSpot s g = .ok 0x200800 ∧
    (vaWrite s g.tenant (gCompl (gHead g)) (complRecord g) .clean).2 = none := by decide +kernel

/-- The start of a command: a reserved code, one that fails its frame check (BLEN 0), and one that passes. -/
def gq : GCmd := { id := 1, tenant := 0, core := 0, ctx := 0, order := 0, va := 0x200A00, se := false, sem := 0 }
def startSt (m : List Host.Cell) : State := withCmd (gSt m) gq
theorem test_hyp_GleanerRequests_start : (glnOf (startSt []) 47).cmds = [gq] ∧ gq.started = false ∧ gq.status = none ∧
    (match gRead (startSt []) 0 0x200A00 64 with | .ok hd => bodyUnits (gCode (BitVec.ofNat 512 (ofBytes hd))) == none | _ => false) = true ∧
    (match readCmd (startSt [(0x200A00, 1)]) gq with | .ok (_, some (.bounds, 0)) => true | _ => false) = true := by decide +kernel
/-- The body of the block fetch that passes: RMODE 0, slots 4, at 0x200A40. -/
def passing : List Host.Cell := spm ++ [(0x200A00, 1), (0x200A01, 1), (0x200A09, 0x08), (0x200A0A, 0x20), (0x200A42, 0x20), (0x200A49, 1), (0x200A4A, 0x20),
  (0x200A50, 8), (0x200A51, 1), (0x200A52, 0x20), (0x200A5A, 0x60), (0x200A61, 4), (0x200A62, 0x20), (0x200A6A, 1), (0x200A6C, 4)]
theorem test_hyp_GleanerRequests_passes :
    (match readCmd (startSt passing) gq with | .ok (_, none) => true | _ => false) = true := by decide +kernel

theorem test_hyp_GleanerRequests :
    (let x := { tb 0 with train := true, nrows := 1, current := 1 }
     let s : State := { gSt [] with tenants := [(0, { tables := [(4095, x)] })] }
     tableOf s 0 4095 = some x ∧ x.train = true ∧ (shardOf x 0).2.2.1 = s.fabric.modid ∧ (shardOf x 0).2.2.2.1 = 47 ∧ 0 < x.nrows ∧
     32 * 1 < tableDim x ∧ x.current = 0 + 1 ∧ pinned s 0 4095 (some 0) = false ∧
     pinned (withCmd s { gq with pin := some (4095, 0) }) 0 4095 (some 0) = true ∧ otherModules { fabric := { map := [⟨5, 77, true⟩] } }  ≠ []) ∧
    inRange gq.va.toNat 64 (0x200A40 : Word64).toNat = false ∧
    (let s := tabled 0
     chanHeld s 0 9 = true ∧ (chanOf s 9).cfg.gln = true ∧
     (match ownRow s 0 (tb 0) 0 0 with | .ok _ => true | _ => false) = true) ∧
    (let s := { gSt [(0x200088, 1)] with chans := [(9, { valid := true, cfg := { gln := true, peer := 5 } })] }
     let p : Part := ⟨0, 0, 47, 0x200080, 0x2000C0, 0⟩
     chanHeld s 0 9 = true ∧ s.fabric.modid = 0 ∧
     (match expand s 0 ⟨1, false, false, [p]⟩ p 0 1 false (nodeDraw 0 0 0 0 1) with | .ok y => y.nbrs == [0] | _ => false) = true) := by
  decide +kernel

/-- R241: one of three positions, drawn at 0; the draws are below 2^32. -/
theorem test_hyp_BlocksAndDraws : (3 : Nat) ≤ 3 ∧ (∀ i : Nat, (fun _ : Nat => 0) i < 2 ^ 32) := ⟨by decide, fun _ => by simp⟩
/-! ## Training and epochs -/

theorem ne_succ {w : Nat} (d : BitVec w) (hw : 0 < w) : d ≠ d + 1 := by
  intro h
  have h2 := congrArg BitVec.toNat h
  have h3 : 1 < 2 ^ w := Nat.one_lt_two_pow (by omega)
  have h4 := d.isLt
  have h6 : (1 : BitVec w).toNat = 1 := Nat.mod_eq_of_lt h3
  rw [BitVec.toNat_add, h6] at h2
  by_cases hc : d.toNat + 1 < 2 ^ w
  · rw [Nat.mod_eq_of_lt hc] at h2; omega
  · have h5 : d.toNat + 1 = 2 ^ w := by omega
    rw [h5, Nat.mod_self] at h2; omega

def job1 : Job := { uid := 5, seed := 0, map := 0, ranks := [0, 6], stepVa := 0x2000, progId := 1, st := .running, started := true,
                    scales := [(63, { aCur := 3, aMin := 0, aMax := 10, backoff := 2, growInterval := 1 })], ckpt := some (1, 6, 1000) }
def jobSt (j : Job) : State := { tenants := [(0, { jobs := [(2, j)] })] }
/-- A vote, the close of a step, a held one, and the loss of a module with a rank. -/
theorem test_hyp_StepsOfAJob :
    jobOf (jobSt job1) 0 2 = some job1 ∧ job1.st = .running ∧ job1.decided = false ∧
    ({ job1 with decided := true } : Job).holdFrom = none ∧ job1.evacuate = false ∧ ({ job1 with holdFrom := some 0 } : Job).holdFrom = some 0 ∧
    tabFind job1.scales 63 = some { aCur := 3, aMin := 0, aMax := 10, backoff := 2, growInterval := 1 } ∧
    (jobSt job1).tenants = [(0, { tenantOf (jobSt job1) 0 with jobs := [(2, job1)] })] ∧ (6 : Nat) ≠ (jobSt job1).fabric.modid ∧
    job1.ranks.contains 6 = true := by decide +kernel

theorem test_hyp_RiskAndLevels : ({ drover := { restarting := true } } : State).drover.restarting = true ∧ ({} : State).drover.restarting = false ∧
    threshold {} 0 ≤ 0 ∧ threshold {} 3 ≤ 255 ∧ ({} : State).plover.ended = [] ∧
    ({ plover := { ended := [[1], []] } } : State).plover.ended = [1] :: [[]] := by decide

/-- The first nanosecond at which the interval has passed, and the one before. -/
theorem test_hyp_Epochs :
    (let s := { jobSt job1 with ftime := 500000000 }
     jobOf s 0 2 = some job1 ∧ intervalOf s true job1 = some 500000000 ∧ job1.st = .running ∧ job1.asked = none ∧ job1.epochTime + 500000000 ≤ s.ftime) ∧
    (intervalOf { jobSt job1 with ftime := 499999999 } true job1 = some 500000000 ∧
     ({ jobSt job1 with ftime := 499999999 } : State).ftime < job1.epochTime + 500000000) ∧
    job1.ckpt = some (1, 6, 1000) ∧ 0 < ({ jobSt job1 with plover := { level := 1 } } : State).plover.level.toNat ∧
    (jobSt job1).plover.level.toNat = 0 ∧
    (let j := { job1 with asked := some (1, false) }
     jobOf (jobSt j) 0 2 = some j ∧ j.asked = some (1, false) ∧ j.decided = false ∧ j.started = true) ∧
    (let j := { job1 with asked := some (1, true) }
     let e : Epoch := { epoch := 1, step := 0, ftime := 0 }
     let c : Ckpt := { uid := 5, rank := 0, open_ := some e }
     let s : State := { tenants := [(0, { jobs := [(2, j)], ckpts := [c] })] }
     jobOf s 0 2 = some j ∧ j.asked = some (1, true) ∧ ckptOf s 0 j.uid = some c ∧ c.open_ = some e ∧ s.far.readOnly = false) ∧
    (let s : State := { tenants := [(0, { jobs := [(2, job1)], farUnits := 1 })] }
     uidTenant s 5 = some 0 ∧ (tenantOf s 0).mirrored = [] ∧ s.far.readOnly = false ∧
     (tenantOf s 0).askAgain.contains ((5 : Word64), (1 : Word64).toNat, 0, 0, 0) = false ∧
     tierUsed s 0 2 + (([1, 2] : List Byte).length + 256 + 2097151) / 2097152 ≤ (tenantOf s 0).farUnits) := by decide +kernel
theorem test_hyp_Epochs_digest (d : BitVec 384) : ∃ dg, d ≠ dg := ⟨d + 1, ne_succ d (by decide)⟩
/-! ## Links and their frames -/

def lkSt (x : Link) : State := { links := [(31, x)] }
/-- A peer on the same die whose serial number is the next one. -/
def peerRec : HelloRec := { serial := Config.serialNo + 1, link := 31, peerSeen := true }
theorem peer_not_own : (Config.serialNo + 1 == Config.serialNo) = false := by
  apply beq_false_of_ne
  exact fun h => ne_succ Config.serialNo (by decide) h.symm
theorem test_hyp_LinkStates_refusal : refusal (lkSt { st := .hello }) 31 peerRec = none := by
  simp [refusal, peerRec, peer_not_own, lkSt]
/-- One state per clause; margins of three and of two good lanes. -/
theorem test_hyp_LinkStates :
    (linkOf (lkSt { st := .train }) 31).st = .train ∧ 3 ≤ popCount 4 (goodLanes [8, 0, 8, 8]).toNat ∧
    popCount 4 (goodLanes [8, 7, 8]).toNat < 3 ∧ (linkOf (lkSt { st := .train, trainFails := 1 }) 31).trainFails < 2 ∧
    2 ≤ (linkOf (lkSt { st := .train, trainFails := 2 }) 31).trainFails ∧
    (let x := linkOf (lkSt { st := .align, lanes := 15, trainFails := 2 }) 31
     x.st = .align ∧ 3 ≤ popCount 4 (x.lanes &&& 7).toNat ∧ 2 ≤ x.trainFails) ∧
    (let s : State := { links := [(31, { st := .hello })], drover := { identity := true } }
     (linkOf s 31).st = .hello ∧ (linkOf s 31).sawPeer = false ∧ (linkOf s 31).retrained = false ∧ s.drover.drbgOk = true ∧
     s.drover.identity = true ∧ (linkOf s 31).refused = none) ∧
    (let x := linkOf (lkSt { st := .keyx, keyStage := 2 }) 31
     x.st = .keyx ∧ x.keyStage = 2) ∧ (linkOf (lkSt { st := .keyx }) 31).keyStage = 0 ∧
    (let x := linkOf (lkSt { st := .up, lanes := 8, keyed := true, upCount := 1024 }) 31
     x.st = .up ∧ x.lanes.getLsbD 3 = true ∧ x.retrainTimes = [] ∧ x.keyed = true ∧ x.rekeying = false ∧ 1024 ≤ x.upCount) ∧
    16 < 17 ∧ 16 ≤ 16 ∧ (linkOf (lkSt { st := .retrain }) 31).st = .retrain ∧
    (let s := lkSt { st := .failed }
     (linkOf s 31).st = .failed ∧ (linkOf s 31).retryAt ≤ s.ftime) := by decide
theorem test_hyp_LinkStates_peer :
    (linkOf (lkSt { st := .hello, peer := some peerRec, refused := some 1 }) 31).peer = some peerRec ∧
    (linkOf (lkSt { st := .keyx, keyStage := 1, peer := some peerRec }) 31).peer.map (·.serial) = some peerRec.serial := ⟨rfl, rfl⟩

def hd0 : FrameHdr := { link := 0 }
def frm : TxFrame := { fseq := 4095, vc := 1, chan := 7, dest := 5, kind := 6 }
def upSt (x : Link) : State := { links := [(0, { x with st := .up })] }
theorem taken_up (x : Link) : FrameTaken hd0 (upSt x) :=
  ⟨rfl, rfl, rfl, rfl, by decide, rfl, rfl, rfl, by simp [upSt], rfl⟩
theorem test_hyp_LinkControl_taken : FrameTaken hd0 (upSt { txBuf := [frm] }) := taken_up _
theorem test_hyp_LinkControl :
    ({ hd0 with ack := 4095 } : FrameHdr).ack = frm.fseq ∧ (hd0.ack - ({ frm with fseq := 1 } : TxFrame).fseq).toNat ≥ 2048 ∧
    (∀ c ∈ (upSt { txBuf := [frm] }).chans, c.2.open_ = []) ∧
    ({ resent := some 1 } : Link).resent = some ({ frm with fseq := 1 } : TxFrame).fseq ∧
    ownLinkOf (upSt { peer := some { peerRec with serial := 1, link := 9 } }) 0 9 = some 0 ∧
    (let p := some { peerRec with serial := 1 }
     let s : State := { links := [(0, { st := .up, peer := p }), (15, { st := .failed, failover := true, txBuf := [frm], peer := p })] }
     (15 : Nat) ≠ 0 ∧ (linkOf s 0).failover = false ∧ (linkOf s 0).txBuf = [] ∧ (linkOf s 15).st = .failed ∧ (linkOf s 15).failover = true ∧
     (linkOf s 15).txBuf = [frm] ∧ (frm.fseq - 4095).toNat < 2048 ∧ sequenced frm.kind = true ∧ siblings s 15 = [0] ∧ 15 / 16 = 0 / 16 ∧
     0 < vcCredit (linkOf s 0) frm.vc.toNat) ∧
    (let s : State := { links := [(0, { st := .failed, failover := true, txBuf := [frm], leftUpAt := some 0 })], ftime := 10000000,
                        chans := [(9, { valid := true, cfg := { peer := 5, peerChan := 7 } })] }
     (linkOf s 0).st ≠ .up ∧ (linkOf s 0).failover = true ∧ (linkOf s 0).leftUpAt = some 0 ∧ 0 + 10000000 ≤ s.ftime ∧ siblings s 0 = [] ∧
     chanOfFrame s frm = some 9 ∧ (chanOf s 9).valid = true ∧ (chanOf s 9).ended = false ∧ s.fabric.holding = false) ∧
    10 < (11 : BitVec 4).toNat ∧ ({ hd0 with vc := 3 } : FrameHdr).vc ≠ 0 := by decide
theorem test_hyp_LinkControl_age :
    let s : State := { dies := [(1, { queue := [([31], frm)] })], ftime := 10000000
                       chans := [(9, { valid := true, cfg := { peer := 5, peerChan := 7 } })] }
    (dieOf s true).queue = [([31], frm)] ∧ frm.since + 10000000 ≤ s.ftime ∧ chanOfFrame s frm = some 9 ∧ (chanOf s 9).valid = true ∧
    (chanOf s 9).ended = false ∧ s.fabric.holding = false ∧ (9999999 : Nat) < frm.since + 10000000 := by decide
/-- The NAK timer and the 5 ms of a key agreement at their limits, and a link that enters UP with nothing to send. -/
theorem test_hyp_LinkControl_times :
    (let s : State := { links := [(0, { st := .up, nakOpen := true, nakAt := 5 })], ftime := 2005 }
     (linkOf s 0).nakOpen = true ∧ (linkOf s 0).nakAt + 2000 ≤ s.ftime ∧ 2004 < (linkOf s 0).nakAt + 2000) ∧
    (let s : State := { links := [(0, { st := .keyx, keyFrom := 7 })], ftime := 5000007 }
     (linkOf s 0).keyFrom + 5000000 ≤ s.ftime ∧ 5000006 < (linkOf s 0).keyFrom + 5000000) ∧
    (let s := lkSt { st := .keyx, keyStage := 2 }
     s.fabric.acting = false ∧ s.fabric.bwSerial = none ∧ s.fabric.bwLink = none ∧ s.fabric.out = [] ∧ (linkOf s 31).failover = false ∧
     (dieOf s (decide (16 ≤ 31))).queue = [] ∧ (dieOf s (decide (16 ≤ 31))).mcWait = []) := by decide

/-- Channel 7 of module 0, whose next number is 1, with a transfer open or none, and a page of its tenant. -/
def chSt (open_ : List Transfer) : State :=
  { links := [(0, { st := .up })], chans := [(7, { valid := true, cfg := { peer := 5 }, open_ := open_ })],
    tenants := [(0, { small := [(1, { pte := 0x20003F })] })], frames := [(1, { keyTag := 0 })], cores := [(351, { tenant := some 0 })] }
def hd7 : FrameHdr := { link := 0, vc := 1, chan := 7, cseq := 1 }
theorem accepted_ch (o : List Transfer) (v : BitVec 2) : FrameAccepted { hd7 with vc := v } (chSt o) :=
  ⟨rfl, rfl, rfl, rfl, rfl, rfl, rfl, by show (0 : BitVec 3).getLsbD 2 = false; decide, rfl, rfl, by simp [chSt], rfl⟩
theorem test_hyp_ChannelFrames_chan (o : List Transfer) : ForChan hd7 (chSt o) :=
  ⟨rfl, rfl, rfl, rfl, by show (1 : Word32) = 0 + 1; decide⟩
theorem test_hyp_ChannelFrames :
    coreUsable (chSt []) 0 351 = true ∧ coreUsable (chSt []) 0 0 = false ∧ (coreOf (chSt []) 351).fenced = false ∧
    (chanOf (chSt []) 7).open_ = [] ∧ (chanOf (chSt []) 7).cfg.peer.toNat ≠ (chSt []).fabric.modid ∧ (chanOf (chSt []) 7).early = [] ∧
    (∀ m, isWaiting (stCtx (chSt []) 351 m).st = false) ∧ (0 : Nat) < 236 ∧ (chanOf (chSt []) 7).cfg.red = false := by
  refine ⟨by decide, by decide, by decide, by decide, by decide, by decide, fun _ => rfl, by decide⟩
theorem test_hyp_ChannelFrames_xfer :
    farCheck (chSt []) { peer := 5 } 1 236 0x200000 = none ∧ kindOf (xferWord { peer := 5 } 236 0x200000) = 0 ∧ farCheck (chSt []) { peer := 5 } 1 0 0x200000 = some .bounds ∧
    farCheck (chSt []) { peer := 5 } 0 236 0x200000 = none ∧ farCheck (chSt []) { peer := 5 } 0 236 0x3FFF80 = some .bounds ∧
    (let tr : Transfer := { first := 1, len := 1, va := 0x200000 }
     (chanOf (chSt [tr]) 7).open_ = [tr] ∧ tr.read = false ∧ tr.first = hd7.cseq ∧ tr.parts = [] ∧ tr.done = [] ∧ tr.dma = none ∧ tr.word = none ∧
     tr.len = ([9] : List Byte).length ∧ spot (chSt [tr]) 0 tr.va.toNat 1 = .ok 0x200000 ∧ snapshotHeld (chSt [tr]) 0 0x200000 = false) ∧
    (∀ p ∈ pagesOf 0x200000 236, spot (chSt []) 0 (max p 0x200000) 0 ≠ .wait) := by decide +kernel
/-- The write of one byte and the read of one succeed whatever the links and channels hold. -/
theorem test_hyp_ChannelFrames_access (o : List Transfer) (u : State) (h : u = { chSt o with links := u.links, chans := u.chans }) :
    (vaWrite u 0 0x200000 [9] .clean).2 = none ∧ ∃ b, (vaRead u 0 0x200000 1 .clean).2 = .ok b ∧ b.length = 1 := by
  rw [h]; exact ⟨rfl, [0], rfl, rfl⟩
theorem test_hyp_ChannelFrames_done :
    let w : DmaCur := { index := 0, word := BitVec.ofNat 512 (2 ^ 170 + 7 * 2 ^ 172), bursts := [bu .writing] }
    dRmode w.word = 1 ∧ dFchan w.word = 7 ∧ w.status = none ∧ w.bursts = [bu .writing] ∧ (bu .writing).st = .writing := by decide +kernel
theorem test_hyp_ChannelFrames_tree :
    let h : FrameHdr := { link := 0, dest := 3, chan := 7 }
    let e : TreeEntry := { inMask := [0, 16], out := 16, reserve := 1 }
    let s : State := { links := [(0, { st := .up })], dies := [(0, { trees := [(treeKey 3 7, e)] })] }
    FrameAccepted h s ∧ h.vc = 0 ∧ tabFind (dieOf s (decide (16 ≤ 0))).trees (treeKey h.dest.toNat h.chan.toNat) = some e ∧
    inputOf s 0 e.inMask = some 0 ∧ e.inMask = [0, 16] ∧ (16 : Nat) ≠ 0 ∧ (∀ y ∈ s.chans, y.2.redLater = []) ∧ (dieOf s false).slots = [] ∧ (dieOf s false).parked = [] ∧ 0 < e.reserve :=
  ⟨⟨rfl, rfl, rfl, rfl, rfl, rfl, rfl, by decide, rfl, rfl, by decide, rfl⟩, by decide⟩
/-! ## Mailbox commands -/

/-- An entry of a command with its fields (offset, size, value) and data. -/
def en (p : CmdSpec) (fields : List (Nat × Nat × Nat)) (data : List Byte := []) : Entry :=
  { fn := 0, indirect := p.data, payloadLength := if p.data then BitVec.ofNat 32 data.length else BitVec.ofNat 32 p.size,
    body := bodyOf fields, data := data }
/-- The PF with a session and one command to read. -/
def fun0 : Func := { fstate := .ready, sMajor := 1, enable := true, cmdPi := 1 }
def mb (x : Tenant) : State := { funcs := [(0, fun0)], tenants := [(0, x)], frames := [(1, { keyTag := 0 })] }
def admits (p : CmdSpec) (e : Entry) (s : State) : Bool :=
  slotReady s e && !e.readFails && !switching s (funcOf s e.fn) && (headerCheck (funcOf s e.fn) e (p.op == 0) (some p) false).isNone &&
  (bodyCheck s e p false).isNone && decide ((funcOf s e.fn).owed.length < 64) && !e.late && (funcOf s e.fn).rspWait.isEmpty &&
  decide (idxDist (funcOf s e.fn).rspPi (funcOf s e.fn).rspCi < 256)
theorem admits_sound {p : CmdSpec} {e : Entry} {s : State} (h : admits p e s = true) : Admits p e s := by
  simp only [admits, Bool.and_eq_true, Option.isNone_iff_eq_none, Bool.not_eq_eq_eq_not, Bool.not_true, decide_eq_true_eq,
    List.isEmpty_iff] at h
  exact ⟨h.1.1.1.1.1.1.1.1, h.1.1.1.1.1.1.1.2, h.1.1.1.1.1.1.2, h.1.1.1.1.1.2, h.1.1.1.1.2, h.1.1.1.2, h.1.1.2, h.1.2, h.2⟩

/-- The slot empty; the PF updating; a wrong version; a reserved bit; a passing entry with 64 owed; the ends of the vendor range. -/
theorem test_hyp_CommandChecks :
    slotReady {} (en spTenantEnd []) = false ∧ slotReady (mb {}) (en spTenantEnd []) = true ∧ fun0.rspWait = [] ∧
    slotReady (mb {}) { en spTenantEnd [] with readFails := true } = true ∧ (en spTenantEnd []).readFails = false ∧
    idxDist fun0.rspPi fun0.rspCi < 256 ∧ switching (mb {}) { fun0 with fstate := .updating } = true ∧ switching (mb {}) fun0 = false ∧
    headerCheck fun0 { en spTenantEnd [] with verMajor := 2 } false (some spTenantEnd) false = some stBadVersion ∧
    headerCheck fun0 (en spTenantEnd []) false (some spTenantEnd) false = none ∧
    bodyCheck (mb {}) { en spTenantEnd [] with body := 1 } spTenantEnd false = some stBadField ∧
    bodyCheck (mb {}) (en spTenantEnd []) spTenantEnd false = none ∧
    64 ≤ ({ fun0 with owed := List.replicate 64 { opcode := 0, seq := 9 } } : Func).owed.length ∧
    (∀ q ∈ allSpecs, q.op ≠ (0x0EFF : Half).toNat) ∧ (0x0EFF : Half).toNat < 0x0F00 ∧ (∀ q ∈ allSpecs, q.op ≠ (0x1000 : Half).toNat) ∧
    0x0FFF < (0x1000 : Half).toNat ∧ 0x0F00 ≤ (0x0F00 : Half).toNat ∧ (0x0FFF : Half).toNat ≤ 0x0FFF ∧
    headerCheck fun0 (en {op := 0x0F00} []) false (some { op := 0x0F00 }) false = none ∧
    headerCheck fun0 { en {op := 0x0F00} [] with verMajor := 0 } false (some { op := 0x0F00 }) false = some stBadVersion ∧
    ({} : State).drover.diagUnlocked = [] := by decide +kernel
theorem test_hyp_CommandChecks_final :
    let c : PendCmd := { opcode := 0x0102, seq := 3, status := some stOK }
    let s : State := { funcs := [(0, { fun0 with owed := [c] })] }
    (funcOf s 0).owed = [c] ∧ c.status = some stOK ∧ (funcOf s 0).enable = true ∧ (funcOf s 0).rspWait = [] ∧
    idxDist (funcOf s 0).rspPi (funcOf s 0).rspCi < 256 ∧ s.drover.switching = false := by decide +kernel

theorem test_hyp_Sessions :
    Admits spHello (en spHello []) { funcs := [(0, { fun0 with sMajor := 0 })] } ∧ Admits spHello { en spHello [] with reset := true } (mb {}) ∧
    (mb {}).drover.lostUntold.contains 0 = false ∧ Admits spBye (en spBye []) (mb {}) ∧ Admits spPing (en spPing [(0, 8, 7)]) (mb {}) :=
  ⟨admits_sound (by decide +kernel), admits_sound (by decide +kernel), by decide, admits_sound (by decide +kernel), admits_sound (by decide +kernel)⟩

/-- An allotment of one core, one more than the module has, and none. -/
theorem test_hyp_Tenants_config :
    (let e := en spTenantConfig [(12, 2, 1)]
     let s : State := { funcs := [(0, { fun0 with fstate := .idle })] }
     Admits spTenantConfig e s ∧ allotFits s 0 [0, 0, 0, 1, 0, 0] = true ∧ s.drover.drbgOk = true ∧ (funcOf s 0).fstate = .idle) ∧
    (let e := en spTenantConfig [(12, 2, 353)]
     Admits spTenantConfig e (mb {}) ∧ allotFits (mb {}) 0 [0, 0, 0, 353, 0, 0] = false) ∧
    Admits spTenantConfig (en spTenantConfig []) (mb {}) ∧ allotFits (mb {}) 0 [0, 0, 0, 0, 0, 0] = true ∧
    Admits spTenantQuery (en spTenantQuery []) (mb {}) ∧ Admits spTenantEnd (en spTenantEnd []) (mb {}) ∧ (tenantOf (mb {}) 0).scrub = none :=
  ⟨⟨admits_sound (by decide +kernel), by decide +kernel⟩, ⟨admits_sound (by decide +kernel), by decide +kernel⟩,
    admits_sound (by decide +kernel), by decide +kernel, admits_sound (by decide +kernel), admits_sound (by decide +kernel), by decide⟩
theorem test_hyp_Tenants_scrub :
    (let b : Scrub := { torn := true }
     (tenantOf (mb { scrub := some b }) 0).scrub = some b ∧ b.inScrub = false ∧ b.torn = true ∧ dmaHeld (mb { scrub := some b }) 0 = []) ∧
    (let b : Scrub := { torn := true, inScrub := true, bytes := 1 }
     let s := { mb { scrub := some b } with ftime := 4000000 }
     b.inScrub = true ∧ b.since + scrubTime b.bytes ≤ s.ftime ∧ b.gone = false) := by decide +kernel
theorem test_hyp_Tenants_cores :
    (let e := en spCoreBind [(0, 44, 2 ^ 351 + 1)]
     let s := mb { maxCores := 2 }
     Admits spCoreBind e s ∧ maskCores e = [0, 351] ∧ (∀ c ∈ [0, 351], s.grid.retired.contains c = false ∧ (coreOf s c).tenant = none) ∧
     (coresBound s 0).length + 2 ≤ (tenantOf s 0).maxCores) ∧
    (let e := en spCoreUnbind [(0, 44, 1)]
     let s := { mb {} with cores := [(0, { tenant := some 0 })] }
     Admits spCoreUnbind e s ∧ maskCores e = [0] ∧ (∀ c ∈ maskCores e, (coreOf s c).tenant = some 0) ∧
     (maskCores e).any (handleOn (tenantOf s 0)) = false ∧ (maskCores e).any (handleOn { handles := [(0, hn)] }) = true) :=
  ⟨⟨admits_sound (by decide +kernel), by decide +kernel⟩,
   ⟨admits_sound (by decide +kernel), by decide +kernel⟩⟩

/-- A handle on core 0, open, halted, and with a task that runs on context 0. -/
def hSt (h : Handle) : State := { mb { handles := [(0, h)] } with cores := [(0, { k0 with ctxs := [(0, { cx0 with task := some { run1 with handle := 0 } })] })] }
def h0 : Handle := { core := 0, kind := 0 }
theorem test_hyp_Handles_open :
    Admits spCtxOpen (en spCtxOpen [(2, 1, 1)]) (hSt h0) ∧ (coreOf (hSt h0) 0).tenant = some 0 ∧ (coreOf (hSt h0) 351).tenant ≠ some 0 ∧
    ((tenantOf (hSt h0) 0).handles.filter fun h => h.2.core == 0).length < 32 ∧ handleOf (hSt h0) 0 1 = none ∧
    (∀ k, k < 1 → (handleOf (hSt h0) 0 k).isSome = true) ∧
    (let s := mb { handles := (List.range 32).map fun i => (i, h0) }
     admits spCtxOpen (en spCtxOpen []) s = true ∧ 32 ≤ ((tenantOf s 0).handles.filter fun h => h.2.core == 0).length) :=
  ⟨admits_sound (by decide +kernel), by decide +kernel⟩
theorem test_hyp_Handles_ctrl (op : Nat) (h : op ∈ [0, 1, 2, 3]) : Admits spCtxCtrl (en spCtxCtrl [(2, 1, op)]) (hSt h0) := by
  simp only [List.mem_cons, List.not_mem_nil, or_false] at h
  rcases h with rfl | rfl | rfl | rfl <;> exact admits_sound (by decide +kernel)
theorem test_hyp_Handles :
    handleOf (hSt { h0 with st := .halted }) 0 0 = some { h0 with st := .halted } ∧ h0.st ≠ .halted ∧ h0.onCtx = none ∧ h0.st ≠ .closing ∧
    (let x := { h0 with onCtx := some 0 }
     handleOf (hSt x) 0 0 = some x ∧ (stCtx (hSt x) 0 0).st = .running ∧ (stCtx (hSt x) 0 0).wait ≠ .exit ∧ (coreOf (hSt x) 0).fenced = false) ∧
    Admits spCtxQuery (en spCtxQuery []) (hSt h0) ∧ Admits spCtxSignal (en spCtxSignal [(2, 1, 63), (3, 1, 255)]) (hSt h0) :=
  ⟨by decide, by decide, by decide, by decide, by decide, admits_sound (by decide +kernel), admits_sound (by decide +kernel)⟩

/-- A descriptor of zeros but for an entry that a loaded program maps and semaphore 0; a full queue; a task that holds semaphore 0. -/
def descBytes : List Byte := toBytes 64 (0x200000 + 2 ^ 128 + 2 ^ 192 + 0xFFFF * 2 ^ 224) ++ toBytes 64 0
def progT (h : Handle) : Tenant :=
  { handles := [(0, h), (1, { h0 with queue := [{ res1 := 2 }] })], progs := [(1, { loaded := true, segs := [(0x200000, 2097152)] })],
    small := [(1, { pte := 0x20003F })] }
theorem test_hyp_TaskSubmit :
    let e := en spTaskSubmit [(8, 8, 0x200040)]
    let s := mb (progT h0)
    let d := taskDesc descBytes [0, 0, 0, 0] 0
    Admits spTaskSubmit e s ∧ handleOf s 0 0 = some h0 ∧ 0x200040 % 64 = 0 ∧ mappedAll (tenantOf s 0) 0x200040 128 = true ∧
    descBad s 0 descBytes d = false ∧ descBad s 0 (toBytes 128 7) (taskDesc (toBytes 128 7) [0, 0, 0, 0] 0) = true ∧
    semsTaken s 0 0 0 d.res1 = false ∧ semsTaken s 0 0 0 3 = true ∧ h0.queue.length < 64 ∧ 64 ≤ ({ h0 with queue := List.replicate 64 {} } : Handle).queue.length :=
  ⟨admits_sound (by decide +kernel), by decide +kernel⟩
/-- The bytes of zeros at 0x200080 are read whatever the rings hold. -/
theorem test_hyp_TaskSubmit_peek (v : State) (h : SameBut (mb (progT h0)) v) :
    (match (peek v 0 2 0x200080).2 with | .ok b => b == List.replicate 128 0 | _ => false) = true := by
  rw [h]; rfl
/-! ## Memory, programs and tables -/

/-- A resident Near page at 0x200000 of the PF's tenant, and what is left of its allotments. -/
def mm : Tenant := { small := [(1, { pte := 0x20003F })], farUnits := 1, nearFrames := 8 }
/-- A mapping of one Far page, one that no allotment covers, and one of local stores, held and not held. -/
theorem test_hyp_MemoryCommands_map :
    (let e := en spMemMap [(0, 8, 2 ^ 48 - 0x200000), (8, 8, 0x200000), (16, 1, 2), (17, 1, 7)]
     let q : MapReq := { va := 2 ^ 48 - 0x200000, size := 0x200000, tier := 2, perm := 7, paged := false, pin := false, big := false, place := 0, core := 0 }
     Admits spMemMap e (mb mm) ∧ unmapAhead (mb mm) e q.va q.size = false ∧ q.va + q.size ≤ 2 ^ 48 ∧ mapBad mm q = false ∧ (mapRange (mb mm) 0 q).isSome = true ∧
     (mapRange (mb {}) 0 q) = none) ∧
    (let e := en spMemMap [(8, 8, 0x200000), (16, 1, 3), (17, 1, 3), (20, 2, 350)]
     let q : MapReq := { va := 0, size := 0x200000, tier := 3, perm := 3, paged := false, pin := false, big := false, place := 0, core := 350 }
     let s := { mb mm with cores := [(350, { tenant := some 0 }), (351, { tenant := some 0 })] }
     Admits spMemMap e s ∧ mapBad mm q = false ∧ (∀ i, i < 2 * (q.size / 2097152) → (coreOf s (q.core + i)).tenant = some 0) ∧
     (∃ i, i < 2 * (q.size / 2097152) ∧ (coreOf (mb mm) (q.core + i)).tenant ≠ some 0)) :=
  ⟨⟨admits_sound (by decide +kernel), by decide +kernel⟩,
   ⟨admits_sound (by decide +kernel), by decide +kernel, by decide +kernel, 0, by decide +kernel⟩⟩
theorem test_hyp_MemoryCommands_pages :
    Admits spMemUnmap (en spMemUnmap [(0, 8, 0x200000)]) (mb mm) ∧ wholePages mm 0x200000 0 = true ∧
    Admits spMemUnmap (en spMemUnmap [(0, 8, 0x200000), (8, 8, 0x200000)]) (mb mm) ∧ wholePages mm 0x200000 0x200000 = true ∧
    Admits spMemPin (en spMemPin [(0, 8, 0x200000), (8, 8, 0x200000)]) (mb mm) ∧
    Admits spMemPin (en spMemPin [(0, 8, 0x200000), (8, 8, 0x200000), (16, 1, 1)]) (mb mm) ∧
    ((leavesIn mm 0x200000 0x200000).map (·.1)).Nodup ∧ (∀ tier < 2, pinTakes mm 0x200000 0x200000 tier = 0) ∧
    unmapAhead (mb mm) (en spMemPin [(0, 8, 0x200000), (8, 8, 0x200000)]) 0x200000 0x200000 = false ∧ (mb mm).hostWait = [] ∧
    (let b : HostAcc := { op := 0x0203, obj := 1, tenant := 0, va := 0x3FFFFF, len := 1, write := true }
     admits spMemUnmap (en spMemUnmap [(0, 8, 0x200000), (8, 8, 0x200000)]) { mb mm with hostWait := [b] } = true ∧
     ¬(b.tenant ≠ 0 ∨ b.va + b.len ≤ 0x200000 ∨ 0x200000 + 0x200000 ≤ b.va)) ∧
    (let x : Tenant := { small := [(1, { pte := 0x20083F })], nearFrames := 16 }
     wholePages x 0x200000 0x200000 = true ∧ 0 < pinTakes x 0x200000 0x200000 0 ∧ leaves16 x 0 (pinTakes x 0x200000 0x200000 0) = false) :=
  ⟨admits_sound (by decide +kernel), by decide +kernel, admits_sound (by decide +kernel), by decide +kernel, admits_sound (by decide +kernel),
    admits_sound (by decide +kernel), by decide +kernel⟩
/-- Two bytes across nothing; a page that is away; a broken one. -/
theorem test_hyp_MemoryCommands_data :
    Admits spMemWrite (en spMemWrite [(8, 8, 0x3FFFFE)] [1, 2]) (mb mm) ∧ mappedAll mm 0x3FFFFE 2 = true ∧
    rangeReady (mb mm) 0 0x3FFFFE 2 = .ok true ∧ rangeReady (mb { small := [(1, away)] }) 0 0x3FFFFE 2 = .ok false ∧
    rangeReady (mb { small := [(1, { pte := 0x2000000000081F })] }) 0 0x3FFFFE 2 = .error .integrity ∧
    Admits spMemRead (en spMemRead [(8, 8, 0x3FFFFE)] [0, 0]) (mb mm) :=
  ⟨admits_sound (by decide +kernel), by decide +kernel, rfl, rfl, rfl, admits_sound (by decide +kernel)⟩
theorem test_hyp_MemoryCommands_access (v : State) (h : SameBut (mb mm) v) :
    (vaWrite v 0 0x3FFFFE [1, 2] .clean).2 = none ∧ (match (vaRead v 0 0x3FFFFE 2 .clean).2 with | .ok b => b == [0, 0] | _ => false) = true := by
  rw [h]; exact ⟨rfl, rfl⟩
theorem test_hyp_MemoryCommands_rest :
    (let e := en spApertureMap [(0, 8, 0x200000), (8, 8, 0x200000), (16, 8, 0x3FE00000)]
     Admits spApertureMap e (mb mm) ∧ 0x3FE00000 + 0x200000 ≤ 2 ^ (funcOf (mb mm) 0).barLog2 ∧ mappedAll mm 0x200000 0x200000 = true ∧
     (∀ l ∈ leavesIn mm 0x200000 0x200000, ptePaged l.2.1.pte = false ∧ pteTier l.2.1.pte ≠ 3) ∧
     (∀ a ∈ [((0 : Nat), (0x3FE00000 : Nat), (0 : Nat))], a.1 + a.2.1 ≤ 0x3FE00000)) ∧
    Admits spApertureUnmap (en spApertureUnmap [(8, 8, 0x200000)]) (mb { mm with apertures := [(0, 0x200000, 0x200000)] }) ∧
    Admits spMemQuery (en spMemQuery [(0, 8, 0x3FFFFF)]) (mb mm) ∧ leafOf (mb mm) 0 0x3FFFFF = some ({ pte := 0x20003F }, false) ∧
    Admits spDistMap (en spDistMap [(0, 8, 0x400000)]) { mb mm with grid := { distFrame := some 5 } } ∧ leavesIn mm 0x400000 2097152 = [] :=
  ⟨⟨admits_sound (by decide +kernel), by decide +kernel⟩, admits_sound (by decide +kernel),
    admits_sound (by decide +kernel), by decide +kernel, admits_sound (by decide +kernel), by decide +kernel⟩

/-- A first part and an only part; a program not in use, without and with a page; one a job names; a part of weights. -/
theorem test_hyp_Programs :
    Admits spProgLoad (en spProgLoad [] [1, 2]) (mb mm) ∧ Admits spProgLoad (en spProgLoad [(12, 1, 1)] [1, 2]) (mb mm) ∧
    (progOf (mb mm) 0 (freeNo mm.progs)).got = [] ∧
    (∀ gs ∈ [[], [((0x200000 : Nat), (0x200000 : Nat))]],
      admits spProgUnload (en spProgUnload [(0, 4, 1)]) (mb { mm with progs := [(1, { loaded := true, segs := gs })] }) = true ∧
      progUsed (mb { mm with progs := [(1, { loaded := true, segs := gs })] }) 0 1 = false) ∧
    leavesIn mm 0x200000 0x200000 ≠ [] ∧ (∀ v ∈ (mb mm).invals, v.cmd ≠ (mb mm).nextId) ∧
    progUsed (mb { mm with jobs := [(2, job1)], progs := [(1, {})] }) 0 1 = true ∧
    Admits spWeightLoad (en spWeightLoad [(12, 1, 1), (24, 8, 0x200000)] [1, 2]) (mb mm) ∧ mappedAll mm 0x200000 2 = true ∧
    rangeReady (mb mm) 0 0x200000 2 = .ok true ∧ setSoFar (mb mm) 0 (freeSet (mb mm) 0) = none ∧ (mb mm).hostWait = [] :=
  ⟨admits_sound (by decide +kernel), admits_sound (by decide +kernel), by decide +kernel, by decide +kernel, by decide +kernel, by decide +kernel,
    by decide +kernel, admits_sound (by decide +kernel), by decide +kernel, rfl, by decide +kernel⟩
/-- The write of the part, of a state whose leaves are those of `mb mm`. -/
theorem test_hyp_Programs_write : (vaWrite (mb mm) 0 0x200000 [1, 2] .clean).2 = none := by decide +kernel

/-- A table with one BX8 shard of this module; the shard held by a scatter; on a module out of the fabric; a pinned one. -/
def tableData : List Byte := toBytes 32 (4095 + 2 ^ 12 + 2 ^ 64 + 2 ^ 128) ++ toBytes 16 0
theorem test_hyp_TableCommands_create :
    let e := en spTableCreate [] tableData
    let d : BitVec 256 := unit 256 e.data 0
    Admits spTableCreate e (mb mm) ∧ e.data.length = e.payloadLength.toNat ∧ e.data.length = 32 + 16 * field d 128 12 ∧
    tableBad d ((List.range (field d 128 12)).map (shardWord e)) = false ∧ tableOf (mb mm) 0 (field d 0 12) = none :=
  ⟨admits_sound (by decide +kernel), by decide +kernel⟩
def tbSt (x : Table) : State :=
  { mb { mm with tables := [(4095, x)] } with chans := [(9, { valid := true, job := 2, cfg := {} })] }
theorem test_hyp_TableCommands_install : let e := en spTableInstall [(0, 2, 4095), (4, 2, 1), (8, 8, 0x200000)]
    Admits spTableInstall e (tbSt (tb 0)) ∧ tableOf (tbSt (tb 0)) 0 4095 = some (tb 0) ∧ (tb 0).doomed = false ∧ 0 < (tb 0).shards.length ∧
    ((tb 0).shards.getD 0 (0, 0, 0, 0)).2.1 = (tbSt (tb 0)).fabric.modid ∧ ((tb 5).shards.getD 0 (0, 0, 0, 0)).2.1 ≠ (tbSt (tb 5)).fabric.modid ∧
    scatterHeld (tbSt (tb 0)) 0 (tb 0) = false ∧ scatterHeld (tbSt (tb 0)) 0 { tb 0 with train := true, schan := 9 } = true ∧
    versionOf (tb 0) 1 = none ∧ (tb 0).versions.length < 32767 ∧ hasRoom (tbSt (tb 0)) 0 (tb 0) 1 0 0x200000 = true ∧
    hasRoom (tbSt (tb 0)) 0 (tb 0) 0 0 0x200000 = true ∧ hasRoom (tbSt (tb 0)) 0 (tb 0) 1 0 0x400000 = false ∧ versionOf (tb 0) 0 = some { version := 0, nrows := 1, bases := [(0, 0x400000)] } :=
  ⟨admits_sound (by decide +kernel), by decide +kernel⟩
theorem test_hyp_TableCommands_rest :
    Admits spTableCommit (en spTableCommit [(0, 2, 4095), (8, 8, 2 ^ 40 - 1)]) (tbSt (tb 0)) ∧
    (∀ h ∈ (tb 0).shards.zipIdx, h.1.2.1 = (tbSt (tb 0)).fabric.modid → (tabFind [(0, (0x400000 : Nat))] h.2).isSome = true) ∧
    (∀ h ∈ (tb 0).shards, h.2.1 = (tbSt (tb 0)).fabric.modid ∨ inFabric (tbSt (tb 0)) h.2.1 = true) ∧
    (∃ h ∈ (tb 5).shards, h.2.1 ≠ (tbSt (tb 5)).fabric.modid ∧ inFabric (tbSt (tb 5)) h.2.1 = false) ∧
    Admits spTableDestroy (en spTableDestroy [(0, 2, 4095)]) (tbSt (tb 0)) ∧ pinned (tbSt (tb 0)) 0 4095 none = false ∧
    pinned (withCmd (tbSt (tb 0)) { gq with pin := some (4095, 0) }) 0 4095 none = true :=
  ⟨admits_sound (by decide +kernel), by decide +kernel, by decide, ⟨(0, 5, 47, 0x400000), by decide +kernel⟩,
    admits_sound (by decide +kernel), by decide +kernel⟩
/-! ## Jobs, checkpoints, channels and DMA channels -/

/-- A map of one rank: DP, PP, TP, SP, micro-batches 1, one mode, the least time limit. -/
def map1 : Nat := 1 + 2 ^ 48 + 2 ^ 64 + 100 * 2 ^ 96
def jobT : Tenant := { small := [(1, { pte := 0x20003F })], progs := [(1, { loaded := true })] }
def job2 : Job := { uid := 5, seed := 0, map := BitVec.ofNat 512 map1, ranks := [3], stepVa := 0x200000, progId := 1 }
def jb (j : Job) : State :=
  { mb { jobT with jobs := [(2, j)] } with fabric := { modid := 0, map := [⟨3, 77, true⟩], acting := true } }
theorem test_hyp_JobCommands_create :
    let e := en spJobCreate [(8, 8, 5), (24, 8, 0x200000), (32, 4, 1)] (toBytes 64 map1 ++ [3, 0])
    Admits spJobCreate e (mb jobT) ∧ e.payloadLength.toNat = 64 + 2 * mapRanks (unit 512 e.data 0) ∧ (leafOf (mb jobT) 0 0x200000).isSome = true ∧
    tabFind (tenantOf (mb jobT) 0).progs 1 = some { loaded := true } ∧ jobOf (mb jobT) 0 0 = none ∧
    (∀ k, k < 256 → (jobOf (mb { jobT with jobs := (List.range 256).map fun n => (n, job2) }) 0 k).isSome = true) :=
  ⟨admits_sound (by decide +kernel), by decide +kernel⟩
/-- A scale record with BACKOFF 1 and GROW 1 in the last group, a descriptor of OP 0 with a count of 1, one word of a mask. -/
theorem test_hyp_JobCommands_records :
    (let e := en spJobScale [(8, 2, 2), (10, 1, 63), (11, 1, 1)] (toBytes 32 (2 ^ 48 + 2 ^ 64))
     Admits spJobScale e (jb job2) ∧ e.payloadLength.toNat = 32 * 1 ∧ 63 + 1 ≤ 64 ∧ scaleBad (unit 256 e.data 0) = false) ∧
    (let e := en spJobOpt [(8, 2, 2), (16, 4, 1)] (toBytes 64 (2 ^ 256))
     Admits spJobOpt e (jb job2) ∧ e.payloadLength.toNat = 64 * 1 ∧ optBad (unit 512 e.data 0) = false) ∧
    (let e := en spJobMask [(8, 2, 2)] (toBytes 8 1)
     Admits spJobMask e (jb job2) ∧ e.payloadLength.toNat % 8 = 0) ∧
    jobOf (jb job2) 0 2 = some job2 ∧ job2.started = false ∧ job1.started = true :=
  ⟨⟨admits_sound (by decide +kernel), by decide +kernel⟩, ⟨admits_sound (by decide +kernel), by decide +kernel⟩,
    ⟨admits_sound (by decide +kernel), by decide +kernel⟩, by decide +kernel⟩
theorem test_hyp_JobCommands_run :
    Admits spJobStart (en spJobStart [(0, 2, 2)]) (jb job2) ∧ jobMapBad (jb job2) job2 = false ∧ recordsBad job2 = false ∧
    jobMapBad (jb job2) { job2 with map := 0 } = true ∧ recordsBad { job2 with masks := [(524288, [])] } = true ∧
    (jb job2).plover.evacuating = false ∧ job2.st ≠ .running ∧ job2.broken = false ∧ (∀ k ∈ job2.ranks, inFabric (jb job2) k = true) ∧
    (∃ k ∈ ({ job2 with ranks := [4] } : Job).ranks, inFabric (jb job2) k = false) ∧
    Admits spJobStop (en spJobStop [(0, 2, 2), (2, 1, 1)]) (jb job2) ∧ jobBusy (jb job2) 0 2 = false ∧
    Admits spJobQuery (en spJobQuery [(0, 2, 2)]) (jb job2) ∧ Admits spJobDestroy (en spJobDestroy [(0, 2, 2)]) (jb job2) :=
  ⟨admits_sound (by decide +kernel), by decide +kernel, by decide +kernel, by decide +kernel, by decide +kernel, by decide, by decide, by decide,
    by decide +kernel, ⟨4, by decide +kernel⟩, admits_sound (by decide +kernel), by decide +kernel, admits_sound (by decide +kernel),
    admits_sound (by decide +kernel)⟩

/-- The ends of KEEP and INTERVAL_MS, no buddy and one on module 3. -/
theorem test_hyp_CheckpointCommands :
    Admits spCkptConfig (en spCkptConfig [(0, 2, 2), (2, 1, 2), (4, 2, 0xFFFF), (8, 4, 1000)]) (jb job2) ∧
    Admits spCkptConfig (en spCkptConfig [(0, 2, 2), (2, 1, 16), (4, 2, 3), (8, 4, 86400000)]) (jb job2) ∧
    3 ≠ (jb job2).fabric.modid ∧ inFabric (jb job2) 3 = true ∧ inFabric (jb job2) 1023 = false ∧
    Admits spCkptSecure (en spCkptSecure [(0, 2, 2)]) (jb { job2 with st := .running }) :=
  ⟨admits_sound (by decide +kernel), admits_sound (by decide +kernel), by decide, by decide +kernel, by decide +kernel, admits_sound (by decide +kernel)⟩
def ep (n : Nat) : Epoch := { epoch := n, step := 4, ftime := 0 }
def ckSt : State :=
  { mb { jobT with jobs := [(2, { job2 with st := .stopped })], ckpts := [{ uid := 5, rank := 0, epochs := [ep 1, ep 2] }] } with fabric := (jb job2).fabric }
theorem test_hyp_CheckpointCommands_epochs :
    jobOf ckSt 0 2 = some { job2 with st := .stopped } ∧
    Admits spCkptRestore (en spCkptRestore [(0, 2, 2), (8, 8, 1)]) ckSt ∧
    (ckptOr ckSt 0 job2).epochs.find? (fun y => y.epoch == 1) = some (ep 1) ∧
    Admits spCkptDelete (en spCkptDelete [(0, 2, 2), (8, 8, 1)]) ckSt ∧ lastEpoch ckSt 0 5 = 2 ∧
    Admits spCkptList (en spCkptList [(8, 2, 2)] [0]) ckSt ∧ (1 : Nat) < ((ckptOr ckSt 0 job2).epochs.flatMap listEntry).length :=
  ⟨by decide +kernel, admits_sound (by decide +kernel), by decide +kernel, admits_sound (by decide +kernel), by decide +kernel,
    admits_sound (by decide +kernel), by decide +kernel⟩

/-- A fabric in which module 3 is reached by plane A, and a tenant that may hold two channels. -/
def fab (q : List Setup) : State :=
  { mb { maxChan := 2 } with fabric := { acting := true }, dies := [(0, { cur := [(3, { valid := true, links := 1 })] })], setups := q }
def setupOk (s : State) (c : Nat) : Bool := match setupStart s 0 false [3] with | .ok d => d == c | .error _ => false
theorem test_hyp_ChannelCommands_pair :
    let e := en spChanSetup [(2, 1, 1), (3, 1, 3), (4, 2, 3), (8, 4, 9), (16, 2, 0xFFFF)]
    Admits spChanSetup e (fab []) ∧ setupBad true 0 1 3 0 0 = false ∧ (3 : Nat) ≠ (fab []).fabric.modid ∧ jobBad (fab []) 0 0xFFFF = false ∧
    setupOk (fab []) 0 = true ∧ (∀ q ∈ (fab []).setups, q.far = none) ∧
    (match setupStart (mb {}) 0 false [3] with | .error st => st == stRetryLater | _ => false) = true ∧
    (let q : Setup := { chan := 0, far := some (3, 7), tag := 9, cfg := cfgOf 0 0 1 3 0 0 0 0 false }
     (fab [q]).setups = [q] ∧ inWindow (fab [q]) q = true ∧ q.far = some (3, 7) ∧ q.tag = BitVec.ofNat 32 9 ∧ q.cfg.red = false ∧ q.cfg.mc = false ∧ setupOk (fab [q]) 0 = true ∧
     pairStatus (cfgOf 0 0 1 3 0 0 3 0 false) q.cfg (uidOf (fab [q]) 0 0xFFFF) q.uid = stOK) :=
  ⟨admits_sound (by decide +kernel), by decide +kernel⟩
theorem test_hyp_ChannelCommands_group :
    (let e := en spChanSetup [(0, 1, 2), (3, 1, 8), (4, 2, 3), (12, 4, 16777216), (16, 2, 0xFFFF)]
     Admits spChanSetup e (fab []) ∧ setupBad false 0 0 8 0 0 = false ∧ (16777216 : Nat) ≤ 16777216) ∧
    (let e := en spChanGroup [(10, 1, 8), (20, 4, 16777216), (24, 2, 0xFFFF), (26, 2, 64512)] [3, 0, 0, 0]
     Admits spChanGroup e (fab []) ∧ e.payloadLength.toNat % 2 = 0 ∧ setupBad false 0 0 8 0 0 = false ∧ memberIds e = [3, 0] ∧ (memberIds e).Nodup ∧
     (memberIds e).filter (· != (fab []).fabric.modid) = [3]) ∧
    (let x : Chan := { valid := true }
     let s := { mb {} with chans := [(9, x)] }
     chanOf s 9 = x ∧ x.valid = true ∧ x.cfg.tenant.toNat = 0 ∧ x.ended = false ∧ Admits spChanTeardown (en spChanTeardown [(0, 2, 9)]) s ∧
     Admits spChanQuery (en spChanQuery [(0, 2, 9)]) s) :=
  ⟨⟨admits_sound (by decide +kernel), by decide +kernel⟩,
   ⟨admits_sound (by decide +kernel), by decide +kernel⟩,
   ⟨by decide, by decide, by decide, by decide, admits_sound (by decide +kernel), admits_sound (by decide +kernel)⟩⟩

/-- Channel 255 with the smallest and the largest ring; channel 7, which is Uango's; one that is held. -/
def dm (d : DmaChan) : State := { mb { maxDma := 1 } with dma := [(255, d)] }
theorem test_hyp_DmaCommands_allot :
    Admits spDmaAllot (en spDmaAllot [(0, 2, 255), (2, 1, 2), (3, 1, 63), (8, 8, 0x100), (16, 8, 0x80)]) (mb { maxDma := 1 }) ∧
    Admits spDmaAllot (en spDmaAllot [(0, 2, 7), (2, 1, 12), (4, 1, 1), (8, 8, 0x40000)]) (mb { maxDma := 1 }) ∧
    (0x100 : Nat) % (64 * 2 ^ 2) = 0 ∧ (0x80 : Nat) % (32 * 2 ^ 2) = 0 ∧ (0x40000 : Nat) % (64 * 2 ^ 12) = 0 ∧ ¬((255 : Nat) < 128 ∧ 255 % 8 = 7) ∧
    (dmaHeld (mb { maxDma := 1 }) 0).length < (tenantOf (mb { maxDma := 1 }) 0).maxDma ∧ (dmaOf (mb { maxDma := 1 }) 255).held = false ∧
    (tenantOf (dm { held := true }) 0).maxDma ≤ (dmaHeld (dm { held := true }) 0).length :=
  ⟨admits_sound (by decide +kernel), admits_sound (by decide +kernel), by decide +kernel⟩
theorem test_hyp_DmaCommands_ctrl (op : Nat) (h : op ∈ [0, 1, 2, 3, 4]) (st : DmaSt) :
    Admits spDmaCtrl (en spDmaCtrl [(0, 2, 255), (2, 1, op)]) (dm { held := true, st := st }) := by
  simp only [List.mem_cons, List.not_mem_nil, or_false] at h
  rcases h with rfl | rfl | rfl | rfl | rfl <;> cases st <;> exact admits_sound (by decide +kernel)
theorem test_hyp_DmaCommands :
    holdsDma (dm { held := true }) 0 255 = true ∧ holdsDma (dm {}) 0 255 = false ∧
    (let d : DmaChan := { held := true, st := .run, ringLog2 := 2 }
     d.st ≠ .stopped ∧ d.st ≠ .paused ∧ d.aborting = false ∧ d.work = [] ∧ ({ d with work := [cur5] } : DmaChan).work ≠ [] ∧
     d.resetAfter = false ∧ d.releaseAfter = false ∧ d.counts = [] ∧ idxDist d.pi d.ci ≤ idxDist 4 d.ci ∧ idxDist 4 d.ci ≤ 2 ^ d.ringLog2.toNat) ∧
    Admits spDmaStatus (en spDmaStatus [(0, 2, 255)]) (dm { held := true }) ∧ Admits spDmaRelease (en spDmaRelease [(0, 2, 255)]) (dm { held := true }) :=
  ⟨by decide +kernel, by decide +kernel, by decide +kernel, admits_sound (by decide +kernel), admits_sound (by decide +kernel)⟩
/-! ## Maintenance -/

theorem test_hyp_ServiceCommands_query :
    Admits spAttestGet (en spAttestGet [] [0]) (mb {}) ∧ (mb {}).drover.identity = false ∧
    Admits spTelemRead (en spTelemRead [(8, 2, 11), (10, 1, 0xFF)] (List.replicate 300 0)) (mb {}) ∧
    Admits spTelemRead (en spTelemRead [(8, 2, 7), (10, 1, 63)] [0]) (mb {}) ∧ (setRecords (mb {}) 7 63 true false).isNone = true ∧
    (match setRecords (mb {}) 6 0 true true with | some (rs, _) => decide ((telemData (mb {}) 6 rs).length ≤ 64) | none => false) = true ∧
    Admits spTelemRate (en spTelemRate [(0, 1, 1)]) (mb {}) ∧ Admits spFwQuery (en spFwQuery []) (mb {}) :=
  ⟨admits_sound (by decide +kernel), by decide, admits_sound (by decide +kernel), admits_sound (by decide +kernel), by decide +kernel, by decide +kernel,
    admits_sound (by decide +kernel), admits_sound (by decide +kernel)⟩
theorem test_hyp_ServiceCommands_map : let e := { en spCoreMap [] with payloadLength := 1424, data := [] }
    Admits spCoreMap e (mb {}) ∧
    (toBytes 16 ((mb {}).grid.mapVersion.toNat + 2 ^ 16 * 352) ++ (List.range 352).flatMap fun c => toBytes 4 (coreMapWord (mb {}) c)).length ≤
      e.payloadLength.toNat := ⟨admits_sound (by decide +kernel), by decide +kernel⟩
/-- The closest thresholds; the present time; the first part of an image, and the last one. -/
theorem test_hyp_ServiceCommands_set :
    Admits spPloverSet (en spPloverSet [(0, 1, 253), (1, 1, 254), (2, 1, 255)]) (mb {}) ∧
    Admits spTimeSet (en spTimeSet []) (mb {}) ∧ (mb {}).ftime ≤ 0 ∧ isTimeRoot (mb {}) = true ∧
    isTimeRoot { mb {} with fabric := { timeRoot := some 3 } } = false ∧
    Admits spFwStage (en spFwStage [] [1]) (mb {}) ∧ Admits spFwStage (en spFwStage [(12, 1, 1)] [1]) (mb {}) ∧
    Admits spFwStage (en spFwStage [(8, 4, 50331648)] [1]) (mb {}) ∧
    Admits spFwActivate (en spFwActivate []) (mb {}) ∧ (mb {}).drover.stagedOk = false ∧ (∀ g ∈ (mb {}).funcs, g.2.owed = [] ∧ g.2.rspWait = []) :=
  ⟨admits_sound (by decide +kernel), admits_sound (by decide +kernel), by decide, by decide, by decide, admits_sound (by decide +kernel),
    admits_sound (by decide +kernel), admits_sound (by decide +kernel), admits_sound (by decide +kernel), by decide⟩
theorem test_hyp_ServiceCommands_links (op : Nat) (h : op ∈ [0, 1, 2]) (st : LinkSt) :
    Admits spLinkCtrl (en spLinkCtrl [(0, 1, 31), (1, 1, op)]) { mb {} with links := [(31, { st := st })] } := by
  simp only [List.mem_cons, List.not_mem_nil, or_false] at h
  rcases h with rfl | rfl | rfl <;> cases st <;> exact admits_sound (by decide +kernel)
theorem test_hyp_ServiceCommands_evacuate :
    Admits spModEvacuate (en spModEvacuate []) { funcs := [(0, fun0)] } ∧ ({ funcs := [(0, fun0)] } : State).tenants = [] ∧
    (let x : Tenant := { jobs := [(2, { job1 with st := .running })] }
     Admits spModEvacuate (en spModEvacuate []) (mb x) ∧ (mb x).tenants = [(0, x)] ∧ x.jobs = [(2, job1)] ∧ job1.st = .running) :=
  ⟨admits_sound (by decide +kernel), rfl, admits_sound (by decide +kernel), rfl, rfl, rfl⟩

theorem test_hyp_KeyRotation :
    Admits spKeyRotate (en spKeyRotate []) (mb {}) ∧ Admits spKeyRotate (en spKeyRotate [(0, 1, 1)]) (mb {}) ∧ (mb {}).drover.drbgOk = true ∧
    (mb {}).frames.filter (fun f => f.2.keyTag.toNat == 0) ≠ [] ∧ ({ mb {} with frames := [] } : State).frames = [] ∧
    (let y : Tenant := { keys := { rotating := true, left := [524287] } }
     ∀ c : Bool, let k : Frame := { keyTag := 0, rot := true, cursor := if c then 4095 else 4094 }
     let s : State := { tenants := [(0, y)], frames := [(524287, k)] }
     look ({} : Frame) s.frames 524287 = k ∧ k.keyTag.toNat = 0 ∧ (∀ g ∈ s.frames, g.1 ≠ 524287 → g.2.rot = false) ∧ 524287 < 524288 ∧
     stateError s (524287 * 2097152 + k.cursor.toNat * 512) 512 = none ∧
     stateError { s with badSectors := [((524287 * 2097152 + 4094 * 512) / 512, .integrity)] } (524287 * 2097152 + 4094 * 512) 512 =
       some .integrity) :=
  ⟨admits_sound (by decide +kernel), admits_sound (by decide +kernel), by decide +kernel⟩
/-! ## The fabric -/

/-- A module whose link 0 is UP. -/
def fbSt (x : Fabric) : State := { upSt {} with fabric := x }
theorem accepted_fb (s : State) (hl : s.links = [(0, { st := .up })]) (hd : (dieOf s false).mcWait = []) (hq : (dieOf s false).queue = [])
    (ht : (dieOf s false).toLocal = []) (hh : s.fabric.holding = false)
    (hl8 : ∀ e ∈ s.chans, e.2.later = []) :
    FrameAccepted hd0 s := by
  have h : linkOf s 0 = { st := .up } := by simp [linkOf, look, tabFind, hl]
  refine ⟨?_, ?_, rfl, rfl, ?_, ?_, hq, by decide, hd, ht, hl8, hh⟩ <;> rw [show hd0.link = 0 from rfl, h] <;> rfl

/-- A lower serial at the last distance, the same serial one hop nearer, 32 hops, and the same distance. -/
theorem test_hyp_BellwetherAndMap :
    FrameAccepted hd0 (fbSt {}) ∧ hd0.vc = 0 ∧
    (let p := bwPair (fbSt { bwSerial := some 5, bwHops := 32 })
     let better := fun (serial : Word64) (hops : Nat) => serial.toNat < p.1.toNat ∨ serial = p.1 ∧ hops + 1 < p.2
     better 4 31 ∧ better 5 30 ∧ better 4 32 ∧ ¬better 5 31 ∧ ¬better 6 0 ∧ (31 : Nat) < 32 ∧ 32 ≤ 32) ∧
    hd0.dest.toNat = (fbSt {}).fabric.modid ∧ hd0.dest.toNat ≠ (fbSt { modid := 4, modv := true }).fabric.modid ∧
    (let s := fbSt {}
     upLinks s = [0] ∧ (linkOf s 0).failover = false ∧ 0 < vcCredit (linkOf s 0) 0) ∧
    (fbSt {}).fabric.acting = false ∧ (0 : Word64).toNat < (1 : Word64).toNat ∧ (0 : Word64).toNat ≤ (fbSt {}).fabric.mapEpoch.toNat ∧
    (let m : List MapEntry := [{ modid := 0, serial := 5, present := true }]
     pickId m 5 = some 0 ∧ pickId m 7 = some 1 ∧ (∀ y ∈ m, y.serial ≠ 7 ∧ y.modid ≠ 1) ∧ (∀ k, k < 1 → ∃ y ∈ m, y.modid = k)) := by
  refine ⟨accepted_fb _ rfl rfl rfl rfl rfl (by decide), by decide, by decide, by decide, by decide, by decide, by decide, by decide, by decide, by decide +kernel, by decide +kernel, ?_⟩
  decide +kernel
theorem test_hyp_BellwetherAndMap_own :
    [({ modid := 9, serial := Config.serialNo, present := true } : MapEntry)].find? (fun y => y.present && y.serial == Config.serialNo) =
      some { modid := 9, serial := Config.serialNo, present := true } := by simp

theorem test_hyp_Routing_accepted : FrameAccepted hd0 (fbSt {}) ∧ hd0.vc = 0 ∧
    hd0.dest.toNat = (fbSt {}).fabric.modid ∧ (∀ k ∈ (fbSt {}).links, ∀ f ∈ k.2.txBuf, f.vc = 0) ∧
    (∀ d ∈ (fbSt {}).dies, (∀ f ∈ d.2.queue, f.2.vc = 0) ∧ ∀ f ∈ d.2.mcWait, f.2.vc = 0) :=
  ⟨accepted_fb _ rfl rfl rfl rfl rfl (by decide), by decide⟩
theorem test_hyp_Routing :
    (let s := fbSt { acting := true, routeStage := 2, map := [{ modid := 4, serial := 1, present := true }] }
     s.fabric.acting = true ∧ s.fabric.routeStage = 2 ∧ ∃ m ∈ present s, m ≠ 3 ∧ m ∉ s.fabric.drainedFrom) ∧
    (fbSt {}).fabric.acting = false ∧
    (let s : State := { fbSt {} with dies := [(0, { spare := some (2, [(1, {})]) })] }
     (dieOf s false).spare = some (2, [(1, {})]) ∧ (dieOf s true).spare = none ∧ s.chans = [] ∧ s.fabric.held = []) ∧
    (let s := fbSt { acting := true, routeStage := 1, routeNext := 2, map := [{ modid := 4, serial := 1, present := true }] }
     s.setups = [] ∧ s.fabric.acting = true ∧ s.fabric.routeStage = 1 ∧ s.fabric.routeNext = 2 ∧
     ∃ m ∈ present s, m ≠ 3 ∧ m ∉ s.fabric.readyFrom) ∧
    (let s : State := { dies := [(1, { hasPrev := true, oldAt := 3 })], ftime := 1000003 }
     (dieOf s true).hasPrev = true ∧ holdsOld s true = false ∧ (dieOf s true).oldAt + 1000000 ≤ s.ftime ∧
     1000002 < (dieOf s true).oldAt + 1000000) ∧
    (let s := { fbSt { modv := true } with ftime := 2000000 }
     s.fabric.bwSerial = none ∧ s.fabric.acting = false ∧ s.fabric.modv = true ∧ s.drover.outOfService = false ∧
     s.fabric.pairAt + 2000000 ≤ s.ftime ∧ 1999999 < s.fabric.pairAt + 2000000) := by
  refine ⟨⟨by decide, by decide, 4, by decide⟩, by decide, by decide,
    ⟨by decide, by decide, by decide, by decide, 4, by decide⟩, by decide⟩

/-- A setup of channel 4 with module 9. -/
def su : Setup := { chan := 4, tag := 7, cfg := { peer := 9 } }
theorem test_hyp_ChannelRecords_accepted (s : State) (h : s = { fbSt {} with setups := s.setups, chans := s.chans, dies := s.dies })
    (hd : (dieOf s false).mcWait = []) (hq : (dieOf s false).queue = []) (ht : (dieOf s false).toLocal = [])
    (hk : ∀ e ∈ s.chans, e.2.later = []) : FrameAccepted hd0 s :=
  accepted_fb s (by rw [h]; rfl) hd hq ht (by rw [h]; rfl) hk
/-- The last tree entry, a full die; the edges of the windows. -/
theorem test_hyp_ChannelRecords :
    (let s : State := { fbSt {} with setups := [su] }
     s.setups = [su] ∧ su.far = none ∧ su.installing = false ∧ su.tag = 7 ∧ su.cfg.root = false ∧ su.cfg.red = false ∧ su.cfg.mc = false ∧
     su.cfg.peer.toNat = 9 ∧ pairStatus su.cfg { peer := 3 } 0 0 = stOK ∧ (chanOf s su.chan).valid = false) ∧
    ((4095 : Nat) < 4096 ∧ (fbSt {}).setups = [] ∧ ({ red := true } : ChanCfg).red = true ∧ ({ red := true } : ChanCfg).mcback = false ∧ (dieOf (fbSt {}) false).trees.length < 256 ∧
     dieReserved (dieOf (fbSt {}) false) + 4 ≤ 512 ∧ dieReserved { trees := [(1, { inMask := [], out := 0, reserve := 508 })] } + 4 ≤ 512 ∧
     256 ≤ ({ trees := List.replicate 256 (1, { inMask := [], out := 0, reserve := 1 }) } : LinkDie).trees.length) ∧
    (let q := { su with installing := true }
     q.far = none ∧ q.installing = true ∧ q.cfg.root = false ∧ q.cfg.peer.toNat = 9 ∧ q.chan = (4 : Half).toNat) ∧
    (let s : State := { fbSt {} with chans := [(0, { valid := true })] }
     s.setups = [] ∧ (chanOf s 0).valid = true ∧ (chanOf s 0).ended = false) ∧
    (let s : State := { setups := [su], ftime := 1000000000 }
     setupSpan su = 1000000000 ∧ su.since + setupSpan su ≤ s.ftime ∧ 999999999 < su.since + setupSpan su) ∧
    4096 ≤ (4096 : Nat) ∧ (1 : BitVec 17) ≠ 0 ∧ (chanOf { chans := [(0, { valid := true, cfg := { root := true } })] } 0).cfg.root = true ∧
    (let s : State := { chans := [(0, { valid := true, ended := true, endedAt := 5 })], ftime := 400000005 }
     (chanOf s 0).valid = true ∧ (chanOf s 0).ended = true ∧ (chanOf s 0).endedAt + 400000000 ≤ s.ftime ∧
     (400000004 : Nat) < (chanOf s 0).endedAt + 400000000) := by decide +kernel

theorem test_hyp_FabricTime :
    FrameTaken hd0 (fbSt {}) ∧ (linkOf (fbSt {}) hd0.link).txBuf = [] ∧
    (let s : State := { fbSt { modv := true, modid := 3 } with dies := [(0, { cur := [(5, { valid := true, links := 1 })] })] }
     isTimeRoot { s with fabric := { s.fabric with timeRoot := some 5 } } = false ∧ parentLink s 5 = some 0) ∧
    (fbSt { modv := true }).fabric.modv = true ∧ (0 : Nat) = (fbSt { modv := true }).fabric.modid ∧
    (let s : State := { fbSt { ppsLast := some 0 } with ftime := 1001000000 }
     s.fabric.ppsLast = some 0 ∧ 0 + 999000000 ≤ s.ftime ∧ s.ftime ≤ 0 + 1001000000 ∧ 0 + 1001000000 < s.ftime + 1 ∧ s.ftime ≤ 0 + 1001000000 ∧
     (998999999 : Nat) < 0 + 999000000 ∧ isTimeRoot s = true) ∧
    isTimeRoot (fbSt { modv := true, modid := 3, timeRoot := some 5 }) = false :=
  ⟨⟨rfl, rfl, rfl, rfl, by decide, rfl, rfl, rfl, by decide, rfl⟩, by decide +kernel⟩
/-- Half the difference of the two delays, by hand: (30 − 10 − (60 − 40)) / 2 = 0, and 1 ms of 2 ms. -/
theorem test_TimeOffset : ((((30 : Int) - 10) - (60 - 40)) / 2 = 0) ∧ ((((2000010 : Int) - 10) - (60 - 60)) / 2 = 1000000) := by decide

/-! ## The host's registers, BAR2 and PCIe -/

/-- The ends of the ranges of a doorbell whose ring is read up to 0xFFFF; a ring that fills and one that is full. -/
theorem test_hyp_HostRegisters_doorbells :
    fnAnswers (mb {}) 0 = true ∧
    (let f : Func := { fun0 with cmdPi := 5, cmdCi := 0xFFFF }
     idxDist f.cmdPi f.cmdCi ≤ idxDist 5 f.cmdCi ∧ idxDist 5 f.cmdCi ≤ 256 ∧ idxDist 0xFF f.cmdCi ≤ 256 ∧ 256 < idxDist 0x100 f.cmdCi ∧
     idxDist 4 f.cmdCi < idxDist f.cmdPi f.cmdCi) ∧
    (let f : Func := { fun0 with rspPi := 2, evtPi := 2, evtLog2 := 8, evtCi := 0xFF02 }
     idxDist 2 f.rspCi ≤ idxDist f.rspPi f.rspCi ∧ idxDist f.rspPi f.rspCi < idxDist 3 f.rspCi ∧ f.dropped = 0 ∧
     idxDist 0xFF03 f.evtCi ≤ idxDist f.evtPi f.evtCi ∧ f.enable = true ∧ idxDist f.evtPi 0xFF03 < 2 ^ f.evtLog2.toNat ∧
     ¬idxDist f.evtPi 0xFF02 < 2 ^ f.evtLog2.toNat) ∧
    (0 : Nat) < ({ fun0 with dropped := 65535 } : Func).dropped := by decide +kernel
theorem test_hyp_HostRegisters_rings :
    (let f : Func := { evtLog2 := 12, evtBase := 2 ^ 63, cmdBase := 0x4000, rspBase := 0 }
     f.enable = false ∧ f.cmdBase.toNat % 16384 = 0 ∧ f.rspBase.toNat % 16384 = 0 ∧ 8 ≤ f.evtLog2.toNat ∧ f.evtLog2.toNat ≤ 12 ∧
     f.evtBase.toNat % (64 * 2 ^ f.evtLog2.toNat) = 0 ∧ f.dropped = 0 ∧ (0x2000 : Word64).toNat % 16384 ≠ 0) ∧
    (let f : Func := { fun0 with rspWait := [{ opcode := 1, status := 0, seq := 3 }], rspPi := 255 }
     f.rspWait ≠ [] ∧ f.enable = true ∧ (mb {}).drover.switching = false ∧ idxDist f.rspPi f.rspCi < 256 ∧ 256 ≤ idxDist 256 f.rspCi) ∧
    (let f : Func := { fun0 with cause := 1, mask := 0x1F, msixMask := ~~~1 }
     f.cause = 1 ∧ f.mask = 0x1F ∧ f.msixMask.getLsbD f.rspVec.toNat = false ∧ f.fstate ≠ .scrub) ∧
    (let f : Func := { fun0 with cause := 4, mask := 0x1F }
     f.cause = 4 ∧ f.mask = 0x1F ∧ (0x1B : Word64) = 0x1B) ∧
    (0xFF : Nat) < 0x100 ∧ fnAnswers (mb {}) 1 = false ∧ fnAnswers { funcs := [(0, { fun0 with fstate := .recovery })] } 0 = false := by decide +kernel
theorem test_hyp_HostRegisters_emergency :
    let s : State := { mb {} with drover := { step := 4 } }
    4 ≤ s.drover.step ∧ s.drover.restarting = false ∧ (0xE5C0000000000001 : Word64).toNat / 2 ^ 48 = 0xE5C0 ∧
    (0xE5C0000000000001 : Word64).toNat % 256 = 1 ∧ (0xE5C0FFFFFFFFFF02 : Word64).toNat / 2 ^ 48 = 0xE5C0 ∧
    (0xE5C0FFFFFFFFFF02 : Word64).toNat % 256 = 2 ∧ (63 : Nat) ≠ 0 := by decide +kernel

/-- A window of one large page: its last byte, one past it, and a read whose page is not mapped. -/
def apSt (x : Tenant) : State := mb { x with apertures := [(0, 0x200000, 0x200000)] }
theorem test_hyp_Apertures :
    fnAnswers (apSt mm) 0 = true ∧ 0x1FFFFF + 2 ≤ 2 ^ (funcOf (apSt mm) 0).barLog2 ∧ apertureVa (tenantOf (apSt mm) 0) 0x1FFFFF 1 = some 0x3FFFFF ∧
    apertureVa (tenantOf (apSt mm) 0) 0x1FFFFF 2 = none ∧
    (match (vaRead (apSt mm) 0 0x3FFFFF 1 .clean).2 with | .ok b => b == [0] | _ => false) = true ∧
    (match (vaRead (apSt {}) 0 0x3FFFFF 1 .clean).2 with | .err _ => true | _ => false) = true ∧
    apertureVa (tenantOf (apSt mm) 0) 0x200000 ([1] : List Byte).length = none ∧
    apertureVa (tenantOf (apSt mm) 0) 0 ([1] : List Byte).length = some 0x200000 ∧
    (let u := (vaRead (apSt {}) 0 0x3FFFFF 1 .clean).1
     (funcOf u 0).enable = true ∧ (funcOf u 0).dropped = 0 ∧ evtRoom (funcOf u 0) = true) :=
  by decide +kernel

theorem test_hyp_PcieDomain :
    ({ pcie := { perst := false } } : State).pcie.perst = false ∧ scanActive { pcie := { perst := true } } = false ∧
    (let s : State := { pcie := { perst := true } }
     s.pcie.perst = true ∧ ∀ l, l < 32 → (linkOf s l).scanHeld = false) ∧
    (let s : State := { mb {} with pcie := { up := true } }
     s.pcie.up = true ∧ fnPresent s 0 = true ∧ s.pcie.crs = true ∧ s.drover.switching = false ∧ s.pcie.vfEnable = false ∧ ∀ n, 1 ≤ n → n ≤ 63 → tabFind s.funcs n = none) ∧
    ((funcOf (mb {}) 0).fstate = .ready ∧ (funcOf { funcs := [(0, { fstate := .idle })] } 0).fstate = .idle) ∧
    (let s : State := { funcs := [(1, { fstate := .idle })], pcie := { up := true, vfEnable := true, numVfs := 1 } }
     s.pcie.vfEnable = true ∧ s.pcie.numVfs = 1 ∧ (funcOf s 1).fstate = .idle ∧ (tenantOf s 1).scrub = none ∧ fnPresent s 1 = true ∧
     fnPresent s 2 = false) ∧
    (({ mb {} with pcie := { perst := false } } : State).pcie.perst = false ∧ (tenantOf (mb {}) 0).scrub = none) ∧
    (let s : State := { funcs := [(0, { fstate := .recovery, prior := .ready })], pcie := { up := true, perst := false, crs := false } }
     s.pcie.up = true ∧ fnPresent s 0 = true ∧ s.pcie.crs = false ∧ s.pcie.perst = false ∧ (funcOf s 0).fstate = .recovery ∧
     (funcOf s 0).prior = .ready ∧ (tenantOf s 0).scrub = none ∧ s.drover.switching = false) ∧
    (let s : State := { drover := { step := 3 }, pcie := { perst := false } }
     s.pcie.perst = false ∧ s.pcie.up = false ∧ 3 ≤ s.drover.step) ∧
    (let s : State := { pcie := { crs := true, perst := false, since := 1 }, drover := { step := 10 }, ftime := 900000001 }
     s.pcie.since + 900000000 ≤ s.ftime ∧ s.pcie.crs = true ∧ s.pcie.perst = false ∧ 3 ≤ s.drover.step ∧ s.drover.step < 11 ∧ (funcOf s 0).fstate = .booting) := by
  refine ⟨by decide, by decide, by decide, ⟨by decide, by decide, by decide, by decide, by decide, ?_⟩, by decide⟩
  intro n h1 _
  simp [mb, tabFind, Nat.ne_of_lt h1]

/-! ## Power, temperature and boot -/

def pwSt (p : Power) : State := { power := { p with vin := .good, groupsUp := 4 } }
/-- Sixty readings of which one differs. -/
def temps1 (i : Nat) (t : Int) : List Int := (List.range 60).map fun k => if k = i then t else 60
/-- Nine quiet samples and eight; the ends of the clock's range. -/
theorem test_hyp_PowerAndTemperature :
    (pwSt {}).power.groupsUp ≠ 0 ∧ (pwSt { since := 8 }).power.since < 9 ∧ 9 ≤ (pwSt { since := 9 }).power.since ∧
    (let x : Band := { units := 50, stopped := false }
     let s : State := { bands := [(5, x)], drover := { step := 6, romRunning := false } }
     tabFind s.bands 5 = some x ∧ x.stopped = false ∧ x.stretch = false ∧ uangoUp s = true ∧ (20 : Nat) ≤ 20 ∧ (54 : Nat) ≤ 54 ∧
     (∀ y ∈ s.bands, y.2.stopped = false)) ∧
    (let x : Band := { units := 50, stopped := true, next := 20, stretch := true }
     tabFind ({ bands := [(0, x)] } : State).bands 0 = some x ∧ x.stretch = true ∧ x.stopped = true ∧ 0 < x.next) := by decide
/-- Below every point; the throttle points of a core and of a Far sensor, 85 there and 100 of a core. -/
theorem test_hyp_PowerAndTemperature_readings :
    (temps1 0 69).length = 60 ∧ (pwSt {}).power.tripped = false ∧ (∀ i, i < 60 → (temps1 0 69).getD i 0 < 70) ∧
    (sensorPoints 23).1 ≤ (temps1 23 95).getD 23 0 ∧ (∀ k, k < 60 → atTrip k ((temps1 23 95).getD k 0) = false) ∧
    (sensorPoints 59).1 ≤ (temps1 59 85).getD 59 0 ∧ 85 ≤ (temps1 59 85).getD 59 0 ∧ (∀ k, k < 60 → atTrip k ((temps1 59 85).getD k 0) = false) ∧
    100 ≤ (temps1 23 100).getD 23 0 ∧ (∀ k, k < 60 → atTrip k ((temps1 23 100).getD k 0) = false) ∧
    tabFind ({ bands := [(5, {})] } : State).bands (23 / 4) = some {} := by
  decide +kernel

/-- The trip point of a stack for the third time; cooling at 70 and above it. -/
theorem test_hyp_PowerAndTemperature_trips :
    atTrip 32 ((temps1 32 95).getD 32 0) = true ∧ 2 ≤ look 0 (pwSt { tripCount := [(32, 2)] }).power.tripCount 32 ∧
    (let s := pwSt { tripped := true, coolFor := 9999 }
     s.power.tripped = true ∧ s.power.coolFor = 9999 ∧ (∀ i, i < 60 → (temps1 0 70).getD i 0 ≤ 70) ∧ s.power.vin = .good) ∧
    (pwSt { tripped := true, coolFor := 9998 }).power.coolFor < 9999 ∧ 70 < (temps1 59 71).getD 59 0 := by
  decide +kernel

theorem test_hyp_PowerOnAndBoot_rails :
    State.reset.power.vin = .absent ∧
    (let s : State := { power := { vin := .under } }
     s.power.vin = .under ∧ s.power.tripped = false) ∧ (pwSt {}).power.vin = .good ∧ ({ vin := .low } : Power).vin = .low ∧
    (let s : State := { power := { vin := .over } }
     s.power.vin = .over ∧ s.power.tripped = false) ∧
    (let s : State := { pwSt {} with drover := { step := 3 } }
     powered s = true ∧ 3 ≤ s.drover.step ∧ scanActive s = false ∧ s.drover.romRunning = true) ∧
    (∀ st ∈ [1, 2], let s : State := { power := { vin := .good, groupsUp := 3 }, drover := { step := st } }
     s.power.vin = .good ∧ (4 : Nat) = s.power.groupsUp + 1 ∧ (4 : Nat) ≤ 4 ∧ (s.drover.step = 1 ∨ s.drover.step = 2)) := by decide
theorem test_hyp_PowerOnAndBoot_steps :
    ({ step := 3 } : Drover).step = 3 ∧
    (let s : State := { drover := { step := 6, romRunning := false } }
     s.drover.step = 6 ∧ s.drover.romRunning = false ∧ s.fabric.modv = false ∧ s.far.endingMarks = []) ∧
    (let s : State := { drover := { step := 8, romRunning := false }, far := { coreMap := some [] } }
     s.drover.step = 8 ∧ s.drover.romRunning = false ∧ s.far.coreMap.isSome = true ∧ ∀ l, l < 32 → (linkOf s l).st = .disabled ∧
       (linkOf s l).byUango = false ∧ (linkOf s l).scanHeld = false) ∧
    (let s : State := { drover := { step := 10, romRunning := false } }
     s.drover.step = 10 ∧ s.drover.romRunning = false ∧ (funcOf s 0).fstate = .booting) := by decide

/-- A step from reset with a command in front: the straps are sampled and the block is at step 1 of its boot. -/
theorem test_Step_front :
    (match step { State.reset with pending := [.vinGood 2 5] } with
     | .next t => t.power.pwrSel == 2 && t.power.slotId == 5 && t.drover.step == 1 && t.pending.isEmpty
     | _ => false) = true := by decide
/-- An idle step is ten nanoseconds once the rails of group 1 stand, and no time before. -/
theorem test_Step_idle : (match step (pwSt {}) with | .next t => t.ftime == 10 | _ => false) = true ∧
    (match step State.reset with | .next t => t.ftime == 0 | _ => false) = true := by decide +kernel
theorem test_hyp_StepRunsTheFrontCommand : State.reset.pending = [] := rfl
theorem reset_inv : State.reset.Inv := rfl
theorem test_hyp_EveryStepKeepsMemoryCanonical :
    State.reset.Inv ∧ ∃ t, step State.reset = .next t := ⟨reset_inv, _, rfl⟩

/-! ## Drover, telemetry and the sideband -/

def drSt (d : Drover) : State := { mb {} with drover := { d with step := 11, romRunning := false } }
/-- A second mismatch 1 ns within the hour; a command that waits for a switch-over. -/
theorem test_hyp_Drover :
    uangoUp (drSt {}) = true ∧ (drSt {}).drover.mismatches = [] ∧
    (let s : State := { drSt { mismatches := [0] } with ftime := 3599999999999 }
     uangoUp s = true ∧ s.drover.mismatches = [0] ∧ s.ftime < 0 + 3600000000000) ∧
    (let s : State := { funcs := [(0, { fstate := .updating })], drover := { restarting := true, step := 11 } }
     s.drover.restarting = true ∧ 11 ≤ s.drover.step ∧ s.setups = [] ∧ (funcOf s 0).fstate = .updating) ∧
    (let c : PendCmd := { opcode := 0x0901, obj := 9, seq := 1 }
     let s : State := { funcs := [(0, { fstate := .updating, owed := [c] })], drover := { switching := true } }
     s.drover.switching = true ∧ (funcOf s 0).fstate = .updating ∧ (funcOf s 0).owed = [c] ∧ c.opcode = 0x0901 ∧ c.obj = 9 ∧ c.status = none) ∧
    (linkOf { links := [(31, { st := .keyx })] } 31).st = .keyx ∧ 7 ≤ (drSt {}).drover.step := by decide

theorem test_hyp_Windows :
    (let s : State := { tenants := [(63, {})] }
     s.telem.snaps = [] ∧ s.tenants = [(63, {})] ∧ s.links = [] ∧ s.planes = [] ∧ s.dies = [] ∧ 63 < 2 ^ 32) ∧
    tableOf (tabled 0) 0 0 = some (tb 0) ∧
    overlapsScrub {} = false ∧
    (let s : State := { tenants := [(0, { scrub := some { inScrub := true, since := 99999999 } })], ftime := 100000000 }
     overlapsScrub s = true ∧ overlapsScrub { s with ftime := 99999999 } = false) ∧
    (let s : State := { power := { scrubs := [(0, 100000001)] }, ftime := 200000000 }
     overlapsScrub s = true ∧ overlapsScrub { s with power := { scrubs := [(0, 100000000)] } } = false) ∧
    (let x : Table := { tb 0 with closing := [[(0, 1)]] }
     ({ snaps := [(0, [(3, [1])])], spans := [([(0, 2, 1)], 5)] } : Telem).snaps = (0, [(3, [1])]) :: [] ∧ x.closing = [(0, 1)] :: [] ∧
     (tb 0).closing = [] ∧ 0 < 1 + 5) ∧
    (let x : Tenant := { jobs := [(2, { job1 with coreNs := 1 })] }
     let s : State := { tenants := [(0, x)] }
     s.telem.spans = [] ∧ s.tenants = [(0, x)] ∧ x.jobs = [(2, { job1 with coreNs := 1 })] ∧ 0 < 1 + s.telem.idleNs) := by
  refine ⟨by decide, rfl, by decide, by decide, by decide, by decide, rfl, rfl, rfl, by decide⟩

def spSt (d : Drover) (x : Spdm) : State := { drSt d with side := { a := { spdm := x } } }
/-- Each stage; the last chunk of a response of three bytes is chunk 0 at the least. -/
theorem test_hyp_SpdmRequests :
    spdmAnswers {} .smb0 = false ∧ spdmAnswers (drSt {}) .smb0 = true ∧ spdmAnswers (drSt {}) .doe = false ∧
    spdmAnswers { drSt {} with pcie := { up := true } } .doe = true ∧
    ({ stage := .versioned } : Spdm).stage ≠ .none ∧ (0x13 : Byte) ≠ 0x12 ∧ (0x11 : Byte) ≠ 0x13 ∧ ({} : Spdm).stage = .none ∧
    ({ stage := .capable } : Spdm).stage = .capable ∧ (drSt { identity := true }).drover.identity = true ∧
    (drSt {}).drover.identity = false ∧ (drSt {}).drover.drbgOk = true ∧ (7 : Nat) ≠ 0 ∧ (0xFE : Byte) ≠ 0xFF ∧
    (let x : Spdm := { large := [1, 2, 3] }
     x.large ≠ [] ∧ 0 * max 1 Config.spdmMessage < x.large.length) ∧
    ({ exchanged := true } : Spdm).exchanged = true ∧ ({ sessionUp := true } : Spdm).sessionUp = true := by
  refine ⟨by decide, by decide, by decide, by decide, by decide, by decide, by decide, by decide, by decide, by decide, by decide, by decide, by decide, by decide,
    ⟨by decide, ?_⟩, by decide⟩
  rw [Nat.zero_mul]; decide
theorem test_hyp_Sideband :
    (pwSt {}).power.groupsUp ≠ 0 ∧ uangoUp { pwSt {} with drover := { step := 6, romRunning := false } } = true ∧
    (pwSt {}).power.sensors = [] ∧ (pwSt { sensors := [48] }).power.sensors ≠ [] ∧ (1 : Nat) ≤ 1 ∧ (3 : Nat) ≤ 3 ∧ ({} : State).power.groupsUp = 0 ∧
    (∀ l, l < 32 → (linkOf {} l).scanHeld = false) ∧ ({ pcie := { perst := false } } : State).pcie.perst = false ∧ ({} : State).pcie.perst = true ∧
    (let s : State := { drover := { step := 10 }, links := [(31, { scanHeld := true })] }
     10 ≤ s.drover.step ∧ s.drover.outOfService = false ∧ (linkOf s 31).scanHeld = true ∧ (linkOf s 31).st = .disabled ∧
     (linkOf s 31).byUango = false) := by decide
/-- The boundary-scan identity: version 1, part 0x0140, the maker, and 1 in bit 0. -/
theorem test_Idcode (m : BitVec 11) : 0x10140000 + 2 * m.toNat + 1 < 2 ^ 32 ∧ (0x10140000 + 2 * m.toNat + 1) % 2 = 1 ∧
    (0x10140000 + 2 * m.toNat + 1) / 2 ^ 28 = 1 := by omega

end Sys2Proof.Tests
end

/-! # Block integer arithmetic: the aligned contribution of a block pair and the commit of a pass (R43 to R47, R116) -/

namespace Sys2Proof.Machine
open Sys2Proof

/-! ## Rounding and alignment (R43, R44) -/

/-- With a = q × 2^k + r and 0 ≤ r < 2^k, `rsh` takes q or q + 1, whichever is nearer, and the even one at r = 2^(k−1). -/
theorem rsh_nearest_even (a : Int) (k : Nat) :
    2 * (rsh a k * 2 ^ k - a).natAbs ≤ 2 ^ k ∧
    (2 * (rsh a k * 2 ^ k - a).natAbs = 2 ^ k → rsh a k % 2 = 0) := by
  have hpos : (0 : Int) < 2 ^ k := Int.pow_pos (by decide)
  have hcast : ((2 ^ k : Nat) : Int) = 2 ^ k := Int.natCast_pow 2 k
  have hr0 := Int.emod_nonneg a (Int.ne_of_gt hpos)
  have hr1 := Int.emod_lt_of_pos a hpos
  have hsplit : a / 2 ^ k * 2 ^ k + a % 2 ^ k = a := Int.ediv_mul_add_emod a (2 ^ k)
  have hr : a - a / 2 ^ k * 2 ^ k = a % 2 ^ k := by omega
  unfold rsh
  dsimp only
  by_cases hup : 2 * (a - a / 2 ^ k * 2 ^ k) > 2 ^ k ∨ 2 * (a - a / 2 ^ k * 2 ^ k) = 2 ^ k ∧ a / 2 ^ k % 2 = 1
  · have hdist : (a / 2 ^ k + 1) * 2 ^ k - a = 2 ^ k - a % 2 ^ k := by
      rw [Int.add_mul, Int.one_mul]
      omega
    rw [if_pos hup, hdist]
    omega
  · have hdist : a / 2 ^ k * 2 ^ k - a = -(a % 2 ^ k) := by omega
    rw [if_neg hup, hdist]
    omega

theorem dot_eq_sum_zip (xs ys : List Int) : dot xs ys = ((xs.zip ys).map fun p => p.1 * p.2).sum := by
  induction xs generalizing ys with
  | nil => simp [dot]
  | cons x xs ih =>
    cases ys with
    | nil => simp [dot]
    | cons y ys => simp [dot, ih]

theorem contribution_ovf (fmt : Nat) (q : Int) {ea eb : Nat} (d : Int) (h : ea = 255 ∨ eb = 255) :
    contribution fmt q ea eb d = 0 := if_pos h

theorem contribution_eq_shiftRound (fmt : Nat) (q : Int) {ea eb : Nat} (d : Int) (ha : ea ≠ 255) (hb : eb ≠ 255) :
    contribution fmt q ea eb d = shiftRound d (((ea : Int) - 127) + ((eb : Int) - 127) - 2 * fracBits fmt - q) := by
  simp [contribution, productExp, ha, hb]

theorem shiftRound_of_nonneg (d : Int) {n : Int} (h : 0 ≤ n) : shiftRound d n = d * 2 ^ n.toNat := if_pos h

theorem shiftRound_of_neg (d : Int) {n : Int} (h : n < 0) : shiftRound d n = rsh d (-n).toNat := if_neg (Int.not_le.mpr h)

theorem blockContribution : Claims.BlockContribution := by
  intro fmt q ea eb xs ys _
  refine ⟨contribution_ovf fmt q _, fun ha hb => ?_⟩
  rw [contribution_eq_shiftRound fmt q _ ha hb, dot_eq_sum_zip]
  constructor
  · exact fun hn => shiftRound_of_nonneg _ hn
  · intro hn
    rw [shiftRound_of_neg _ hn]
    exact rsh_nearest_even _ _

/-! ## Banks and their elements -/

theorem bankOf_setBank (k : Core) (a b : Nat) (x : Bank) :
    bankOf (setBank k a x) b = if b % 4 = a % 4 then x else bankOf k b := by
  unfold bankOf setBank
  split
  · next h => rw [h]; exact look_put_same _ _ _ _
  · next h => exact look_put_other _ _ _ h

@[simp] theorem bankElem_setBankElem_same (x : Bank) (i j : Nat) (v : Int) : bankElem (setBankElem x i j v) i j = v := by
  unfold bankElem setBankElem
  by_cases hv : v = 0
  · rw [if_pos hv, look_del_same, hv]
  · rw [if_neg hv, look_put_same]

theorem bankElem_setBankElem_other (x : Bank) {i j i' j' : Nat} (v : Int) (hj : j < 64) (hj' : j' < 64)
    (h : (i', j') ≠ (i, j)) : bankElem (setBankElem x i j v) i' j' = bankElem x i' j' := by
  have hkey : i' * 64 + j' ≠ i * 64 + j := by
    intro e
    have hi : i' = i := by omega
    have hjj : j' = j := by omega
    exact h (Prod.ext hi hjj)
  unfold bankElem setBankElem
  by_cases hv : v = 0
  · rw [if_pos hv, look_del_other _ _ hkey]
  · rw [if_neg hv, look_put_other _ _ _ hkey]

theorem passBanks_lt (p : Pass) : ∀ b ∈ passBanks p, b < 4 := by
  unfold passBanks destBanks
  split <;> simp <;> omega

@[simp] theorem bankOf_setPass (k : Core) (p : Pass) (b : Nat) : bankOf (setPass k p) b = bankOf k b := rfl

/-! ## The commit of a pass (R46, R116) -/

/-- A commit clears bank `b` where its pass does. -/
def clearBank (p : Pass) (k : Core) (b : Nat) : Core :=
  if p.clears.contains b then setBank k b { bankOf k b with elems := [] } else k

/-- The core after a commit has cleared the banks that its pass clears. -/
def clearBanks (p : Pass) (k : Core) : Core := (passBanks p).foldl (clearBank p) k

/-- A commit adds one sum of its pass to the element the sum's key names, and collects the bank where it overflows. -/
def commitSum (p : Pass) (acc : Core × List Nat) (e : Nat × Int) : Core × List Nat :=
  let b := e.1 / 4096
  let row := p.d0 + e.1 % 4096 / 64
  let col := e.1 % 64
  let r := commitElem (bankElem (bankOf acc.1 b) row col) e.2
  (setBank acc.1 b (setBankElem (bankOf acc.1 b) row col r.1), if r.2 then b :: acc.2 else acc.2)

/-- The core after a pass has cleared and written its banks, and the banks that overflowed. -/
def commitBanks (p : Pass) (k : Core) : Core × List Nat :=
  p.sums.foldl (commitSum p) (clearBanks p k, [])

theorem exec_passCommitStart (c id : Nat) (out : PortOutcome) (s : State) :
    exec (.passCommitStart c id out) s = execPassCommitStart c id out s := rfl

/-- A clean commit of a started pass that shares no bank with an earlier one writes its banks and moves it on. -/
theorem exec_passCommitStart_clean (s : State) (c id : Nat) {p : Pass}
    (hp : (coreOf s c).aq.find? (fun o => o.id == id && o.stage == .started) = some p)
    (hfree : (((coreOf s c).aq.takeWhile fun o => o.id != id).any fun o =>
      (passBanks o).any ((passBanks p).contains ·)) = false) :
    exec (.passCommitStart c id .clean) s = .next (setCore s c (setPass (commitBanks p (coreOf s c)).1
      { p with stage := .committing, ovfls := (commitBanks p (coreOf s c)).2 })) := by
  rw [exec_passCommitStart]
  simp only [execPassCommitStart, hp, hfree]
  rfl

@[simp] theorem clearBank_aq (p : Pass) (k : Core) (b : Nat) : (clearBank p k b).aq = k.aq := by
  unfold clearBank; split <;> rfl

@[simp] theorem commitSum_aq (p : Pass) (acc : Core × List Nat) (e : Nat × Int) : (commitSum p acc e).1.aq = acc.1.aq := rfl

@[simp] theorem clearBanks_aq (p : Pass) (k : Core) : (clearBanks p k).aq = k.aq :=
  List.foldlRecOn (passBanks p) (clearBank p) (motive := fun k' => k'.aq = k.aq) rfl fun k' h b _ => (clearBank_aq p k' b).trans h

@[simp] theorem commitBanks_aq (p : Pass) (k : Core) : (commitBanks p k).1.aq = k.aq :=
  List.foldlRecOn p.sums (commitSum p) (motive := fun acc => acc.1.aq = k.aq) (clearBanks_aq p k) fun acc h e _ => (commitSum_aq p acc e).trans h

theorem bankElem_clearBank (p : Pass) (k : Core) {a b : Nat} (ha : a < 4) (hb : b < 4) (i j : Nat) :
    bankElem (bankOf (clearBank p k a) b) i j =
      if b = a ∧ p.clears.contains b then 0 else bankElem (bankOf k b) i j := by
  unfold clearBank
  by_cases hab : b = a
  · subst hab
    by_cases hc : p.clears.contains b = true
    · rw [if_pos hc, bankOf_setBank, if_pos rfl, if_pos ⟨rfl, hc⟩]
      rfl
    · have hnot : ¬(b = b ∧ p.clears.contains b = true) := fun h => hc h.2
      rw [if_neg hc, if_neg hnot]
  · have hmod : b % 4 ≠ a % 4 := by omega
    have hnot : ¬(b = a ∧ p.clears.contains b = true) := fun h => hab h.1
    rw [if_neg hnot]
    by_cases hc : p.clears.contains a = true
    · rw [if_pos hc, bankOf_setBank, if_neg hmod]
    · rw [if_neg hc]

theorem bankElem_foldl_clearBank (p : Pass) {bs : List Nat} (k : Core) (hbs : ∀ a ∈ bs, a < 4) {b : Nat} (hb : b < 4)
    (i j : Nat) : bankElem (bankOf (bs.foldl (clearBank p) k) b) i j =
      if b ∈ bs ∧ p.clears.contains b then 0 else bankElem (bankOf k b) i j := by
  induction bs generalizing k with
  | nil => simp
  | cons a bs ih =>
    obtain ⟨ha, hbs⟩ := List.forall_mem_cons.mp hbs
    rw [List.foldl_cons, ih _ hbs, bankElem_clearBank p k ha hb]
    by_cases hab : b = a
    · simp only [hab, List.mem_cons, true_or, true_and]
      by_cases hc : p.clears.contains a = true
      · simp only [hc, and_true, if_true, ite_self]
      · simp only [hc, and_false, Bool.false_eq_true, if_false]
    · simp only [hab, List.mem_cons, false_or, false_and, if_false]

theorem bankElem_clearBanks (p : Pass) (k : Core) {b : Nat} (hb : b < 4) (hbp : b ∈ passBanks p) (i j : Nat) :
    bankElem (bankOf (clearBanks p k) b) i j = if p.clears.contains b then 0 else bankElem (bankOf k b) i j := by
  have h := bankElem_foldl_clearBank p k (passBanks_lt p) hb i j
  simp only [hbp, true_and] at h
  exact h

/-- The key of row `m`, column `n` of bank `b` leads a commit to element (d0 + m, n) of that bank. -/
theorem commitSum_key (p : Pass) (acc : Core × List Nat) {b m n : Nat} (v : Int) (hm : m < 64) (hn : n < 64) :
    commitSum p acc (b * 4096 + m * 64 + n, v) =
      (let r := commitElem (bankElem (bankOf acc.1 b) (p.d0 + m) n) v
       (setBank acc.1 b (setBankElem (bankOf acc.1 b) (p.d0 + m) n r.1), if r.2 then b :: acc.2 else acc.2)) := by
  have hbank : (b * 4096 + m * 64 + n) / 4096 = b := by omega
  have hrow : (b * 4096 + m * 64 + n) % 4096 / 64 = m := by omega
  have hcol : (b * 4096 + m * 64 + n) % 64 = n := by omega
  simp only [commitSum, hbank, hrow, hcol]

/-- A pass with one sum: its element is the clamped sum, and its bank is the one that may overflow. -/
theorem commitBanks_single (p : Pass) (k : Core) {b m n : Nat} {v : Int} (hm : m < 64) (hn : n < 64)
    (hsums : p.sums = [(b * 4096 + m * 64 + n, v)]) :
    commitBanks p k =
      (let sum := bankElem (bankOf (clearBanks p k) b) (p.d0 + m) n + v
       (setBank (clearBanks p k) b (setBankElem (bankOf (clearBanks p k) b) (p.d0 + m) n (clampInt sum)),
        if outside sum then [b] else [])) := by
  rw [commitBanks, hsums, List.foldl_cons, List.foldl_nil, commitSum_key p _ v hm hn]
  rfl

theorem mem_ite_singleton {b : Nat} {o : Bool} : (b ∈ if o then [b] else []) ↔ o = true := by
  cases o <;> simp

theorem outside_iff (x : Int) : outside x = true ↔ x < -2147483647 ∨ 2147483647 < x := by
  unfold outside intMax
  rw [Bool.or_eq_true, decide_eq_true_iff, decide_eq_true_iff]

theorem commitElement : Claims.CommitElement := by
  intro s c p b m n v haq hst hb hm hn _ hbp hsums prev
  have hclear := bankElem_clearBanks p (coreOf s c) hb hbp
  have hres := commitBanks_single p (coreOf s c) hm hn hsums
  rw [hclear] at hres
  refine ⟨_, exec_passCommitStart_clean s c p.id (p := p) (by simp [haq, hst]) (by simp [haq]), ?_, ?_, ?_⟩
  · rw [coreOf_setCore_same, bankOf_setPass, hres, bankOf_setBank, if_pos rfl, bankElem_setBankElem_same]
    rfl
  · intro i j _ hj hij
    rw [coreOf_setCore_same, bankOf_setPass, hres, bankOf_setBank, if_pos rfl, bankElem_setBankElem_other _ _ hn hj hij]
    exact hclear i j
  · refine ⟨{ p with stage := .committing, ovfls := (commitBanks p (coreOf s c)).2 }, by simp [setPass, haq], rfl, rfl, ?_⟩
    rw [hres, ← outside_iff]
    exact mem_ite_singleton

/-- Settles O16: a block pair contributes its dot product rounded once, and a commit writes the clamped sum. -/
theorem arrayArithmetic : Obligations.ArrayArithmetic := ⟨commitElement, blockContribution⟩

end Sys2Proof.Machine

/-! # The own local store: its addresses, its faults, and accesses through the own window (R70 to R75, R81, R85, R161, R165) -/

namespace Sys2Proof.Machine
open Sys2Proof

/-! ## Little-endian bytes (R74, R161) -/

@[simp] theorem length_toBytes (n v : Nat) : (toBytes n v).length = n := by
  induction n generalizing v with
  | zero => rfl
  | succ n ih => rw [toBytes, List.length_cons, ih]

theorem getElem_toBytes {n i : Nat} (v : Nat) (h : i < (toBytes n v).length) :
    (toBytes n v)[i] = BitVec.ofNat 8 (v / 256 ^ i) := by
  induction n generalizing v i with
  | zero => exact absurd h (Nat.not_lt_zero i)
  | succ n ih =>
    cases i with
    | zero => simp [toBytes]
    | succ i =>
      simp only [toBytes, List.getElem_cons_succ]
      rw [ih (v / 256) (by simpa using h), Nat.div_div_eq_div_mul, Nat.pow_succ']

@[simp] theorem length_bytesAt (m : List Host.Cell) (a n : Nat) : (bytesAt m a n).length = n := by
  simp [bytesAt]

theorem ofBytes_lt (bs : List Byte) : ofBytes bs < 2 ^ (8 * bs.length) := by
  induction bs with
  | nil => exact Nat.one_pos
  | cons b bs ih =>
    have hb : b.toNat < 256 := b.isLt
    rw [ofBytes, List.length_cons, Nat.mul_succ, Nat.pow_add]
    omega

theorem loadValue_unsigned (bs : List Byte) : loadValue false bs = BitVec.ofNat 64 (ofBytes bs) := rfl

/-- A value of at least one byte is negative where its top bit is set. -/
theorem loadValue_signed {bs : List Byte} (h : 0 < bs.length) :
    loadValue true bs = BitVec.ofInt 64 (if ofBytes bs < 2 ^ (8 * bs.length - 1) then (ofBytes bs : Int)
      else (ofBytes bs : Int) - 2 ^ (8 * bs.length)) := by
  have hv : ofBytes bs % 2 ^ (8 * bs.length) = ofBytes bs := Nat.mod_eq_of_lt (ofBytes_lt bs)
  have hw : 2 ^ (8 * bs.length) = 2 * 2 ^ (8 * bs.length - 1) := by
    rw [← Nat.pow_succ', Nat.succ_eq_add_one, Nat.sub_add_cancel (by omega)]
  have hiff : 2 * ofBytes bs < 2 ^ (8 * bs.length) ↔ ofBytes bs < 2 ^ (8 * bs.length - 1) := by omega
  simp only [loadValue, signed, hv, hiff, if_true]

theorem loadValue_bytesAt (m : List Host.Cell) (pa : Nat) {n : Nat} (hn : 0 < n) :
    loadValue true (bytesAt m pa n) = BitVec.ofInt 64 (if ofBytes (bytesAt m pa n) < 2 ^ (8 * n - 1)
      then (ofBytes (bytesAt m pa n) : Int) else (ofBytes (bytesAt m pa n) : Int) - 2 ^ (8 * n)) := by
  rw [loadValue_signed (by rwa [length_bytesAt]), length_bytesAt]

/-! ## Reads and writes of the local store (R70, R74) -/

theorem lsRead_clean {s : State} {pa n : Nat} (h : (wordsOf pa n).all (fun w => (tabFind s.badWords w).isNone) = true) :
    lsRead s pa n .clean = (s, some (bytesAt s.mem pa n)) := by
  have hgood : (wordsOf pa n).any (fun w => (tabFind s.badWords w).isSome) = false := by
    simpa [List.any_eq_false, List.all_eq_true, Option.isSome_eq_false_iff] using h
  simp [lsRead, hgood]

theorem lsCheck_align {off : Word64} {n : Nat} (h : off.toNat % n ≠ 0) : lsCheck off n = some .align := if_pos h

theorem lsCheck_none {off : Word64} {n : Nat} (h : off.toNat % n = 0) (hb : off.toNat + n ≤ 655360) :
    lsCheck off n = none := by
  rw [lsCheck, if_neg (not_not_intro h), if_neg (Nat.not_lt.mpr (show _ ≤ Config.lsBytes from hb))]

/-! ## What a fault records (R81, R85) -/

/-- What a context shows of its fault: whether it has stopped, and the cause, kind, PC and address recorded. -/
def faultRecord (x : Ctx) : CtxState × Option Cause × Bool × Word64 × Word64 :=
  (x.st, x.cause, x.imprecise, x.faultPc, x.faultAddr)

theorem faultsAt_iff (x : Issue) (c : Cause) (addr : Word64) (s t : State) :
    FaultsAt x c addr s t ↔
      faultRecord (stCtx t x.core x.ctx) = (.faulted, some c, false, (stCtx s x.core x.ctx).pc, addr) ∧ t.mem = s.mem := by
  simp only [FaultsAt, faultRecord, Prod.mk.injEq, and_assoc]

/-- An update of one context that keeps its record keeps the record of every context. -/
theorem faultRecord_setCtx {k : Core} {m : Nat} {y : Ctx} (n : Nat) (h : faultRecord y = faultRecord (ctxOf k m)) :
    faultRecord (ctxOf (setCtx k m y) n) = faultRecord (ctxOf k n) := by
  by_cases hn : n = m
  · rw [hn, ctxOf_setCtx_same, h]
  · rw [ctxOf_setCtx_other _ _ hn]

theorem requeue_faultRecord (m n fuel : Nat) (k : Core) :
    faultRecord (ctxOf (requeue m fuel k) n) = faultRecord (ctxOf k n) := by
  induction fuel generalizing k with
  | zero => rfl
  | succ fuel ih =>
    unfold requeue
    dsimp only
    split
    · rfl
    · split
      · rfl
      · exact (ih _).trans (faultRecord_setCtx n rfl)
    · split
      · rfl
      · exact (ih _).trans (faultRecord_setCtx n rfl)
    · split
      · split
        · rfl
        · exact (ih _).trans (faultRecord_setCtx n rfl)
      · split
        · rfl
        · exact (ih _).trans (faultRecord_setCtx n rfl)

theorem requeueAll_faultRecord (k : Core) (n : Nat) : faultRecord (ctxOf (requeueAll k) n) = faultRecord (ctxOf k n) :=
  foldl_keep (fun k => faultRecord (ctxOf k n)) _ _ k fun _ _ => requeue_faultRecord _ n _ _

theorem writeG_faultRecord (y : Ctx) (d : Nat) (v : Word64) : faultRecord (writeG y d v) = faultRecord y := by
  unfold writeG
  split <;> rfl

theorem settleRsr_faultRecord (l : List HeldRsr) (k : Core) (n : Nat) :
    faultRecord (ctxOf (settleRsr l k) n) = faultRecord (ctxOf k n) := by
  induction l generalizing k with
  | nil => rfl
  | cons q l ih =>
    unfold settleRsr
    dsimp only
    split
    · exact ih k
    · exact (ih _).trans (faultRecord_setCtx n (writeG_faultRecord _ _ _))

theorem finishMove_faultRecord (k : Core) (m : Move) (n : Nat) :
    faultRecord (ctxOf (finishMove k m) n) = faultRecord (ctxOf k n) := by
  unfold finishMove
  dsimp only
  split
  · exact faultRecord_setCtx n rfl
  · rfl

theorem popPart_faultRecord (k : Core) (m : Move) (id n : Nat) :
    faultRecord (ctxOf (popPart k m id) n) = faultRecord (ctxOf k n) := by
  unfold popPart
  dsimp only
  split
  · exact finishMove_faultRecord k _ n
  · rfl

@[simp] theorem pfUse_ctxs (k : Core) (t pa : Nat) (timely : Bool) : (pfUse k t pa timely).ctxs = k.ctxs := by
  unfold pfUse
  dsimp only
  (repeat' split) <;> rfl

theorem partBuffered_ctxs (k : Core) (m : Move) (p : MovePart) : (partBuffered k m p).2.ctxs = k.ctxs := by
  unfold partBuffered
  dsimp only
  (repeat' split) <;> simp

theorem stCtx_setCore_same (s : State) (c n : Nat) (k : Core) : stCtx (setCore s c k) c n = ctxOf k n := by
  rw [stCtx, coreOf_setCore_same]

@[simp] theorem addTag_ctxs (k : Core) (write : Bool) : (addTag k write).ctxs = k.ctxs := by
  cases write <;> rfl

/-- A part of a move leaves the unit. -/
theorem addReq_popPart_faultRecord {s : State} {c : Nat} {k : Core} (m : Move) (r : MemReq) (n : Nat)
    (hk : k.ctxs = (coreOf s c).ctxs) :
    faultRecord (stCtx (addReq (setCore s c (popPart k m s.nextId)) r) c n) = faultRecord (stCtx s c n) :=
  calc faultRecord (stCtx (addReq (setCore s c (popPart k m s.nextId)) r) c n)
      = faultRecord (stCtx (setCore s c (popPart k m s.nextId)) c n) := rfl
    _ = faultRecord (ctxOf k n) := by rw [stCtx_setCore_same, popPart_faultRecord]
    _ = faultRecord (stCtx s c n) := by rw [ctxOf, hk]; rfl

theorem pumpMoves_faultRecord (c n fuel : Nat) (s : State) :
    faultRecord (stCtx (pumpMoves c fuel s) c n) = faultRecord (stCtx s c n) := by
  induction fuel generalizing s with
  | zero => rfl
  | succ fuel ih =>
    unfold pumpMoves
    dsimp only
    split
    · rfl
    · next m _ =>
      split
      · rfl
      · next p _ _ =>
        have hbuf := partBuffered_ctxs (coreOf s c) m p
        split
        · next st k1 heq =>
          rw [heq] at hbuf
          exact (ih _).trans (addReq_popPart_faultRecord m _ n hbuf)
        · split
          · exact (ih _).trans (addReq_popPart_faultRecord m _ n (addTag_ctxs _ _))
          · split
            · rfl
            · rw [stCtx_setCore_same]; rfl

/-- Waking leaves the record of a context that does not wait. -/
theorem wakeCtx_faultRecord {s : State} {c n : Nat} (m : Nat) (h : (stCtx s c n).st = .faulted) :
    faultRecord (stCtx (wakeCtx s c m) c n) = faultRecord (stCtx s c n) := by
  by_cases hm : m = n
  · have hwait : isWaiting (ctxOf (coreOf s c) m).st = false := by rw [hm, show (ctxOf _ n).st = _ from h]; rfl
    rw [wakeCtx, hwait]
    rfl
  · have hother (k : Core) (y : Ctx) (hk : k.ctxs = (coreOf s c).ctxs) :
        stCtx (setCore s c (setCtx k m y)) c n = stCtx s c n := by
      rw [stCtx_setCore_same, ctxOf_setCtx_other _ _ (Ne.symm hm), ctxOf, hk]; rfl
    unfold wakeCtx
    dsimp only
    split
    · rfl
    · split
      · split
        · exact congrArg faultRecord (hother _ _ rfl)
        · rfl
      · split
        · exact congrArg faultRecord (hother _ _ rfl)
        · split
          · split <;> exact congrArg faultRecord (hother _ _ rfl)
          · rfl

theorem foldl_wakeCtx_faultRecord {s : State} {c n : Nat} (l : List Nat) (h : (stCtx s c n).st = .faulted) :
    faultRecord (stCtx (l.foldl (fun s m => wakeCtx s c m) s) c n) = faultRecord (stCtx s c n) := by
  induction l generalizing s with
  | nil => rfl
  | cons m l ih =>
    have hwake := wakeCtx_faultRecord m h
    have hst : (stCtx (wakeCtx s c m) c n).st = .faulted := (congrArg Prod.fst hwake).trans h
    exact (ih hst).trans hwake

/-- What an event wakes and sends leaves the record of a context that has faulted. -/
theorem settle_faultRecord {s : State} {c n : Nat} (h : (stCtx s c n).st = .faulted) :
    faultRecord (stCtx (settle s c) c n) = faultRecord (stCtx s c n) := by
  have hcore : faultRecord (stCtx (onCore s c fun k => settleRsr k.rsrq (requeueAll k)) c n) = faultRecord (stCtx s c n) := by
    rw [stCtx, coreOf_onCore_same, settleRsr_faultRecord, requeueAll_faultRecord, stCtx]
  have hpump : faultRecord (stCtx (pumpUnit (onCore s c fun k => settleRsr k.rsrq (requeueAll k)) c) c n) =
      faultRecord (stCtx s c n) := (pumpMoves_faultRecord c n _ _).trans hcore
  exact (foldl_wakeCtx_faultRecord _ ((congrArg Prod.fst hpump).trans h)).trans hpump

/-- The contexts of a fenced core end with no fault (R85). -/
theorem faultCtx_of_fenced {s : State} {c : Nat} (h : (coreOf s c).fenced = true) (n : Nat) (cause : Cause) (addr : Word64)
    (imprecise : Bool) (pc : Word64) (o : Nat) : faultCtx s c n cause addr imprecise pc o = s := if_pos h

theorem faultCtx_faultRecord {s : State} {c n : Nat} (hf : (coreOf s c).fenced = false) (hr : (stCtx s c n).st = .running)
    (cause : Cause) (addr : Word64) (imprecise : Bool) (pc : Word64) (o : Nat) :
    faultRecord (stCtx (faultCtx s c n cause addr imprecise pc o) c n) = (.faulted, some cause, imprecise, pc, addr) := by
  have hr' : (ctxOf (coreOf s c) n).st = .running := hr
  have hreqs (t : State) (l : List MemReq) : stCtx { t with reqs := l } c n = stCtx t c n := rfl
  simp only [faultCtx, hf, hr']
  rw [if_neg Bool.false_ne_true, settle_faultRecord]
  · rw [hreqs, stCtx_setCore_same, ctxOf_setCtx_same]
    rfl
  · rw [hreqs, stCtx_setCore_same, ctxOf_setCtx_same]

/-! ## A fault at issue -/

theorem issues_running {s : State} {x : Issue} (h : issues s x = true) : (stCtx s x.core x.ctx).st = .running := by
  simp only [issues, Bool.and_eq_true, beq_iff_eq] at h
  exact h.2

theorem issued_fenced (k : Core) (n : Nat) : (issued k n).fenced = k.fenced := by rw [issued_core]

theorem issued_st (k : Core) (n : Nat) : (ctxOf (issued k n) n).st = (ctxOf k n).st := by rw [issued_ctx]

/-- A running context records the fault of its instruction if its core is not fenced; on a fenced core it ends with no fault
(R81, R85). -/
theorem faultsAt_finishIssue_iff {x : Issue} {s : State} (hr : (stCtx s x.core x.ctx).st = .running) (c : Cause) (addr : Word64) :
    FaultsAt x c addr s (finishIssue x.core x.ctx (stCtx s x.core x.ctx).pc (.fault c addr s)) ↔
      (coreOf s x.core).fenced = false := by
  have hfin : finishIssue x.core x.ctx (stCtx s x.core x.ctx).pc (.fault c addr s) =
      faultCtx (onCore s x.core fun k => issued k x.ctx) x.core x.ctx c addr false (stCtx s x.core x.ctx).pc
        (stCtx s x.core x.ctx).order := rfl
  have hrun : (stCtx (onCore s x.core fun k => issued k x.ctx) x.core x.ctx).st = .running := by
    rw [stCtx, coreOf_onCore_same, issued_st]; exact hr
  have hfence : (coreOf (onCore s x.core fun k => issued k x.ctx) x.core).fenced = (coreOf s x.core).fenced := by
    rw [coreOf_onCore_same, issued_fenced]
  rw [faultsAt_iff, finishIssue_mem, hfin]
  constructor
  · rintro ⟨hrec, -⟩
    refine Bool.eq_false_iff.mpr fun hf => ?_
    rw [faultCtx_of_fenced (hfence.trans hf)] at hrec
    have hst : CtxState.running = .faulted := hrun.symm.trans (congrArg Prod.fst hrec)
    exact CtxState.noConfusion hst
  · intro hf
    exact ⟨faultCtx_faultRecord (hfence.trans hf) hrun _ _ _ _ _, rfl⟩

theorem faults_iff_unfenced {i : Instr} {x : Issue} {s : State} {c : Cause} {addr : Word64}
    (hr : (stCtx s x.core x.ctx).st = .running)
    (h : exec i s = .next (finishIssue x.core x.ctx (stCtx s x.core x.ctx).pc (.fault c addr s))) :
    (∃ t, exec i s = .next t ∧ FaultsAt x c addr s t) ↔ (coreOf s x.core).fenced = false := by
  rw [← faultsAt_finishIssue_iff hr c addr, h]
  simp only [Host.Outcome.next.injEq, exists_eq_left']

/-! ## What a scalar load or store of the local store does once it issues -/

section LocalStore
variable {x : Issue} {d a : Reg} {sz : BitVec 2} {imm : Word32} {off : Word64} {s : State}

theorem Runs.running {rs ps : List Nat} (hr : Runs x rs ps s) : (stCtx s x.core x.ctx).st = .running :=
  issues_running hr.slot

/-- An instruction that decode accepts and that waits for nothing is its body, completed. -/
theorem issue_runs {rs ps : List Nat} (hr : Runs x rs ps s) (body : State → Act) :
    issue x true rs ps body s = .next (finishIssue x.core x.ctx (stCtx s x.core x.ctx).pc (body s)) :=
  congrArg _ (issueStep_runs hr body)

/-- A store into the local store writes the low `n` bytes of `v`, little endian, and no other byte, and goes on. -/
theorem finishIssue_lsWrite (x : Issue) (pc : Word64) (s : State) (pa n v : Nat) {t : State}
    (ht : t = finishIssue x.core x.ctx pc (.next (lsWrite s pa (toBytes n v)))) :
    SetsReg x (pc + 8) 0 0 { s with mem := t.mem, badWords := t.badWords } t ∧
    (∀ i, i < n → byteAt t.mem (pa + i) = BitVec.ofNat 8 (v / 256 ^ i)) ∧
    (∀ j, j < pa ∨ pa + n ≤ j → byteAt t.mem j = byteAt s.mem j) := by
  have hmem : t.mem = (lsWrite s pa (toBytes n v)).mem := by rw [ht, finishIssue_mem, actState_next]
  refine ⟨?_, fun i hi => ?_, fun j hj => ?_⟩
  · rw [ht, finishIssue_next]
    exact goto_setsReg x pc (pc + 8) (lsWrite s pa (toBytes n v))
  · have hi' : i < (toBytes n v).length := by rwa [length_toBytes]
    rw [hmem, byteAt_lsWrite_same s pa _ i hi', getElem_toBytes]
  · rw [hmem, byteAt_lsWrite_other s pa _ j (by rwa [length_toBytes])]

/-! ## lst, lld and lldu (R70, R74, R161) -/

theorem exec_lst : exec (.lst x d a sz imm) s = execLst x d a sz imm s := rfl

theorem exec_lld (out : PortOutcome) :
    exec (.lld x d a sz imm out) s = localLoad x d a sz imm out true true s := rfl

theorem exec_lldu (out : PortOutcome) (hsz : sz ≠ 3) :
    exec (.lldu x d a sz imm out) s = localLoad x d a sz imm out false true s := by
  have harm : exec (.lldu x d a sz imm out) s = execLldu x d a sz imm out s := rfl
  rw [harm, execLldu, show (sz != 3) = true from bne_iff_ne.mpr hsz]

section
variable (hr : Runs x [d.toNat, a.toNat] [] s) (hoff : readG (stCtx s x.core x.ctx) a.toNat + immWord imm = off)
include hr hoff

theorem exec_lst_fault {c : Cause} (hc : lsCheck off (2 ^ sz.toNat) = some c) :
    exec (.lst x d a sz imm) s =
      .next (finishIssue x.core x.ctx (stCtx s x.core x.ctx).pc (.fault c off s)) := by
  rw [exec_lst, execLst, issue_runs hr]
  simp only [hoff, hc]

theorem exec_lst_write (hc : lsCheck off (2 ^ sz.toNat) = none) :
    exec (.lst x d a sz imm) s = .next (finishIssue x.core x.ctx (stCtx s x.core x.ctx).pc
      (.next (lsWrite s (lsAddr x.core off.toNat)
        (toBytes (2 ^ sz.toNat) (readG (stCtx s x.core x.ctx) d.toNat).toNat)))) := by
  rw [exec_lst, execLst, issue_runs hr]
  simp only [hoff, hc]

theorem localLoad_fault {c : Cause} (out : PortOutcome) (sg : Bool)
    (hc : lsCheck off (2 ^ sz.toNat) = some c) :
    localLoad x d a sz imm out sg true s =
      .next (finishIssue x.core x.ctx (stCtx s x.core x.ctx).pc (.fault c off s)) := by
  rw [localLoad, issue_runs hr]
  simp only [hoff, hc]

theorem localLoad_clean (sg : Bool) (hc : lsCheck off (2 ^ sz.toNat) = none)
    (hgood : (wordsOf (lsAddr x.core off.toNat) (2 ^ sz.toNat)).all
      (fun w => (tabFind s.badWords w).isNone) = true) :
    localLoad x d a sz imm .clean sg true s = .next (finishIssue x.core x.ctx (stCtx s x.core x.ctx).pc
      (writeReg x d.toNat (fun _ => loadValue sg
        (bytesAt s.mem (lsAddr x.core off.toNat) (2 ^ sz.toNat))) s)) := by
  rw [localLoad, issue_runs hr]
  simp only [hoff]
  -- The read goes first: left in the `match`, it makes the kernel compute with the base of the local store.
  rw [lsRead_clean hgood, hc]

/-- On a core that is not fenced, and on no other, lst, lld and lldu fault as their offset check says (R70, R85, R161). -/
theorem localStore_faults_iff {c : Cause} (hc : lsCheck off (2 ^ sz.toNat) = some c) :
    ((∃ t, exec (.lst x d a sz imm) s = .next t ∧ FaultsAt x c off s t) ↔
      (coreOf s x.core).fenced = false) ∧
    ((∃ t, exec (.lld x d a sz imm .clean) s = .next t ∧ FaultsAt x c off s t) ↔
      (coreOf s x.core).fenced = false) ∧
    (sz ≠ 3 → ((∃ t, exec (.lldu x d a sz imm .clean) s = .next t ∧ FaultsAt x c off s t) ↔
      (coreOf s x.core).fenced = false)) :=
  ⟨faults_iff_unfenced hr.running (exec_lst_fault hr hoff hc),
    faults_iff_unfenced hr.running ((exec_lld .clean).trans (localLoad_fault hr hoff .clean true hc)),
    fun hsz => faults_iff_unfenced hr.running ((exec_lldu .clean hsz).trans (localLoad_fault hr hoff .clean false hc))⟩

/-- An aligned lst inside the 640 KiB writes the bytes it names and no other. -/
theorem exec_lst_aligned (halign : off.toNat % 2 ^ sz.toNat = 0)
    (hin : off.toNat + 2 ^ sz.toNat ≤ 655360) :
    ∃ t, exec (.lst x d a sz imm) s = .next t ∧
      SetsReg x ((stCtx s x.core x.ctx).pc + 8) 0 0 { s with mem := t.mem, badWords := t.badWords } t ∧
      (∀ i, i < 2 ^ sz.toNat → byteAt t.mem (lsAddr x.core off.toNat + i) =
        BitVec.ofNat 8 ((readG (stCtx s x.core x.ctx) d.toNat).toNat / 256 ^ i)) ∧
      (∀ j, j < lsAddr x.core off.toNat ∨ lsAddr x.core off.toNat + 2 ^ sz.toNat ≤ j →
        byteAt t.mem j = byteAt s.mem j) :=
  ⟨_, exec_lst_write hr hoff (lsCheck_none halign hin), finishIssue_lsWrite x _ s _ _ _ rfl⟩

/-- An aligned lld or lldu of readable bytes inside the 640 KiB reads the bytes it names, sign- or zero-extended. -/
theorem localLoad_aligned (sg : Bool) (halign : off.toNat % 2 ^ sz.toNat = 0)
    (hin : off.toNat + 2 ^ sz.toNat ≤ 655360)
    (hgood : (wordsOf (lsAddr x.core off.toNat) (2 ^ sz.toNat)).all
      (fun w => (tabFind s.badWords w).isNone) = true) :
    ∃ t, localLoad x d a sz imm .clean sg true s = .next t ∧
      SetsReg x ((stCtx s x.core x.ctx).pc + 8) d.toNat
        (loadValue sg (bytesAt s.mem (lsAddr x.core off.toNat) (2 ^ sz.toNat))) s t :=
  ⟨_, localLoad_clean hr hoff sg (lsCheck_none halign hin) hgood, writeReg_setsReg x d.toNat (fun _ => loadValue sg _) s⟩

end

/-! ## vld.l and vst.l (R70, R165) -/

theorem exec_vldL : exec (.vldL x d a imm) s = localVec x { entry .ldl with d := d.toNat } a imm s := rfl

theorem exec_vstL : exec (.vstL x d a imm) s = localVec x { entry .stl with a := d.toNat } a imm s := rfl

theorem localVec_fault {e : VEntry} {c : Cause} (hr : Runs x [a.toNat] [] s)
    (hoff : readG (stCtx s x.core x.ctx) a.toNat + immWord imm = off) (hin : entryOutside (stCtx s x.core x.ctx) e = false)
    (hc : lsCheck off 256 = some c) :
    localVec x e a imm s =
      .next (finishIssue x.core x.ctx (stCtx s x.core x.ctx).pc (.fault c off s)) := by
  simp only [stCtx] at hin hoff
  rw [localVec, issue_runs hr]
  simp only [hoff, hin, hc]
  rfl

/-- On a core that is not fenced, and on no other, vld.l and vst.l of an owned register fault as their offset check says. -/
theorem vectorLocal_faults_iff {c : Cause} (hr : Runs x [a.toNat] [] s)
    (hoff : readG (stCtx s x.core x.ctx) a.toNat + immWord imm = off) (hv : ownsVreg (stCtx s x.core x.ctx) d.toNat = true)
    (hc : lsCheck off 256 = some c) :
    ((∃ t, exec (.vldL x d a imm) s = .next t ∧ FaultsAt x c off s t) ↔
      (coreOf s x.core).fenced = false) ∧
    ((∃ t, exec (.vstL x d a imm) s = .next t ∧ FaultsAt x c off s t) ↔
      (coreOf s x.core).fenced = false) := by
  have hldl : entryOutside (stCtx s x.core x.ctx) { entry .ldl with d := d.toNat } = false := by
    simp [entryOutside, entryReadsV, entryWritesV, entryReadsT, entryWritesT, entryReadsB, entryWritesB, entry, hv]
  have hstl : entryOutside (stCtx s x.core x.ctx) { entry .stl with a := d.toNat } = false := by
    simp [entryOutside, entryReadsV, entryWritesV, entryReadsT, entryWritesT, entryReadsB, entryWritesB, entry, hv]
  exact ⟨faults_iff_unfenced hr.running (exec_vldL.trans (localVec_fault hr hoff hldl hc)),
    faults_iff_unfenced hr.running (exec_vstL.trans (localVec_fault hr hoff hstl hc))⟩

/-! ## Accesses through the own window (R72, R75, R161) -/

/-- The state after a translation that hits: the entry that served it is the most recently used (R75). -/
def tlbTouched (x : Issue) (addr : Word64) (s : State) : State :=
  setCore s x.core (tlbTouch (coreOf s x.core) (stCtx s x.core x.ctx).tenant.toNat addr.toNat)

@[simp] theorem stCtx_tlbTouched (x : Issue) (addr : Word64) (s : State) :
    stCtx (tlbTouched x addr s) x.core x.ctx = stCtx s x.core x.ctx := by
  rw [tlbTouched, stCtx_setCore_same]
  rfl

theorem field_eq_zero_of_canonical {addr : Word64} (h : addr.toNat < 2 ^ 48) : field addr 48 16 = 0 := by
  rw [field, Nat.div_eq_of_lt h, Nat.zero_mod]

/-- An aligned access to a canonical address whose page maps the own window is served there. -/
theorem reach_own {addr : Word64} {n acc pa : Nat} (halign : addr.toNat % n = 0) (hcanon : addr.toNat < 2 ^ 48)
    (hin : pastLs pa n = false) (hown : inOwnLs x.core pa = true)
    (hhit : xlate (coreOf s x.core) (stCtx s x.core x.ctx).tenant.toNat addr.toNat acc = .hit pa) :
    reach x addr n acc s = .own pa (tlbTouched x addr s) := by
  simp only [stCtx] at hhit
  simp only [reach, halign, field_eq_zero_of_canonical hcanon, hhit, hin, hown]
  rfl

theorem exec_st : exec (.st x d a sz imm) s = execSt x d a sz imm s := rfl

theorem exec_ld (out : PortOutcome) : exec (.ld x d a sz imm out) s = loadOp x d a sz imm out true true s := rfl

theorem exec_ldu (out : PortOutcome) (hsz : sz ≠ 3) :
    exec (.ldu x d a sz imm out) s = loadOp x d a sz imm out false true s := by
  have harm : exec (.ldu x d a sz imm out) s = execLdu x d a sz imm out s := rfl
  rw [harm, execLdu, show (sz != 3) = true from bne_iff_ne.mpr hsz]

section
variable {pa : Nat} (hr : Runs x [d.toNat, a.toNat] [] s) (hoff : readG (stCtx s x.core x.ctx) a.toNat + immWord imm = off)
include hr hoff

theorem execSt_own {s1 : State} (hreach : reach x off (2 ^ sz.toNat) 1 s = .own pa s1) :
    execSt x d a sz imm s = .next (finishIssue x.core x.ctx (stCtx s x.core x.ctx).pc
      (if ownAhead (coreOf s x.core) x.core x.ctx pa (2 ^ sz.toNat) true then .hold s
       else .next (lsWrite s1 pa (toBytes (2 ^ sz.toNat) (readG (stCtx s x.core x.ctx) d.toNat).toNat)))) := by
  rw [execSt, issue_runs hr]
  simp only [hoff, hreach]

theorem loadOp_own_hold {s1 : State} (out : PortOutcome) (sg : Bool)
    (hreach : reach x off (2 ^ sz.toNat) 0 s = .own pa s1)
    (hahead : ownAhead (coreOf s x.core) x.core x.ctx pa (2 ^ sz.toNat) false = true) :
    loadOp x d a sz imm out sg true s = .next s := by
  rw [loadOp, issue_runs hr]
  simp only [hoff, hreach, hahead, if_true]
  rfl

theorem loadOp_own_clean {s1 : State} (sg : Bool)
    (hreach : reach x off (2 ^ sz.toNat) 0 s = .own pa s1)
    (hahead : ownAhead (coreOf s x.core) x.core x.ctx pa (2 ^ sz.toNat) false = false)
    (hgood : (wordsOf pa (2 ^ sz.toNat)).all (fun w => (tabFind s1.badWords w).isNone) = true) :
    loadOp x d a sz imm .clean sg true s = .next (finishIssue x.core x.ctx (stCtx s x.core x.ctx).pc
      (writeReg x d.toNat (fun _ => loadValue sg (bytesAt s1.mem pa (2 ^ sz.toNat))) s1)) := by
  rw [loadOp, issue_runs hr]
  simp only [hoff, hreach, hahead, lsRead_clean hgood]
  rfl

end

end LocalStore

theorem ownWindowAccess : Claims.OwnWindowAccess := by
  intro x d a sz imm s pa hr c addr n s1 v halign hcanon hin hown
  have hreach (acc : Nat) (hhit : xlate (coreOf s x.core) c.tenant.toNat addr.toNat acc = .hit pa) :
      reach x addr n acc s = .own pa (tlbTouched x addr s) :=
    reach_own halign hcanon hin hown hhit
  have hpos : 0 < n := Nat.two_pow_pos _
  refine ⟨fun hhit hahead => ?_, fun hhit hahead => ⟨?_, fun hsz => ?_⟩, fun hhit hahead => ?_, fun hhit hahead hgood => ?_⟩
  · rw [exec_st, execSt_own hr rfl (hreach 1 hhit), if_pos hahead]
    rfl
  · exact (exec_ld .clean).trans (loadOp_own_hold hr rfl .clean true (hreach 0 hhit) hahead)
  · exact (exec_ldu .clean hsz).trans (loadOp_own_hold hr rfl .clean false (hreach 0 hhit) hahead)
  · refine ⟨_, ?_, finishIssue_lsWrite x c.pc s1 pa n (readG c d.toNat).toNat rfl⟩
    rw [exec_st, execSt_own hr rfl (hreach 1 hhit), if_neg (Bool.eq_false_iff.mp hahead)]
    rfl
  · have hsets (sg : Bool) : ∃ t, loadOp x d a sz imm .clean sg true s = .next t ∧
        SetsReg x (c.pc + 8) d.toNat (loadValue sg (bytesAt s.mem pa n)) s1 t := by
      refine ⟨_, loadOp_own_clean hr rfl sg (hreach 0 hhit) hahead hgood, ?_⟩
      have h := writeReg_setsReg x d.toNat (fun _ => loadValue sg (bytesAt s.mem pa n)) s1
      rw [show stCtx s1 x.core x.ctx = c from stCtx_tlbTouched x addr s] at h
      exact h
    refine ⟨?_, fun hsz => ?_⟩
    · rw [exec_ld, ← loadValue_bytesAt s.mem pa hpos]
      exact hsets true
    · rw [exec_ldu .clean hsz]
      exact hsets false

/-! ## A fenced core whose context still runs -/

/-- Context 0 of core 0 runs at 0x1000, its fetch hits, and the core is fenced. -/
def fencedRunning : State :=
  { cores := [(0, { running := some 0, fenced := true, ctxs := [(0, { st := .running, pc := 0x1000 })],
                    icache := [{ blk := 64, data := [] }] })] }

theorem runs_fencedRunning : Runs { core := 0, ctx := 0 } [0, 0] [] fencedRunning where
  slot := by decide
  pc := by decide
  fetch := by decide
  guardLegal := by decide
  guardKnown := by decide
  guard := by decide
  known := by decide

/-- Refutes O10: on a fenced core a misaligned lst records no fault (R85), where the statement has it fault with ALIGN whatever
the core. The witness stores 2 bytes at offset 1 in `fencedRunning`. What else the statement says holds: `ownWindowAccess`,
`exec_lst_aligned` and `localLoad_aligned` on every core, and the faults of `localStore_faults_iff` and
`vectorLocal_faults_iff` on a core that is not fenced. -/
theorem not_localAndOwnAccess : ¬ Obligations.LocalAndOwnAccess := by
  rintro ⟨hlocal, -, -⟩
  obtain ⟨-, hmisaligned, -⟩ := hlocal { core := 0, ctx := 0 } 0 0 1 1 fencedRunning runs_fencedRunning
  obtain ⟨hlst, -, -⟩ := hmisaligned (by decide)
  have hcheck : lsCheck (1 : Word64) (2 ^ (1 : BitVec 2).toNat) = some .align :=
    lsCheck_align (by decide)
  have hunfenced := (localStore_faults_iff (imm := 1) runs_fencedRunning (by decide) hcheck).1.mp hlst
  exact absurd hunfenced (by decide)

end Sys2Proof.Machine
